-- ==== Sys2Proof/Word.lean ====
section
/-! DEFINITION. The word and index types of the SG-9624 model, the place of a bit field in a register, a group of
four like parts, and the small closed types that the operands of its commands use. -/

namespace Sys2Proof

/-- A register of the device: 32 bits (spec/00_scope.md, Registers). -/
abbrev W := BitVec 32

/-- A byte of a memory. -/
abbrev Byte := BitVec 8

/-- The place [hi:lo] of a bit field in a register (spec/00_scope.md, Notation). -/
structure Field where
  hi : Nat
  lo : Nat
  deriving DecidableEq, Repr

/-- A number of sections, legs of a section, bridges of a section, host ports, network ports: always four. -/
structure Quad (α : Type) where
  q0 : α
  q1 : α
  q2 : α
  q3 : α
  deriving DecidableEq, Repr

namespace Quad

/-- Four copies of one value. -/
def all {α : Type} (a : α) : Quad α := ⟨a, a, a, a⟩

/-- Member i. -/
def get {α : Type} (q : Quad α) (i : Fin 4) : α :=
  match i with | 0 => q.q0 | 1 => q.q1 | 2 => q.q2 | 3 => q.q3

/-- Member i replaced. -/
def set {α : Type} (q : Quad α) (i : Fin 4) (a : α) : Quad α :=
  match i with
  | 0 => { q with q0 := a } | 1 => { q with q1 := a } | 2 => { q with q2 := a } | 3 => { q with q3 := a }

/-- Member i changed by a function. -/
def upd {α : Type} (q : Quad α) (i : Fin 4) (f : α → α) : Quad α := q.set i (f (q.get i))

/-- The four members in order. -/
def toList {α : Type} (q : Quad α) : List α := [q.q0, q.q1, q.q2, q.q3]

/-- Every member changed by a function of its index. -/
def mapIdx {α β : Type} (q : Quad α) (f : Fin 4 → α → β) : Quad β :=
  ⟨f 0 q.q0, f 1 q.q1, f 2 q.q2, f 3 q.q3⟩

end Quad

/-- A sparse table: the entries that differ from the table's default, keys strictly rising. -/
abbrev Tbl (α : Type) := List (Nat × α)

/-- A section SEC0–SEC3. -/
abbrev Sec := Fin 4

/-- A leg L0–L15; leg l belongs to section l div 4 (R2). -/
abbrev Leg := Fin 16

/-- A bridge of a section (R4). -/
abbrev Bridge := Fin 4

/-- A host port HP0–HP3 or a network port. -/
abbrev Port := Fin 4

namespace Leg

/-- The section of a leg (R2). -/
def sec (l : Leg) : Sec := ⟨l.val / 4, by omega⟩

/-- The leg's index in its section (R2). -/
def loc (l : Leg) : Fin 4 := ⟨l.val % 4, by omega⟩

end Leg

/-- Who performs a register access: a host port, or the queue engine (R22). -/
inductive Master where
  | port (k : Port)
  | queue
  deriving DecidableEq, Repr

/-- Which run of the engine an instruction belongs to: the run of the pair, or the proof tick of engine B (R350).
`split` is the run of the pair where the two engines do not do the same: at its end they stand at different addresses,
or only one of them executes it with a program fault or executes it as a COMMIT (R168). -/
inductive EngSel where
  | run
  | proof
  | split
  deriving DecidableEq, Repr

/-- A single access that the arbiter serves between the words of a native burst (R311): of another host port, or the
delivery of a ring by the queue engine. -/
inductive Access where
  | write (k : Port) (addr : BitVec 24) (val : W)
  | read (k : Port) (addr : BitVec 24)
  | ring (s : Sec) (r : Fin 2)
  deriving DecidableEq, Repr

/-- What the error correction of a memory word finds (R163, R274). -/
inductive EccResult where
  | clean
  | corrected
  | uncorrectable
  deriving DecidableEq, Repr

/-- The reset causes of R396: NRST, a supply monitor (of a core rail, VDD or VDDSD, or of another), the keep domain. -/
inductive ResetCause where
  | nrst
  | supply (core : Bool)
  | keep
  deriving DecidableEq, Repr

/-- Converter codes of an ADC block, by local channel: the codes that left the converter since the last event given
for the channel, in order (R79, R81). -/
abbrev Samples := List (Fin 12 × List (BitVec 14))

/-- What the ROM finds at base boot: the known-answer test, and which PLLs lock within 2 ms with the clock plan of the
base image of the proof bank and of the one in the active bank (bit p for PLL p). -/
structure BaseBoot where
  katOk : Bool
  proofLocks : BitVec 7
  locks : BitVec 7
  deriving DecidableEq, Repr

/-- What becomes of a CAN transmission: it is sent, it loses arbitration, or it meets an error that counts against the
transmitter (R320). -/
inductive CanTx where
  | sent
  | lost
  | error
  deriving DecidableEq, Repr

/-- What a CAN receiver finds: a frame, an error, or a dominant bit after its own error flag (R320). -/
inductive CanRx where
  | frame
  | error
  | dominant
  deriving DecidableEq, Repr

/-- How an I2C transaction ends at the bus (R323); the packet error code of a read is checked by the device. -/
inductive I2cResult where
  | done
  | nack
  | arb
  | timeout
  deriving DecidableEq, Repr

end Sys2Proof
end

