-- ==== Sys2Proof/Syntax.lean ====
section
/-! DEFINITION. The commands of the block: one constructor for each row of spec/opcode_table.json, with the operands
the row takes. An operand that the device cannot know (a converter code, the time of an edge, a verdict of the
crypto engine) is supplied by the command. The rows without an operand stand last. -/

namespace Sys2Proof

/-- The commands and events of the SG-9624. -/
inductive Instr where
  /-- DEVICE_RESET (R396). -/
  | deviceReset (cause : ResetCause)
  /-- DEVICE_RESET_RELEASE (R396). -/
  | deviceResetRelease (straps : BitVec 4)
  /-- BASE_BOOT_COMPLETE (R56). -/
  | baseBootComplete (r : BaseBoot)
  /-- SEC_CMD_START (R23). -/
  | secCmdStart (s : Sec)
  /-- SEC_CMD_ENABLE (R23). -/
  | secCmdEnable (s : Sec)
  /-- SEC_CMD_STOP (R23). -/
  | secCmdStop (s : Sec)
  /-- SECTION_BOOT_START (R57). -/
  | sectionBootStart (s : Sec)
  /-- SECTION_BOOT_COMPLETE (R58). -/
  | sectionBootComplete (s : Sec)
  /-- STOPPING_COMPLETE (R26). -/
  | stoppingComplete (s : Sec)
  /-- REGISTER_WRITE (R8). -/
  | registerWrite (addr : W) (val : W)
  /-- RWP_CLOSE (R53). -/
  | rwpClose (val : W)
  /-- TICK_TRIGGER (R12). -/
  | tickTrigger (s : Sec) (clk : Nat)
  /-- WINDOW_RESULT_ARRIVAL (R89). -/
  | windowResultArrival (s : Sec) (clk : Nat)
  /-- ASSIST_UPDATE_COMPLETE (R195). -/
  | assistUpdateComplete (s : Sec) (clk : Nat)
  /-- OBSERVER_HOLD_TIMEOUT (R200). -/
  | observerHoldTimeout (s : Sec)
  /-- TICK_DEADLINE_EXPIRY (R16). -/
  | tickDeadlineExpiry (s : Sec)
  /-- RECOMPUTE_START (R16). -/
  | recomputeStart (s : Sec)
  /-- NOP (R181). -/
  | nop (s : Sec) (e : EngSel) (args : BitVec 26)
  /-- BR (R190). -/
  | br (s : Sec) (e : EngSel) (args : BitVec 26)
  /-- CALL (R191). -/
  | call (s : Sec) (e : EngSel) (args : BitVec 26)
  /-- RET (R191). -/
  | ret (s : Sec) (e : EngSel) (args : BitVec 26)
  /-- WAIT (R191). -/
  | wait (s : Sec) (e : EngSel) (args : BitVec 26)
  /-- WAIT_COMPLETE (R191). -/
  | waitComplete (s : Sec) (e : EngSel)
  /-- NEXT (R152). -/
  | next (s : Sec) (e : EngSel) (args : BitVec 26)
  /-- COMMIT (R15). -/
  | commit (s : Sec) (e : EngSel) (args : BitVec 26) (agree : Bool)
  /-- MOV (R181). -/
  | mov (s : Sec) (e : EngSel) (args : BitVec 26)
  /-- LDK (R181). -/
  | ldk (s : Sec) (e : EngSel) (args : BitVec 26)
  /-- LDI (R181). -/
  | ldi (s : Sec) (e : EngSel) (args : BitVec 26)
  /-- CVT (R181). -/
  | cvt (s : Sec) (e : EngSel) (args : BitVec 26)
  /-- VADD (R181). -/
  | vadd (s : Sec) (e : EngSel) (args : BitVec 26)
  /-- VSUB (R181). -/
  | vsub (s : Sec) (e : EngSel) (args : BitVec 26)
  /-- VMUL (R181). -/
  | vmul (s : Sec) (e : EngSel) (args : BitVec 26)
  /-- VMAC (R181). -/
  | vmac (s : Sec) (e : EngSel) (args : BitVec 26)
  /-- VNEG (R181). -/
  | vneg (s : Sec) (e : EngSel) (args : BitVec 26)
  /-- VABS (R181). -/
  | vabs (s : Sec) (e : EngSel) (args : BitVec 26)
  /-- KMUL (R181). -/
  | kmul (s : Sec) (e : EngSel) (args : BitVec 26)
  /-- KADD (R181). -/
  | kadd (s : Sec) (e : EngSel) (args : BitVec 26)
  /-- CMP (R180). -/
  | cmp (s : Sec) (e : EngSel) (args : BitVec 26)
  /-- LIM (R181). -/
  | lim (s : Sec) (e : EngSel) (args : BitVec 26)
  /-- VLIM (R181). -/
  | vlim (s : Sec) (e : EngSel) (args : BitVec 26)
  /-- VLIM2 (R188). -/
  | vlim2 (s : Sec) (e : EngSel) (args : BitVec 26)
  /-- ROT (R188). -/
  | rot (s : Sec) (e : EngSel) (args : BitVec 26)
  /-- MVM (R183). -/
  | mvm (s : Sec) (e : EngSel) (args : BitVec 26)
  /-- LUT (R165). -/
  | lut (s : Sec) (e : EngSel) (args : BitVec 26)
  /-- LSEL (R181). -/
  | lsel (s : Sec) (e : EngSel) (args : BitVec 26)
  /-- PSTEP (R166). -/
  | pstep (s : Sec) (e : EngSel) (args : BitVec 26)
  /-- PTGT (R167). -/
  | ptgt (s : Sec) (e : EngSel) (args : BitVec 26)
  /-- PSET (R167). -/
  | pset (s : Sec) (e : EngSel) (args : BitVec 26)
  /-- PY (R181). -/
  | py (s : Sec) (e : EngSel) (args : BitVec 26)
  /-- RDW (R185). -/
  | rdw (s : Sec) (e : EngSel) (args : BitVec 26)
  /-- WAVG (R185). -/
  | wavg (s : Sec) (e : EngSel) (args : BitVec 26)
  /-- RDI (R186). -/
  | rdi (s : Sec) (e : EngSel) (args : BitVec 26)
  /-- DUTY (R187). -/
  | duty (s : Sec) (e : EngSel) (args : BitVec 26)
  /-- DSET (R187). -/
  | dset (s : Sec) (e : EngSel) (args : BitVec 26)
  /-- OUT (R189). -/
  | out (s : Sec) (e : EngSel) (args : BitVec 26)
  /-- REQ (R189). -/
  | req (s : Sec) (e : EngSel) (args : BitVec 26)
  /-- SEND (R189). -/
  | send (s : Sec) (e : EngSel) (args : BitVec 26)
  /-- PARAM_COMMIT (R155). -/
  | paramCommit (s : Sec)
  /-- ENG_OUT_SEQ_READ (R157). -/
  | engOutSeqRead (k : Port) (s : Sec)
  /-- SCRUB_READ (R163). -/
  | scrubRead (s : Sec) (b : Bool) (mem : Fin 4) (addr : Fin 4096) (ecc : EccResult) (partnerOk : Bool)
  /-- PLL_LOCK (R65). -/
  | pllLock (p : Fin 7)
  /-- PLL_FREQ_WRITE (R66). -/
  | pllFreqWrite (p : Fin 7) (val : W)
  /-- FREQ_STEP_SETTLED (R66). -/
  | freqStepSettled (p : Fin 7)
  /-- PLL_SS_WRITE (R67). -/
  | pllSsWrite (p : Fin 7) (val : W)
  /-- SPREAD_CHANGE_APPLY (R67). -/
  | spreadChangeApply (p : Fin 7)
  /-- PLL_PHASE_WRITE (R68). -/
  | pllPhaseWrite (p : Fin 7) (val : W)
  /-- PHASE_STEP_APPLY (R68). -/
  | phaseStepApply (p : Fin 7)
  /-- HOLDOVER_EXPIRY (R70). -/
  | holdoverExpiry (rcPpm : Int)
  /-- REFCLK_ACCEPTED (R70). -/
  | refclkAccepted (drift : Int)
  /-- RETURN_STEP (R70). -/
  | returnStep (p : Fin 7)
  /-- REF_CMD_RETURN (R70). -/
  | refCmdReturn (val : W) (drift : Int)
  /-- SYS_CLOCK_LOST (R71). -/
  | sysClockLost (unlock : Bool)
  /-- SEC_PLL_UNLOCK (R71). -/
  | secPllUnlock (s : Sec)
  /-- SEC_CLOCK_MISSING (R71). -/
  | secClockMissing (s : Sec)
  /-- ADC_CLOCK_LOST (R71). -/
  | adcClockLost (unlock : Bool)
  /-- NET_CLOCK_LOST (R71). -/
  | netClockLost (unlock : Bool)
  /-- ADC_SATURATION (R79). -/
  | adcSaturation (s : Sec) (c : Fin 12) (codes : List (BitVec 14))
  /-- ACC_CFG_WRITE (R86). -/
  | accCfgWrite (s : Sec) (k : Fin 48) (val : W)
  /-- ACC_ARM (R86). -/
  | accArm (s : Sec) (hi : Bool) (val : W)
  /-- COUNT_WINDOW_CLOSE (R83). -/
  | countWindowClose (s : Sec) (smp : Samples)
  /-- TIME_WINDOW_BOUNDARY (R84). -/
  | timeWindowBoundary (s : Sec) (smp : Samples)
  /-- FORCED_CLOSE (R85). -/
  | forcedClose (s : Sec) (k : Fin 48) (smp : Samples)
  /-- ACC_STAT_READ (R92). -/
  | accStatRead (p : Port) (s : Sec) (k : Fin 48)
  /-- PEAK (R97). -/
  | peak (l : Leg) (t : Nat) (smp : Samples) (old : BitVec 4)
  /-- VALLEY (R97). -/
  | valley (l : Leg) (t : Nat) (smp : Samples) (old : BitVec 4)
  /-- COMPARE_EDGE (R100). -/
  | compareEdge (l : Leg) (u : Fin 3) (b : Bool) (t : Nat)
  /-- DT_ON_EXPIRY (R102). -/
  | dtOnExpiry (l : Leg) (n : Fin 6) (t : Nat)
  /-- FLOOR_EXPIRY (R121). -/
  | floorExpiry (l : Leg) (n : Fin 6) (t : Nat)
  /-- PWM_COMMIT (R106). -/
  | pwmCommit (s : Sec) (val : W)
  /-- IMMEDIATE_ARRIVAL (R109). -/
  | immediateArrival (l : Leg) (t : Nat)
  /-- VP_EVENT_EDGE (R104). -/
  | vpEventEdge (l : Leg) (t : Nat)
  /-- VP_TIMEOUT (R104). -/
  | vpTimeout (l : Leg) (t : Nat)
  /-- TRIP_ACTIVE (R111). -/
  | tripActive (l : Leg) (n : Fin 4)
  /-- TRIP_INACTIVE (R110). -/
  | tripInactive (l : Leg) (n : Fin 4)
  /-- FORCE_SET (R111). -/
  | forceSet (l : Leg)
  /-- FORCE_CLR (R112). -/
  | forceClr (l : Leg)
  /-- ALIGN_ENABLE (R113). -/
  | alignEnable (s : Sec) (val : W)
  /-- IDLE_REFRESH (R125). -/
  | idleRefresh (l : Leg) (t : Nat)
  /-- PRECHARGE_TRAIN (R126). -/
  | prechargeTrain (l : Leg) (t : Nat)
  /-- REFRESH_PULSE_END (R124). -/
  | refreshPulseEnd (l : Leg) (t : Nat)
  /-- DRIVER_FAULT (R128). -/
  | driverFault (l : Leg) (n : Fin 6) (low : Bool)
  /-- OC1_CROSSING (R130). -/
  | oc1Crossing (l : Leg)
  /-- OC2_CROSSING (R133). -/
  | oc2Crossing (l : Leg)
  /-- COMPARATOR_GOOD_SIDE (R132). -/
  | comparatorGoodSide (l : Leg) (oc2 : Bool)
  /-- BLANKING_END (R129). -/
  | blankingEnd (l : Leg) (n : Fin 6) (t : Nat) (low : Bool)
  /-- PLATEAU_END (R134). -/
  | plateauEnd (l : Leg) (t : Nat)
  /-- DELAY_LINE_END (R135). -/
  | delayLineEnd (l : Leg) (t : Nat)
  /-- STEP2_INNER_END (R136). -/
  | step2InnerEnd (l : Leg) (t : Nat)
  /-- PROT_CLR (R139). -/
  | protClr (l : Leg) (flt : BitVec 6)
  /-- SELFTEST_START (R142). -/
  | selftestStart (l : Leg)
  /-- SELFTEST_DONE (R143). -/
  | selftestDone (l : Leg) (failmap : BitVec 8)
  /-- MONITOR_FILTER_CHANGE (R145). -/
  | monitorFilterChange (s : Sec) (m : Fin 8) (hi : Bool) (smp : List Bool)
  /-- BR_CMD_START (R206). -/
  | brCmdStart (s : Sec) (b : Bridge)
  /-- BR_CMD_STOP (R206). -/
  | brCmdStop (s : Sec) (b : Bridge)
  /-- BR_CMD_RESET (R206). -/
  | brCmdReset (s : Sec) (b : Bridge)
  /-- BR_CMD_LOCK (R206). -/
  | brCmdLock (s : Sec) (b : Bridge)
  /-- CONTACTOR_CONFIRM (R207). -/
  | contactorConfirm (n : Fin 4) (closed : Bool)
  /-- PRE_TIMEOUT (R205). -/
  | preTimeout (s : Sec) (b : Bridge)
  /-- CONN_TIMEOUT (R205). -/
  | connTimeout (s : Sec) (b : Bridge)
  /-- STOP_TIMEOUT (R205). -/
  | stopTimeout (s : Sec) (b : Bridge)
  /-- SYNC_QUALIFIED (R205). -/
  | syncQualified (s : Sec) (b : Bridge)
  /-- RIDE_HOLD_EXPIRY (R205). -/
  | rideHoldExpiry (s : Sec) (b : Bridge)
  /-- RIDE_LIMIT (R214). -/
  | rideLimit (s : Sec) (b : Bridge)
  /-- MPPT_INTERVAL (R211). -/
  | mpptInterval (s : Sec) (b : Bridge)
  /-- THERM_LOST (R216). -/
  | thermLost (s : Sec) (b : Bridge)
  /-- PASSIVE_TRIP (R224). -/
  | passiveTrip (s : Sec) (n : Fin 6)
  /-- ISL_T0_WRITE (R228). -/
  | islT0Write (s : Sec) (val : W)
  /-- LINE_CYCLE_END (R240). -/
  | lineCycleEnd (p : Fin 8)
  /-- SUPRA_BLOCK (R251). -/
  | supraBlock (p : Fin 8)
  /-- MP_TSEL_WRITE (R242). -/
  | mpTselWrite (k : Port) (p : Fin 8) (val : W)
  /-- MP_WSEQ_READ (R249). -/
  | mpWseqRead (k : Port) (p : Fin 8)
  /-- HARM_SEL_WRITE (R252). -/
  | harmSelWrite (k : Port) (val : W)
  /-- HARM_COPY_DONE (R252). -/
  | harmCopyDone (k : Port)
  /-- CLR_TOTALS (R246). -/
  | clrTotals (val : W)
  /-- MET_CMD_SAVE (R246). -/
  | metCmdSave (val : W)
  /-- PULSE_START (R253). -/
  | pulseStart (n : Fin 8)
  /-- PULSE_END (R253). -/
  | pulseEnd (n : Fin 8)
  /-- SOURCE_EVENT (R262). -/
  | sourceEvent (g : Fin 576)
  /-- ESC_WINDOW_EXPIRY (R263). -/
  | escWindowExpiry (g : Fin 576)
  /-- PAIR_BROKEN (R261). -/
  | pairBroken (g : Fin 576) (both1 : Bool)
  /-- PAIR_RESTORED (R261). -/
  | pairRestored (g : Fin 576)
  /-- FC_LOG_POP (R271). -/
  | fcLogPop (c : Option Sec)
  /-- COLLECTOR_SCRUB (R274). -/
  | collectorScrub (c : Option Sec) (ecc : EccResult)
  /-- SAFE_INIT_DONE (R284). -/
  | safeInitDone (sv : BitVec 8)
  /-- SAFE_INPUT_CHANGE (R280). -/
  | safeInputChange (ch : Fin 8) (level : Bool)
  /-- DISCREPANCY_TIMEOUT (R281). -/
  | discrepancyTimeout (n : Fin 3)
  /-- SEAL_READ (R283). -/
  | sealRead (sv : BitVec 8)
  /-- OFF_PULSE_TEST (R287). -/
  | offPulseTest (n : Fin 4) (ok : Bool)
  /-- MIRROR_TIMEOUT (R287). -/
  | mirrorTimeout (n : Fin 4)
  /-- SHUNT_PULSE_END (R288). -/
  | shuntPulseEnd (opened : Bool)
  /-- SRESET_PULSE (R289). -/
  | sresetPulse (ms : Nat)
  /-- ETH_FRAME_RX (R292). -/
  | ethFrameRx (p : Port) (frame : List Byte)
  /-- FM_TIMEOUT (R303). -/
  | fmTimeout (p : Port) (i : Fin 4)
  /-- ETH_FRAME_TX (R306). -/
  | ethFrameTx (p : Port)
  /-- LAUNCH_SLOT_LOAD (R305). -/
  | launchSlotLoad (p : Port)
  /-- TIMED_LAUNCH (R305). -/
  | timedLaunch (p : Port) (i : Fin 16)
  /-- LAUNCH_MISSED (R307). -/
  | launchMissed (p : Port) (q : Fin 4) (slot : Option (Fin 16))
  /-- ETH_LINK_DOWN (R291). -/
  | ethLinkDown (p : Port)
  /-- TIME_INCR_WRITE (R294). -/
  | timeIncrWrite (val : W)
  /-- TIME_STEP (R299). -/
  | timeStep (force : Bool)
  /-- TIME_NS_READ (R297). -/
  | timeNsRead (k : Port)
  /-- TIME_RAW_LO_READ (R294). -/
  | timeRawLoRead (k : Port)
  /-- HP_WRITE (R310). -/
  | hpWrite (k : Port) (cmd : BitVec 48) (words : List W) (crc : BitVec 16) (others : List (Nat × Access))
  /-- HP_READ (R310). -/
  | hpRead (k : Port) (cmd : BitVec 48) (crc : BitVec 16) (others : List (Nat × Access))
  /-- HP_STAT (R309). -/
  | hpStat (k : Port) (cmd : BitVec 48) (crc : BitVec 16)
  /-- FRAME_ABORT (R310). -/
  | frameAbort (k : Port)
  /-- Q_PTR_WRITE (R315). -/
  | qPtrWrite (q : Fin 64) (val : W)
  /-- RING_DELIVERY (R318). -/
  | ringDelivery (s : Sec) (r : Fin 2)
  /-- CAN_FRAME_RX (R320). -/
  | canFrameRx (n : Fin 2) (id : W) (flags : W) (data : List Byte) (ago : Nat) (r : CanRx)
  /-- CAN_FRAME_TX (R320). -/
  | canFrameTx (n : Fin 2) (r : CanTx)
  /-- CAN_BUS_OFF (R320). -/
  | canBusOff (n : Fin 2)
  /-- CAN_AUTO_RECOVER (R320). -/
  | canAutoRecover (n : Fin 2)
  /-- CAN_CMD_RECOVER (R320). -/
  | canCmdRecover (n : Fin 2)
  /-- UART_TX (R321). -/
  | uartTx (n : Fin 2)
  /-- UART_RX_CLOSE (R321). -/
  | uartRxClose (n : Fin 2) (chars : List (Byte × Bool × Bool)) (ago : Nat)
  /-- I2C_GO (R323). -/
  | i2cGo (n : Fin 2) (val : W)
  /-- I2C_DONE (R323). -/
  | i2cDone (n : Fin 2) (r : I2cResult) (rd : List Byte)
  /-- DL_FRAME_RX (R325). -/
  | dlFrameRx (j : Fin 8) (frame : List Byte) (codeErr : Bool)
  /-- DL_FRAME_TX (R324). -/
  | dlFrameTx (j : Fin 8)
  /-- DL_LOST (R325). -/
  | dlLost (j : Fin 8)
  /-- DL_CMD_GO (R325). -/
  | dlCmdGo (j : Fin 8)
  /-- TOKEN_DONE (R341). -/
  | tokenDone (wrote : Bool)
  /-- REPORT_DONE (R345). -/
  | reportDone (ecdsa : List Byte) (hss : List Byte)
  /-- COUCH_ARM (R346). -/
  | couchArm (s : Sec)
  /-- COUCH_NOW (R346). -/
  | couchNow (s : Sec)
  /-- COUCH_CANCEL (R353). -/
  | couchCancel (s : Sec)
  /-- COUCH_ACTIVATE (R347). -/
  | couchActivate (s : Sec)
  /-- COUCH_B_LOAD (R348). -/
  | couchBLoad (s : Sec)
  /-- COUCH_TAKEOVER (R351). -/
  | couchTakeover (s : Sec)
  /-- DIRECTORY_SWITCH (R351). -/
  | directorySwitch (s : Sec)
  /-- COUCH_A_RELOAD (R352). -/
  | couchAReload (s : Sec) (ok : Bool)
  /-- COMPAT_READ (R356). -/
  | compatRead (k : Port) (addr : BitVec 7)
  /-- COMPAT_WRITE (R357). -/
  | compatWrite (k : Port) (addr : BitVec 7) (data : BitVec 16)
  /-- COMPAT_FRAME_ERROR (R357). -/
  | compatFrameError (k : Port)
  /-- COMPAT_TIMING_WRITE (R361). -/
  | compatTimingWrite (k : Port) (addr : BitVec 7) (data : BitVec 16)
  /-- COMPAT_CMP_WRITE (R363). -/
  | compatCmpWrite (k : Port) (x : Fin 3) (data : BitVec 16) (t : Nat)
  /-- COMPAT_RUN_START (R365). -/
  | compatRunStart (k : Port)
  /-- COMPAT_RUN_STOP (R365). -/
  | compatRunStop (k : Port)
  /-- COMPAT_SWRST (R368). -/
  | compatSwrst (k : Port)
  /-- COMPAT_TRIPCFG_WRITE (R366). -/
  | compatTripcfgWrite (k : Port) (data : BitVec 16)
  /-- COMPAT_FAULT_CLEAR (R367). -/
  | compatFaultClear (k : Port) (data : BitVec 16)
  /-- COMPAT_ADC_RESULT (R369). -/
  | compatAdcResult (k : Port) (smp : Samples)
  /-- AUX_PHASE_START (R372). -/
  | auxPhaseStart (i : Fin 4) (code : BitVec 12) (cs : List (BitVec 12)) (temp : BitVec 16)
  /-- AUX_CURRENT_TRIP (R373). -/
  | auxCurrentTrip (i : Fin 4)
  /-- AUX_MAX_ON (R372). -/
  | auxMaxOn (i : Fin 4)
  /-- AUX_CLR (R376). -/
  | auxClr (val : W)
  /-- AUX_OVERVOLTAGE (R378). -/
  | auxOvervoltage (high : Bool)
  /-- KEEP_SUPPLY_CHANGE (R382). -/
  | keepSupplyChange (main : Nat) (store : Nat) (vbat : Nat)
  /-- KEEP_MEASURE (R382). -/
  | keepMeasure (store : Nat) (vbat : Nat) (hv0 : Nat) (hv1 : Nat)
  /-- BURST_START (R387). -/
  | burstStart (store : Nat) (vbat : Nat) (hv0 : Nat) (hv1 : Nat)
  /-- RTC_SEC_WRITE (R394). -/
  | rtcSecWrite (val : W)
  /-- TAMPER (R395). -/
  | tamper (n : Fin 2)
  /-- MPPSET_READ (R383). -/
  | mppsetRead (n : Fin 2) (ohms : Nat)
  /-- FERAM_REFRESH (R430). -/
  | feramRefresh (obj : Fin 3)
  /-- INJ_FIRE (R402). -/
  | injFire (val : W)
  /-- INJ_STOP (R402). -/
  | injStop (val : W)
  /-- ETH_LINK_UP (R291). -/
  | ethLinkUp (p : Port) (speed : BitVec 2)
  /-- POINT_FREE_ENTRY (R238). -/
  | pointFreeEntry (p : Fin 8)
  /-- READ_BACK_CONFIRMED (R287). -/
  | readBackConfirmed (n : Fin 4)
  /-- SATURATION_RELEASE (R79). -/
  | saturationRelease (s : Sec) (c : Fin 12)
  /-- INTERNAL_RESTART (R269). -/
  | internalRestart
  /-- REFCLK_LOST (R70). -/
  | refclkLost
  /-- CHIP_CLOSE (R232). -/
  | chipClose
  /-- METER_RECORD_SAVE (R243). -/
  | meterRecordSave
  /-- SAFE_SELF_FAIL (R279). -/
  | safeSelfFail
  /-- RAMP_EXPIRY (R285). -/
  | rampExpiry
  /-- SAFE_PLATEAU_END (R286). -/
  | safePlateauEnd
  /-- GATE_EN_STOP (R286). -/
  | gateEnStop
  /-- GATE_EN_LOSS (R281). -/
  | gateEnLoss
  /-- SO_DEENERGISE (R286). -/
  | soDeenergise
  /-- SHUNT_TRIP_PULSE (R288). -/
  | shuntTripPulse
  /-- SAFE_AUTO_RESET (R289). -/
  | safeAutoReset
  /-- TIME_SLEW (R298). -/
  | timeSlew
  /-- SLEW_DONE (R298). -/
  | slewDone
  /-- TOKEN (R341). -/
  | token
  /-- REPORT (R345). -/
  | report
  /-- FIELD (R342). -/
  | field
  /-- AUX_UNDERSHOOT (R375). -/
  | auxUndershoot
  /-- AUX_HICCUP (R376). -/
  | auxHiccup
  /-- AUX_SOFTSTART_END (R376). -/
  | auxSoftstartEnd
  /-- AUX_HICCUP_END (R376). -/
  | auxHiccupEnd
  /-- AUX_RETRY_RESET (R376). -/
  | auxRetryReset
  /-- AUX_RUN_SET (R376). -/
  | auxRunSet
  /-- AUX_RUN_CLEAR (R376). -/
  | auxRunClear
  /-- AUX_UV_TIMEOUT (R378). -/
  | auxUvTimeout
  /-- BURST_DONE (R389). -/
  | burstDone
  /-- PFAIL (R390). -/
  | pfail
  /-- RTC_ALARM (R394). -/
  | rtcAlarm
  /-- INJ_END (R402). -/
  | injEnd
  /-- KEEP_POWER_ON (R381). -/
  | keepPowerOn
  /-- REPORT_WAIT_END (R345). -/
  | reportWaitEnd
  deriving DecidableEq, Repr

end Sys2Proof
end

