-- ==== Sys2Proof/Decode.lean ====
section
/-! DEFINITION. The command that a word of the opcode table spells. The table gives the commands of this block no bits:
the words of the engine instructions are decoded where the engines fetch them (Machine/Engine.lean). -/

namespace Sys2Proof

/-- The command that the low `nbits` bits of a word spell: no row of the table has bits, so none. -/
def decodeTableWord (_nbits _w : Nat) : Option Instr := none

end Sys2Proof
end

