-- ==== Sys2Proof/Config.lean ====
section
/-! DEFINITION. The values that the spec leaves open: constants without a body, so that no proof can see one. Each is
applied to a counter of the state that the step reads and advances (notes/assumptions/3.md). -/

namespace Sys2Proof

/-- A bit that the spec leaves open: which of the two neighbours an unstated rounding takes. -/
opaque Config.freeBit : Nat → Bool

/-- A deviation that the spec only bounds; every use clamps it to the bound stated there. -/
opaque Config.freeDev : Nat → Int

/-- A word that the spec leaves open. -/
opaque Config.freeWord : Nat → W

/-- A result that the spec does not state for some operands, by the operands. -/
opaque Config.unstated : Nat → Int → Int → Int

/-- The half-band stage of a decimator, by the CIC outputs that it holds, newest first: its coefficients are not in the
spec (R93). -/
opaque Config.halfBand : List Int → Int

/-- The interpolator of a metering point, by the instant and the stream words about it with their times: its
coefficients are not in the spec (R239). -/
opaque Config.interpolate : Int → List (Int × Int) → Int

/-- The SHA-384 of the boot ROM, which no image of the spec gives (R344, M0). -/
opaque Config.romHash : List Byte

/-- The SHA-384 of the ROM sheet of a claimed section (R344). -/
opaque Config.romSheetHash : List Byte

/-- The keys that the device derives from its secret, by their label: 0 signing, 1 key agreement, 2 storage of the
plate key. The labels of the derivation are not in the spec (R337, R343). -/
opaque Config.deviceKey : Nat → List Byte → List Byte

/-- The key that the shared secret of a PLATE_KEY token gives: its derivation is not in the spec (R340). -/
opaque Config.tokenKek : List Byte → List Byte

end Sys2Proof
end

