-- ==== Sys2Proof/Machine/Bits.lean ====
section
/-! DEFINITION. Bit fields, sign extension, byte order and saturating counters: the helpers every register
operation uses. -/

namespace Sys2Proof.Machine

/-- The width of a field. -/
def Field.width (f : Field) : Nat := f.hi + 1 - f.lo

/-- A field's value in a register. -/
def fget (f : Field) (w : W) : Nat := (w.toNat >>> f.lo) % 2 ^ Field.width f

/-- The bits of a field, as a register mask. -/
def fmask (f : Field) : W := BitVec.ofNat 32 ((2 ^ Field.width f - 1) <<< f.lo)

/-- A register with a field's value replaced; the value is taken modulo the field's range. -/
def fput (f : Field) (w : W) (v : Nat) : W :=
  (w &&& ~~~(fmask f)) ||| BitVec.ofNat 32 ((v % 2 ^ Field.width f) <<< f.lo)

/-- A one-bit field as a truth value. -/
def fbit (f : Field) (w : W) : Bool := fget f w ≠ 0

/-- Bit i of a register. -/
def wbit (w : W) (i : Nat) : Bool := w.getLsbD i

/-- A truth value as a bit. -/
def b2n (b : Bool) : Nat := if b then 1 else 0

/-- Bits [hi:lo] of a number. -/
def bitsN (n hi lo : Nat) : Nat := (n >>> lo) % 2 ^ (hi + 1 - lo)

/-- A counter that stops at the largest value of its field (R8's counters: saturating). -/
def satInc (max n : Nat) : Nat := if n < max then n + 1 else max

/-- A number of w bits read as a two's complement integer. -/
def sgn (w n : Nat) : Int := if n % 2 ^ w < 2 ^ (w - 1) then (n % 2 ^ w : Nat) else (n % 2 ^ w : Nat) - (2 ^ w : Nat)

/-- An integer as a two's complement number of w bits. -/
def uns (w : Nat) (i : Int) : Nat := (i % (2 ^ w : Nat)).toNat

/-- A register as a signed integer (an engine word's numerator over 2^27, R6). -/
def wint (w : W) : Int := w.toInt

/-- An integer kept in a register modulo 2^32. -/
def intW (i : Int) : W := BitVec.ofInt 32 i

/-- A natural number kept in a register modulo 2^32. -/
def natW (n : Nat) : W := BitVec.ofNat 32 n

/-- An integer held between two bounds. -/
def clampI (lo hi i : Int) : Int := if i < lo then lo else if hi < i then hi else i

/-- A number held below a bound. -/
def clampN (hi n : Nat) : Nat := if hi < n then hi else n

/-- Four bytes, the first the least significant (R7). -/
def le4 (a b c d : Byte) : W := d ++ c ++ b ++ a

/-- The four bytes of a word, least significant first (R7). -/
def wordBytes (w : W) : List Byte :=
  [w.extractLsb' 0 8, w.extractLsb' 8 8, w.extractLsb' 16 8, w.extractLsb' 24 8]

/-- Words from a byte list, four bytes each, little-endian (R7); a short tail is dropped. -/
def bytesWords : List Byte → List W
  | a :: b :: c :: d :: t => le4 a b c d :: bytesWords t
  | _ => []

/-- A number of n bytes, least significant first. -/
def natBytes : Nat → Nat → List Byte
  | 0, _ => []
  | n + 1, v => BitVec.ofNat 8 v :: natBytes n (v / 256)

/-- The number a little-endian byte list stands for. -/
def bytesNat : List Byte → Nat
  | [] => 0
  | b :: t => b.toNat + 256 * bytesNat t

/-- Division that rounds to nearest, ties away from zero, for a non-negative numerator. -/
def divRound (a b : Nat) : Nat := (2 * a + b) / (2 * b)

/-- Division by 2^k rounded to nearest, ties to even. -/
def roundHalfEven (n : Int) (k : Nat) : Int :=
  let q := n / (2 ^ k : Nat)
  let r := n % (2 ^ k : Nat)
  if 2 * r > (2 ^ k : Nat) ∨ (2 * r = (2 ^ k : Nat) ∧ q % 2 = 1) then q + 1 else q

/-- Integer square root, rounded down, by at most `fuel` halvings of the step. -/
def isqrtAux : Nat → Nat → Nat → Nat
  | 0, _, r => r
  | f + 1, n, r => let c := r + 2 ^ f; if c * c ≤ n then isqrtAux f n c else isqrtAux f n r

/-- Integer square root, rounded down, of a number below 2^(2k). -/
def isqrt (k n : Nat) : Nat := isqrtAux k n 0

/-- All indices below n. -/
def upTo (n : Nat) : List Nat := List.range n

end Sys2Proof.Machine
end

