-- ==== Sys2Proof/Machine/RegMap.lean ====
section
/-! DEFINITION. The register map: the byte address, access masks and reset value of every register of the spec's
register tables (spec/01 to spec/20), and the places of their fields. A row with counts covers an array of registers;
section registers are given at their offset in the section window (R21), device registers at their address.
A reset field the spec gives as fuse, plate, strap, default, FeRAM, MRAM or random is 0 in its row here: the
operation that reads the register computes it, or boot writes it. -/

namespace Sys2Proof.Machine

/-- One register, or one array of registers at `off + s1 * i + s2 * j`, with its access masks (R8). -/
structure RegRow where
  off : Nat
  n1 : Nat
  s1 : Nat
  n2 : Nat
  s2 : Nat
  reset : Nat
  rw : Nat
  rwp : Nat
  w1c : Nat
  rc : Nat
  wo : Nat
  ro : Nat
  deriving DecidableEq, Repr

/-- Whether a row holds the register at an address: some `i < n1`, `j < n2` gives it. A stride of 0 goes with a count
of 1. -/
def RegRow.covers (r : RegRow) (a : Nat) : Bool :=
  let d := a - r.off
  let i := if r.s1 = 0 then 0 else d / r.s1
  let e := if r.s1 = 0 then d else d % r.s1
  let j := if r.s2 = 0 then 0 else e / r.s2
  let f := if r.s2 = 0 then e else e % r.s2
  decide (r.off ≤ a) && decide (i < r.n1) && decide (j < r.n2) && decide (f = 0)

namespace Reg

def DEV_ID : Nat := 0x0
def DEV_REV : Nat := 0x4
def DEV_STATE : Nat := 0x8
def SEC_STATES : Nat := 0xc
def SEC_CMD : Nat := 0x10
def CMD_STAT : Nat := 0x14
def BUS_ERR_STAT : Nat := 0x18
def BUS_ERR_ADDR : Nat := 0x1c
def PLATE_STAT : Nat := 0x20
def PLATE_BUILD : Nat := 0x24
def PLATE_COMPAT : Nat := 0x28
def RWP_CLOSE : Nat := 0x2c
def SEC_STATE : Nat := 0x0
def TICK_CFG : Nat := 0x4
def TICK_DEADLINE : Nat := 0x8
def TRIG_CNT : Nat := 0xc
def COMMIT_CNT : Nat := 0x10
def TICK_STAT : Nat := 0x14
def TICK_LAST : Nat := 0x18
def TICK_PEAK : Nat := 0x1c
def SHEET_STAT : Nat := 0x20
def SHEET_BUILD : Nat := 0x24
def PROG_BUILD : Nat := 0x28
def SHEET_REC : Nat := 0x2c
def REF_CFG : Nat := 0x10000
def REF_STAT : Nat := 0x10004
def HOLDOVER : Nat := 0x10008
def DOM_EN : Nat := 0x1000c
def REF_CMD : Nat := 0x10010
def CLKO_CFG (i : Nat) : Nat := 0x10020 + 0x4 * i
def PLL_CTRL (i : Nat) : Nat := 0x10100 + 0x100 * i
def PLL_FREQ (i : Nat) : Nat := 0x10104 + 0x100 * i
def PLL_DIV (i : Nat) : Nat := 0x10108 + 0x100 * i
def PLL_SS (i : Nat) : Nat := 0x1010c + 0x100 * i
def PLL_PHASE (i : Nat) : Nat := 0x10110 + 0x100 * i
def PLL_STAT (i : Nat) : Nat := 0x10114 + 0x100 * i
def BAND (i j : Nat) : Nat := 0x10140 + 0x100 * i + 0x4 * j
def ADC_STAT : Nat := 0x20000
def ADC_SAT : Nat := 0x20004
def ACC_ARM0 : Nat := 0x20010
def ACC_ARM1 : Nat := 0x20014
def ADC_CFG (i : Nat) : Nat := 0x20100 + 0x10 * i
def ADC_CAL (i : Nat) : Nat := 0x20104 + 0x10 * i
def ADC_FUSE (i : Nat) : Nat := 0x20108 + 0x10 * i
def ACC_CFG (i : Nat) : Nat := 0x21000 + 0x20 * i
def ACC_PARAM (i : Nat) : Nat := 0x21004 + 0x20 * i
def ACC_T0 (i : Nat) : Nat := 0x21008 + 0x20 * i
def ACC_STAT (i : Nat) : Nat := 0x2100c + 0x20 * i
def ACC_SUM (i : Nat) : Nat := 0x21010 + 0x20 * i
def ACC_MINMAX (i : Nat) : Nat := 0x21014 + 0x20 * i
def ACC_TSTAMP (i : Nat) : Nat := 0x21018 + 0x20 * i
def PWM_COMMIT : Nat := 0x30000
def ALIGN_CFG : Nat := 0x30010
def ALIGN_M : Nat := 0x30014
def ALIGN_SPAN : Nat := 0x30018
def ALIGN_T0 : Nat := 0x3001c
def ALIGN_OFFSET : Nat := 0x30020
def ALIGN_ERR : Nat := 0x30024
def ALIGN_RATE : Nat := 0x30028
def ALIGN_STAT : Nat := 0x3002c
def CAR_CFG (i : Nat) : Nat := 0x30100 + 0x100 * i
def LEG_LIM (i : Nat) : Nat := 0x30104 + 0x100 * i
def SW_MAP (i : Nat) : Nat := 0x30108 + 0x100 * i
def TRIP_SRC (i : Nat) : Nat := 0x3010c + 0x100 * i
def TRIP_LEN (i : Nat) : Nat := 0x30110 + 0x100 * i
def VP_SRC (i : Nat) : Nat := 0x30114 + 0x100 * i
def SH_PRD (i : Nat) : Nat := 0x30120 + 0x100 * i
def SH_CMP (i j : Nat) : Nat := 0x30124 + 0x100 * i + 0x4 * j
def SH_FORCE (i : Nat) : Nat := 0x3013c + 0x100 * i
def SH_DT (i j : Nat) : Nat := 0x30140 + 0x100 * i + 0x4 * j
def ACT_PRD (i : Nat) : Nat := 0x30160 + 0x100 * i
def ACT_CMP (i j : Nat) : Nat := 0x30164 + 0x100 * i + 0x4 * j
def ACT_FORCE (i : Nat) : Nat := 0x3017c + 0x100 * i
def ACT_DT (i j : Nat) : Nat := 0x30180 + 0x100 * i + 0x4 * j
def LEG_CNT (i : Nat) : Nat := 0x30190 + 0x100 * i
def LEG_PERIOD (i : Nat) : Nat := 0x30194 + 0x100 * i
def LEG_STAT (i : Nat) : Nat := 0x30198 + 0x100 * i
def LEG_EVCNT (i : Nat) : Nat := 0x3019c + 0x100 * i
def FORCE_CMD (i : Nat) : Nat := 0x301a0 + 0x100 * i
def FORCE_STAT (i : Nat) : Nat := 0x301a4 + 0x100 * i
def LEG_W (i j : Nat) : Nat := 0x10000 + 0x1000 * i + 0x4 * j
def GATE_VEC (i : Nat) : Nat := 0x10040 + 0x1000 * i
def GATE_STAT (i : Nat) : Nat := 0x10044 + 0x1000 * i
def GATE_EVCNT (i : Nat) : Nat := 0x10048 + 0x1000 * i
def BS_EVCNT (i : Nat) : Nat := 0x1004c + 0x1000 * i
def PROT_STAT (i : Nat) : Nat := 0x10050 + 0x1000 * i
def PROT_CMD (i : Nat) : Nat := 0x10054 + 0x1000 * i
def SELFTEST (i : Nat) : Nat := 0x10058 + 0x1000 * i
def WM_LATCH : Nat := 0x40000
def CMP_STAT : Nat := 0x40004
def OC_TH (i : Nat) : Nat := 0x40100 + 0x20 * i
def OC_CFG (i : Nat) : Nat := 0x40104 + 0x20 * i
def OC_LIVE (i : Nat) : Nat := 0x40108 + 0x20 * i
def WM_TH (i : Nat) : Nat := 0x40200 + 0x20 * i
def WM_CFG (i : Nat) : Nat := 0x40204 + 0x20 * i
def WM_LIVE (i : Nat) : Nat := 0x40208 + 0x20 * i
def ENG_CFG : Nat := 0x60000
def ENG_STAT : Nat := 0x60004
def ENG_EVCNT : Nat := 0x60008
def SAT_STICKY : Nat := 0x6000c
def PROG_FAULT : Nat := 0x60010
def ECC_STAT : Nat := 0x60014
def ENG_LAYOUT : Nat := 0x60018
def PARAM_COMMIT : Nat := 0x6001c
def ENG_OUT_SEQ : Nat := 0x60020
def HOST_PARAM (i : Nat) : Nat := 0x60100 + 0x4 * i
def ENG_OUT (i : Nat) : Nat := 0x60180 + 0x4 * i
def PROF_TGT (i : Nat) : Nat := 0x60400 + 0x10 * i
def PROF_Y (i : Nat) : Nat := 0x60404 + 0x10 * i
def PROF_V (i : Nat) : Nat := 0x60408 + 0x10 * i
def PROF_STAT (i : Nat) : Nat := 0x6040c + 0x10 * i
def WREG (i j : Nat) : Nat := 0x61000 + 0x100 * i + 0x4 * j
def LUT_SEL (i : Nat) : Nat := 0x61400 + 0x4 * i
def COEF (i : Nat) : Nat := 0x64000 + 0x4 * i
def LUTP (i j : Nat) : Nat := 0x68000 + 0x800 * i + 0x4 * j
def PROG (i : Nat) : Nat := 0x6c000 + 0x4 * i
def GRID_CFG : Nat := 0x70000
def GRID_VSCALE : Nat := 0x70004
def GRID_H : Nat := 0x70008
def GRID_BW : Nat := 0x7000c
def GRID_VLIM : Nat := 0x70010
def GRID_HOLD : Nat := 0x70014
def DERATE_STEP : Nat := 0x70018
def GRID_STAT : Nat := 0x70020
def GRID_EVCNT : Nat := 0x70024
def GRID_ANGLE : Nat := 0x70028
def GRID_FREQ : Nat := 0x7002c
def GRID_ROCOF : Nat := 0x70030
def GRID_VPOS : Nat := 0x70034
def GRID_VNEG : Nat := 0x70038
def GRID_RES : Nat := 0x7003c
def BR_CFG (i : Nat) : Nat := 0x70100 + 0x100 * i
def BR_ISRC (i : Nat) : Nat := 0x70104 + 0x100 * i
def BR_ISCALE (i : Nat) : Nat := 0x70108 + 0x100 * i
def BR_VDCSCALE (i : Nat) : Nat := 0x7010c + 0x100 * i
def BR_PRE (i : Nat) : Nat := 0x70110 + 0x100 * i
def BR_TIME0 (i : Nat) : Nat := 0x70114 + 0x100 * i
def BR_TIME1 (i : Nat) : Nat := 0x70118 + 0x100 * i
def BR_RIDE0 (i : Nat) : Nat := 0x7011c + 0x100 * i
def BR_RIDE1 (i : Nat) : Nat := 0x70120 + 0x100 * i
def BR_RIDE2 (i : Nat) : Nat := 0x70124 + 0x100 * i
def BR_RIDEX (i : Nat) : Nat := 0x70138 + 0x100 * i
def BR_CHK (i : Nat) : Nat := 0x7013c + 0x100 * i
def BR_PO (i : Nat) : Nat := 0x70140 + 0x100 * i
def BR_PO2 (i : Nat) : Nat := 0x70144 + 0x100 * i
def BR_MPPT0 (i : Nat) : Nat := 0x70148 + 0x100 * i
def BR_MPPT1 (i : Nat) : Nat := 0x7014c + 0x100 * i
def BR_MPPT2 (i : Nat) : Nat := 0x70150 + 0x100 * i
def BR_MPPT3 (i : Nat) : Nat := 0x70154 + 0x100 * i
def BR_CMD (i : Nat) : Nat := 0x70160 + 0x100 * i
def BR_CTRL (i : Nat) : Nat := 0x70164 + 0x100 * i
def BR_STAT (i : Nat) : Nat := 0x70168 + 0x100 * i
def BR_EVCNT (i : Nat) : Nat := 0x7016c + 0x100 * i
def BR_LVSEG (i j : Nat) : Nat := 0x70128 + 0x100 * i + 0x4 * j
def BR_MPPT_ISC (i : Nat) : Nat := 0x70158 + 0x100 * i
def BR_MPPT_VSC (i : Nat) : Nat := 0x7015c + 0x100 * i
def BR_P (i : Nat) : Nat := 0x70170 + 0x100 * i
def BR_Q (i : Nat) : Nat := 0x70174 + 0x100 * i
def BR_VDC (i : Nat) : Nat := 0x70178 + 0x100 * i
def BR_MPPT_V (i : Nat) : Nat := 0x7017c + 0x100 * i
def BR_TMAX (i : Nat) : Nat := 0x70180 + 0x100 * i
def ISL_CFG : Nat := 0x70800
def ISL_INFO : Nat := 0x70804
def ISL_THRESH : Nat := 0x70808
def ISL_T0 : Nat := 0x7080c
def ISL_STAT : Nat := 0x70810
def ISL_CHIP : Nat := 0x70814
def ISL_CODE_LO : Nat := 0x70828
def ISL_CODE_HI : Nat := 0x7082c
def ISL_EVCNT : Nat := 0x70830
def ISL_Z32 : Nat := 0x70818
def ISL_Z63 : Nat := 0x7081c
def ISL_ZD : Nat := 0x70820
def ISL_ZQ : Nat := 0x70824
def ISL_PCFG : Nat := 0x70900
def ISL_UV0 : Nat := 0x70904
def ISL_UV1 : Nat := 0x70908
def ISL_OV0 : Nat := 0x7090c
def ISL_OV1 : Nat := 0x70910
def ISL_UF0 : Nat := 0x70914
def ISL_UF1 : Nat := 0x70918
def ISL_OF0 : Nat := 0x7091c
def ISL_OF1 : Nat := 0x70920
def ISL_ROCOF : Nat := 0x70924
def ISL_VS : Nat := 0x70928
def ISL_PSTAT : Nat := 0x7092c
def MET_STAT : Nat := 0x40000
def MET_CMD : Nat := 0x40004
def MET_SAVE : Nat := 0x40008
def HARM_SEL : Nat := 0x4000c
def HARM_STAT : Nat := 0x40010
def HARM_TIME : Nat := 0x40014
def PLS_CFG (i : Nat) : Nat := 0x40020 + 0x4 * i
def PLS_CONST (i : Nat) : Nat := 0x40040 + 0x4 * i
def PLS_STAT (i : Nat) : Nat := 0x40060 + 0x4 * i
def MP_W (i j : Nat) : Nat := 0x40100 + 0x100 * i + 0x4 * j
def MP_CTRL (i : Nat) : Nat := 0x4011c + 0x100 * i
def MP_STAT (i : Nat) : Nat := 0x40120 + 0x100 * i
def MP_WSEQ (i : Nat) : Nat := 0x40124 + 0x100 * i
def MP_WTIME (i : Nat) : Nat := 0x40128 + 0x100 * i
def MP_WRAP (i : Nat) : Nat := 0x4012c + 0x100 * i
def MP_TSEL (i : Nat) : Nat := 0x40170 + 0x100 * i
def MP_TOT_LO (i : Nat) : Nat := 0x40174 + 0x100 * i
def MP_TOT_HI (i : Nat) : Nat := 0x40178 + 0x100 * i
def MP_PF (i : Nat) : Nat := 0x4018c + 0x100 * i
def MP_WIN (i j : Nat) : Nat := 0x40130 + 0x100 * i + 0x4 * j
def MP_WLIVE (i j : Nat) : Nat := 0x40150 + 0x100 * i + 0x4 * j
def MP_P (i : Nat) : Nat := 0x40180 + 0x100 * i
def MP_Q (i : Nat) : Nat := 0x40184 + 0x100 * i
def MP_S (i : Nat) : Nat := 0x40188 + 0x100 * i
def HARM (i : Nat) : Nat := 0x48000 + 0x4 * i
def SUPRA (i : Nat) : Nat := 0x4a000 + 0x4 * i
def DFC_CFG : Nat := 0x20000
def DFC_STAT : Nat := 0x20004
def DFC_FIRST : Nat := 0x20008
def DFC_FIRST_TIME : Nat := 0x2000c
def DFC_LOG_STAT : Nat := 0x20010
def DFC_LOG_HEAD : Nat := 0x20014
def DFC_LOG_TIME : Nat := 0x20018
def DFC_LOG_CMD : Nat := 0x2001c
def DFC_RAIL : Nat := 0x20020
def DFC_ECC : Nat := 0x20024
def FC_LAST_SAFE : Nat := 0x20028
def DFC_PEND (i : Nat) : Nat := 0x20040 + 0x4 * i
def DFC_LEVEL (i : Nat) : Nat := 0x20060 + 0x4 * i
def DFC_BROKEN (i : Nat) : Nat := 0x20080 + 0x4 * i
def DFC_MAP (i : Nat) : Nat := 0x20200 + 0x4 * i
def DFC_ESC (i : Nat) : Nat := 0x20400 + 0x4 * i
def FC_CFG : Nat := 0x50000
def FC_STAT : Nat := 0x50004
def FC_FIRST : Nat := 0x50008
def FC_FIRST_TIME : Nat := 0x5000c
def FC_LOG_STAT : Nat := 0x50010
def FC_LOG_HEAD : Nat := 0x50014
def FC_LOG_TIME : Nat := 0x50018
def FC_LOG_CMD : Nat := 0x5001c
def FC_RAIL : Nat := 0x50020
def FC_ECC : Nat := 0x50024
def FC_PEND (i : Nat) : Nat := 0x50040 + 0x4 * i
def FC_LEVEL (i : Nat) : Nat := 0x50060 + 0x4 * i
def FC_BROKEN (i : Nat) : Nat := 0x50080 + 0x4 * i
def FC_MAP (i : Nat) : Nat := 0x50200 + 0x4 * i
def FC_ESC (i : Nat) : Nat := 0x50400 + 0x4 * i
def FC_ROUTE (i : Nat) : Nat := 0x50600 + 0x4 * i
def SAFE_STATE : Nat := 0x30000
def SAFE_SEAL : Nat := 0x30004
def SAFE_IN : Nat := 0x30008
def SAFE_OUT : Nat := 0x3000c
def SAFE_CAUSE : Nat := 0x30010
def SAFE_TRIP_TIME : Nat := 0x30014
def SAFE_EVCNT : Nat := 0x30018
def SAFE_TIMER : Nat := 0x3001c
def TIME_NS : Nat := 0x50000
def TIME_AUX : Nat := 0x50004
def TIME_INCR : Nat := 0x50008
def TIME_ADJ : Nat := 0x5000c
def TIME_CMD : Nat := 0x50010
def JUMP_MAX : Nat := 0x50014
def TIME_STAT : Nat := 0x50018
def TIME_SLEW_REM : Nat := 0x5001c
def TIME_LAST_STEP : Nat := 0x50020
def TIME_RAW_LO : Nat := 0x50024
def TIME_RAW_HI : Nat := 0x50028
def TIME_ADJ_HI : Nat := 0x5002c
def TIME_LAST_STEP_HI : Nat := 0x50030
def ETH_CFG (i : Nat) : Nat := 0x50100 + 0x100 * i
def ETH_MAC_LO (i : Nat) : Nat := 0x50104 + 0x100 * i
def ETH_MAC_HI (i : Nat) : Nat := 0x50108 + 0x100 * i
def ETH_STAT (i : Nat) : Nat := 0x5010c + 0x100 * i
def ETH_DELAY (i : Nat) : Nat := 0x50110 + 0x100 * i
def PTP_CFG (i : Nat) : Nat := 0x50114 + 0x100 * i
def LAUNCH_STAT (i : Nat) : Nat := 0x50120 + 0x100 * i
def FM_STAT (i : Nat) : Nat := 0x50124 + 0x100 * i
def ETH_CNT (i : Nat) : Nat := 0x50128 + 0x100 * i
def PTP_ID_HI (i : Nat) : Nat := 0x50118 + 0x100 * i
def PTP_ID_LO (i : Nat) : Nat := 0x5011c + 0x100 * i
def ETH_MCF_LO (i j : Nat) : Nat := 0x501c0 + 0x100 * i + 0x8 * j
def ETH_MCF_HI (i j : Nat) : Nat := 0x501c4 + 0x100 * i + 0x8 * j
def FM_W0 (i j : Nat) : Nat := 0x50140 + 0x100 * i + 0x20 * j
def FM_W1 (i j : Nat) : Nat := 0x50144 + 0x100 * i + 0x20 * j
def FM_W2 (i j : Nat) : Nat := 0x50148 + 0x100 * i + 0x20 * j
def FM_W3 (i j : Nat) : Nat := 0x5014c + 0x100 * i + 0x20 * j
def FM_W4 (i j : Nat) : Nat := 0x50150 + 0x100 * i + 0x20 * j
def FM_W5 (i j : Nat) : Nat := 0x50154 + 0x100 * i + 0x20 * j
def FM_W6 (i j : Nat) : Nat := 0x50158 + 0x100 * i + 0x20 * j
def FM_W7 (i j : Nat) : Nat := 0x5015c + 0x100 * i + 0x20 * j
def Q_BASE (i : Nat) : Nat := 0x60000 + 0x10 * i
def Q_CFG (i : Nat) : Nat := 0x60004 + 0x10 * i
def Q_PTR (i : Nat) : Nat := 0x60008 + 0x10 * i
def Q_STAT (i : Nat) : Nat := 0x6000c + 0x10 * i
def Q_PAGE : Nat := 0x60400
def HP_CFG (i : Nat) : Nat := 0x70000 + 0x100 * i
def HP_STAT (i : Nat) : Nat := 0x70004 + 0x100 * i
def HP_IRQ_EN (i : Nat) : Nat := 0x70008 + 0x100 * i
def HP_IRQ_STAT (i : Nat) : Nat := 0x7000c + 0x100 * i
def CAN_CFG (i : Nat) : Nat := 0x70400 + 0x100 * i
def CAN_NBT (i : Nat) : Nat := 0x70404 + 0x100 * i
def CAN_DBT (i : Nat) : Nat := 0x70408 + 0x100 * i
def CAN_CMD (i : Nat) : Nat := 0x7040c + 0x100 * i
def CAN_STAT (i : Nat) : Nat := 0x70410 + 0x100 * i
def CAN_FLT (i j : Nat) : Nat := 0x70440 + 0x100 * i + 0x8 * j
def CAN_MSK (i j : Nat) : Nat := 0x70444 + 0x100 * i + 0x8 * j
def UART_CFG (i : Nat) : Nat := 0x70600 + 0x100 * i
def UART_BAUD (i : Nat) : Nat := 0x70604 + 0x100 * i
def UART_STAT (i : Nat) : Nat := 0x70608 + 0x100 * i
def I2C_CFG (i : Nat) : Nat := 0x70800 + 0x100 * i
def I2C_CMD (i : Nat) : Nat := 0x70804 + 0x100 * i
def I2C_STAT (i : Nat) : Nat := 0x70818 + 0x100 * i
def I2C_WDATA (i j : Nat) : Nat := 0x70808 + 0x100 * i + 0x4 * j
def I2C_RDATA (i j : Nat) : Nat := 0x70810 + 0x100 * i + 0x4 * j
def DL_CFG (i : Nat) : Nat := 0x71000 + 0x100 * i
def DL_STAT (i : Nat) : Nat := 0x71004 + 0x100 * i
def DL_CMD (i : Nat) : Nat := 0x71008 + 0x100 * i
def DL_UP (i j : Nat) : Nat := 0x71010 + 0x100 * i + 0x4 * j
def DL_DOWN (i j : Nat) : Nat := 0x71020 + 0x100 * i + 0x4 * j
def DL_ID (i j : Nat) : Nat := 0x71040 + 0x100 * i + 0x4 * j
def BOOT_STAT : Nat := 0xa0000
def BOOT_CMD : Nat := 0xa0004
def TOKEN_PTR : Nat := 0xa0008
def TOKEN_STAT : Nat := 0xa000c
def RPT_STAT : Nat := 0xa0010
def HSS_LEAF : Nat := 0xa0014
def BOOT_COUNT : Nat := 0xa0018
def PB_REF_ADDR : Nat := 0xa001c
def UID (i : Nat) : Nat := 0xa0020 + 0x4 * i
def CHALLENGE (i : Nat) : Nat := 0xa0040 + 0x4 * i
def RPT_NONCE (i : Nat) : Nat := 0xa0060 + 0x4 * i
def ARB (i : Nat) : Nat := 0xa0080 + 0x4 * i
def COUCH_CMD (i : Nat) : Nat := 0xa0100 + 0x20 * i
def COUCH_AT_NS (i : Nat) : Nat := 0xa0104 + 0x20 * i
def COUCH_AT_WRAPS (i : Nat) : Nat := 0xa0108 + 0x20 * i
def COUCH_TOL (i : Nat) : Nat := 0xa010c + 0x20 * i
def COUCH_STAT (i : Nat) : Nat := 0xa0110 + 0x20 * i
def COUCH_TAKE (i : Nat) : Nat := 0xa0114 + 0x20 * i
def AUX_CFG : Nat := 0x80000
def AUX_VREG : Nat := 0x80004
def AUX_LOOP : Nat := 0x80008
def AUX_CUR : Nat := 0x8000c
def AUX_PROT : Nat := 0x80010
def AUX_UVCFG : Nat := 0x80014
def AUX_TCFG : Nat := 0x80018
def AUX_VSCALE : Nat := 0x8001c
def AUX_ISCALE : Nat := 0x80020
def AUX_CTRL : Nat := 0x80028
def AUX_CMD : Nat := 0x8002c
def AUX_STAT : Nat := 0x80030
def AUX_EVCNT : Nat := 0x80034
def AUX_TEMP : Nat := 0x8004c
def AUX_PK0 : Nat := 0x80050
def AUX_PK1 : Nat := 0x80054
def AUX_PK2 : Nat := 0x80058
def AUX_VOUT : Nat := 0x80040
def AUX_IOUT : Nat := 0x80044
def AUX_POUT : Nat := 0x80048
def KEEP_CFG : Nat := 0x90000
def KEEP_TH : Nat := 0x90004
def KEEP_STAT : Nat := 0x90008
def KEEP_VSTORE : Nat := 0x9000c
def KEEP_VHV : Nat := 0x90010
def KEEP_BURST : Nat := 0x90014
def KEEP_AVAIL : Nat := 0x90018
def KEEP_EVCNT : Nat := 0x9001c
def RTC_SEC : Nat := 0x90020
def RTC_SUB : Nat := 0x90024
def RTC_ALARM : Nat := 0x90028
def RTC_TRIM : Nat := 0x9002c
def TAMP_CFG : Nat := 0x90030
def TAMP_STAT : Nat := 0x90034
def TAMP_TIME : Nat := 0x90038
def LG_CFG : Nat := 0x90040
def LG_EBIT : Nat := 0x90044
def LG_STAT : Nat := 0x90048
def LG_DATA (i : Nat) : Nat := 0x90060 + 0x4 * i
def TEST_STAT : Nat := 0xb0000
def TMA_SEL (i : Nat) : Nat := 0xb0020 + 0x4 * i
def TMB_SEL (i : Nat) : Nat := 0xb0040 + 0x4 * i
def INJ_CFG : Nat := 0xb0080
def INJ_ADDR : Nat := 0xb0084
def INJ_CMD : Nat := 0xb0088
def INJ_STAT : Nat := 0xb008c
def INJ_TIME : Nat := 0xb0090

end Reg

namespace Fld

def DEV_ID_FAMILY : Field := ⟨31, 16⟩
def DEV_ID_PART : Field := ⟨15, 0⟩
def DEV_REV_SILICON : Field := ⟨15, 8⟩
def DEV_REV_METAL : Field := ⟨7, 0⟩
def DEV_STATE_PREV : Field := ⟨7, 4⟩
def DEV_STATE_STATE : Field := ⟨3, 0⟩
def SEC_STATES_SEC3 : Field := ⟨15, 12⟩
def SEC_STATES_SEC2 : Field := ⟨11, 8⟩
def SEC_STATES_SEC1 : Field := ⟨7, 4⟩
def SEC_STATES_SEC0 : Field := ⟨3, 0⟩
def SEC_CMD_KEY : Field := ⟨31, 16⟩
def SEC_CMD_STOP : Field := ⟨11, 8⟩
def SEC_CMD_ENABLE : Field := ⟨7, 4⟩
def SEC_CMD_START : Field := ⟨3, 0⟩
def CMD_STAT_CMD_REJ : Field := ⟨2, 2⟩
def CMD_STAT_BAD_KEY : Field := ⟨1, 1⟩
def CMD_STAT_CMD_IGN : Field := ⟨0, 0⟩
def BUS_ERR_STAT_VALID : Field := ⟨31, 31⟩
def BUS_ERR_STAT_WRITE : Field := ⟨30, 30⟩
def BUS_ERR_STAT_CAUSE : Field := ⟨29, 28⟩
def BUS_ERR_STAT_COUNT : Field := ⟨23, 16⟩
def BUS_ERR_ADDR_ADDR : Field := ⟨31, 0⟩
def PLATE_STAT_LOADED : Field := ⟨31, 31⟩
def PLATE_STAT_REASON : Field := ⟨27, 24⟩
def PLATE_STAT_REC_INDEX : Field := ⟨23, 8⟩
def PLATE_STAT_SKIPPED : Field := ⟨7, 0⟩
def PLATE_BUILD_BUILD_ID : Field := ⟨31, 0⟩
def PLATE_COMPAT_COMPAT : Field := ⟨31, 0⟩
def RWP_CLOSE_KEY : Field := ⟨31, 16⟩
def RWP_CLOSE_BASE : Field := ⟨4, 4⟩
def RWP_CLOSE_SEC : Field := ⟨3, 0⟩
def SEC_STATE_PREV : Field := ⟨7, 4⟩
def SEC_STATE_STATE : Field := ⟨3, 0⟩
def TICK_CFG_SRC : Field := ⟨31, 30⟩
def TICK_CFG_MASTER : Field := ⟨29, 28⟩
def TICK_CFG_TB_PERIOD : Field := ⟨19, 0⟩
def TICK_DEADLINE_DEADLINE : Field := ⟨19, 0⟩
def TRIG_CNT_COUNT : Field := ⟨31, 0⟩
def COMMIT_CNT_COUNT : Field := ⟨31, 0⟩
def TICK_STAT_OVERRUN : Field := ⟨31, 24⟩
def TICK_STAT_RECOMPUTE : Field := ⟨23, 16⟩
def TICK_STAT_STALE_TOTAL : Field := ⟨15, 8⟩
def TICK_LAST_COMMIT_CLK : Field := ⟨19, 0⟩
def TICK_PEAK_MAX_CLK : Field := ⟨19, 0⟩
def SHEET_STAT_LOADED : Field := ⟨31, 31⟩
def SHEET_STAT_ROM : Field := ⟨30, 30⟩
def SHEET_STAT_STOP_REQ : Field := ⟨29, 29⟩
def SHEET_STAT_PROOF_REJ : Field := ⟨28, 28⟩
def SHEET_STAT_REASON : Field := ⟨27, 24⟩
def SHEET_STAT_REC_INDEX : Field := ⟨23, 12⟩
def SHEET_STAT_SKIPPED : Field := ⟨11, 6⟩
def SHEET_STAT_IGNORED : Field := ⟨5, 0⟩
def SHEET_BUILD_BUILD_ID : Field := ⟨31, 0⟩
def PROG_BUILD_BUILD_ID : Field := ⟨31, 0⟩
def SHEET_REC_REC_INDEX : Field := ⟨15, 0⟩
def REF_CFG_AUTO_RETURN : Field := ⟨1, 1⟩
def REF_CFG_MODE : Field := ⟨0, 0⟩
def REF_STAT_RETURNING : Field := ⟨3, 3⟩
def REF_STAT_FALLBACK : Field := ⟨2, 2⟩
def REF_STAT_HOLDOVER : Field := ⟨1, 1⟩
def REF_STAT_REF_OK : Field := ⟨0, 0⟩
def HOLDOVER_T_MS : Field := ⟨15, 0⟩
def DOM_EN_MET_EN : Field := ⟨0, 0⟩
def REF_CMD_KEY : Field := ⟨31, 16⟩
def REF_CMD_RETURN : Field := ⟨0, 0⟩
def CLKO_CFG_EN : Field := ⟨31, 31⟩
def CLKO_CFG_FORMAT : Field := ⟨30, 28⟩
def CLKO_CFG_SRC : Field := ⟨27, 24⟩
def CLKO_CFG_DIV : Field := ⟨9, 0⟩
def PLL_CTRL_EN : Field := ⟨0, 0⟩
def PLL_FREQ_N_INT : Field := ⟨31, 24⟩
def PLL_FREQ_FRAC : Field := ⟨23, 0⟩
def PLL_DIV_OUT1 : Field := ⟨15, 8⟩
def PLL_DIV_OUT0 : Field := ⟨7, 0⟩
def PLL_SS_EN : Field := ⟨31, 31⟩
def PLL_SS_CENTRE : Field := ⟨30, 30⟩
def PLL_SS_DEPTH : Field := ⟨20, 16⟩
def PLL_SS_RATE : Field := ⟨11, 0⟩
def PLL_PHASE_STEPS : Field := ⟨15, 0⟩
def PLL_STAT_PH_REMAIN : Field := ⟨31, 16⟩
def PLL_STAT_NO_BAND : Field := ⟨7, 7⟩
def PLL_STAT_PH_REF : Field := ⟨6, 6⟩
def PLL_STAT_SS_REF : Field := ⟨5, 5⟩
def PLL_STAT_FREQ_REF : Field := ⟨4, 4⟩
def PLL_STAT_LOST : Field := ⟨3, 3⟩
def PLL_STAT_PH_BUSY : Field := ⟨2, 2⟩
def PLL_STAT_SETTLING : Field := ⟨1, 1⟩
def PLL_STAT_LOCK : Field := ⟨0, 0⟩
def BAND_VALID : Field := ⟨31, 31⟩
def BAND_BAND : Field := ⟨29, 24⟩
def BAND_F_HI : Field := ⟨19, 10⟩
def BAND_F_LO : Field := ⟨9, 0⟩
def ADC_STAT_CFG_REF : Field := ⟨12, 12⟩
def ADC_STAT_RUNNING : Field := ⟨11, 0⟩
def ADC_SAT_SAT : Field := ⟨11, 0⟩
def ACC_ARM0_ARM : Field := ⟨31, 0⟩
def ACC_ARM1_ARM : Field := ⟨15, 0⟩
def ADC_CFG_CALV : Field := ⟨5, 4⟩
def ADC_CFG_ALT : Field := ⟨3, 3⟩
def ADC_CFG_SEL : Field := ⟨2, 2⟩
def ADC_CFG_LP : Field := ⟨1, 1⟩
def ADC_CFG_ADC_RUN : Field := ⟨0, 0⟩
def ADC_CAL_OVR : Field := ⟨31, 31⟩
def ADC_CAL_OFFSET : Field := ⟨27, 16⟩
def ADC_CAL_GAIN : Field := ⟨15, 0⟩
def ADC_FUSE_OFFSET : Field := ⟨27, 16⟩
def ADC_FUSE_GAIN : Field := ⟨15, 0⟩
def ACC_CFG_ARM : Field := ⟨31, 31⟩
def ACC_CFG_MODE : Field := ⟨30, 29⟩
def ACC_CFG_CONTIG : Field := ⟨28, 28⟩
def ACC_CFG_STOP_SKIP : Field := ⟨27, 24⟩
def ACC_CFG_STOP_LEG : Field := ⟨19, 18⟩
def ACC_CFG_STOP_EV : Field := ⟨17, 16⟩
def ACC_CFG_START_LEG : Field := ⟨11, 10⟩
def ACC_CFG_START_EV : Field := ⟨9, 8⟩
def ACC_PARAM_PARAM : Field := ⟨31, 0⟩
def ACC_T0_T0 : Field := ⟨31, 0⟩
def ACC_STAT_VALID : Field := ⟨31, 31⟩
def ACC_STAT_EMPTY : Field := ⟨30, 30⟩
def ACC_STAT_FORCED : Field := ⟨29, 29⟩
def ACC_STAT_CHG : Field := ⟨28, 28⟩
def ACC_STAT_SAT : Field := ⟨27, 27⟩
def ACC_STAT_TIMEINV : Field := ⟨26, 26⟩
def ACC_STAT_SEQ : Field := ⟨23, 16⟩
def ACC_STAT_COUNT : Field := ⟨15, 0⟩
def ACC_SUM_SUM : Field := ⟨31, 0⟩
def ACC_MINMAX_MIN : Field := ⟨29, 16⟩
def ACC_MINMAX_MAX : Field := ⟨13, 0⟩
def ACC_TSTAMP_TSTAMP : Field := ⟨31, 0⟩
def PWM_COMMIT_IMM : Field := ⟨7, 4⟩
def PWM_COMMIT_LEGS : Field := ⟨3, 0⟩
def ALIGN_CFG_EN : Field := ⟨31, 31⟩
def ALIGN_CFG_AUTO : Field := ⟨30, 30⟩
def ALIGN_CFG_TOL : Field := ⟨23, 16⟩
def ALIGN_CFG_MAXSTEP : Field := ⟨14, 0⟩
def ALIGN_M_M : Field := ⟨15, 0⟩
def ALIGN_SPAN_SPAN : Field := ⟨31, 0⟩
def ALIGN_T0_T0 : Field := ⟨31, 0⟩
def ALIGN_OFFSET_OFFSET : Field := ⟨31, 0⟩
def ALIGN_ERR_ERR : Field := ⟨31, 0⟩
def ALIGN_RATE_RATE : Field := ⟨31, 0⟩
def ALIGN_STAT_SUSP : Field := ⟨7, 4⟩
def ALIGN_STAT_CFG_REF : Field := ⟨3, 3⟩
def ALIGN_STAT_T0_REF : Field := ⟨2, 2⟩
def ALIGN_STAT_LOCKED : Field := ⟨1, 1⟩
def ALIGN_STAT_MEAS : Field := ⟨0, 0⟩
def CAR_CFG_MODE : Field := ⟨31, 30⟩
def CAR_CFG_PRESC : Field := ⟨29, 28⟩
def CAR_CFG_RELOAD : Field := ⟨27, 26⟩
def CAR_CFG_RATIO : Field := ⟨25, 25⟩
def CAR_CFG_IMM_EN : Field := ⟨24, 24⟩
def CAR_CFG_DIRECT_EN : Field := ⟨23, 23⟩
def CAR_CFG_OWNER : Field := ⟨22, 22⟩
def CAR_CFG_SYNC : Field := ⟨21, 21⟩
def CAR_CFG_SYNC_DIR : Field := ⟨20, 20⟩
def CAR_CFG_PHS : Field := ⟨15, 0⟩
def LEG_LIM_DMAX : Field := ⟨31, 16⟩
def LEG_LIM_PRD_MIN : Field := ⟨15, 0⟩
def SW_MAP_MAP : Field := ⟨23, 0⟩
def TRIP_SRC_SRC : Field := ⟨15, 0⟩
def TRIP_LEN_LEN : Field := ⟨31, 0⟩
def VP_SRC_EN : Field := ⟨4, 4⟩
def VP_SRC_CMP : Field := ⟨3, 3⟩
def VP_SRC_MON : Field := ⟨2, 0⟩
def SH_PRD_PRD : Field := ⟨15, 0⟩
def SH_CMP_CMP : Field := ⟨22, 0⟩
def SH_FORCE_VECTOR : Field := ⟨21, 16⟩
def SH_FORCE_DIRECT : Field := ⟨8, 8⟩
def SH_FORCE_LEVEL : Field := ⟨5, 0⟩
def SH_DT_DT_ON_Sm : Field := ⟨31, 16⟩
def SH_DT_DT_ON_Sn : Field := ⟨15, 0⟩
def ACT_PRD_PRD : Field := ⟨15, 0⟩
def ACT_CMP_CMP : Field := ⟨22, 0⟩
def ACT_FORCE_VECTOR : Field := ⟨21, 16⟩
def ACT_FORCE_DIRECT : Field := ⟨8, 8⟩
def ACT_FORCE_LEVEL : Field := ⟨5, 0⟩
def ACT_DT_DT_ON_Sm : Field := ⟨31, 16⟩
def ACT_DT_DT_ON_Sn : Field := ⟨15, 0⟩
def LEG_CNT_DIR : Field := ⟨16, 16⟩
def LEG_CNT_COUNT : Field := ⟨15, 0⟩
def LEG_PERIOD_COMMIT_PERIOD : Field := ⟨31, 16⟩
def LEG_PERIOD_PERIOD_CNT : Field := ⟨15, 0⟩
def LEG_STAT_PRD_LOW : Field := ⟨10, 10⟩
def LEG_STAT_CFG_REF : Field := ⟨9, 9⟩
def LEG_STAT_OWNER_IGN : Field := ⟨8, 8⟩
def LEG_STAT_DIRECT_REF : Field := ⟨7, 7⟩
def LEG_STAT_IMM_IGN : Field := ⟨6, 6⟩
def LEG_STAT_DUTY_CLIP : Field := ⟨5, 5⟩
def LEG_STAT_SUPERSEDED : Field := ⟨4, 4⟩
def LEG_STAT_DEFERRED : Field := ⟨3, 3⟩
def LEG_STAT_VP_MAX : Field := ⟨2, 2⟩
def LEG_STAT_VP_MIN : Field := ⟨1, 1⟩
def LEG_EVCNT_LATE_EDGE : Field := ⟨15, 8⟩
def LEG_EVCNT_ABSORBED : Field := ⟨7, 0⟩
def FORCE_CMD_SET : Field := ⟨1, 1⟩
def FORCE_CMD_CLR : Field := ⟨0, 0⟩
def FORCE_STAT_CLR_REF : Field := ⟨6, 6⟩
def FORCE_STAT_BY_SCOPE : Field := ⟨5, 5⟩
def FORCE_STAT_BY_SW : Field := ⟨4, 4⟩
def FORCE_STAT_BY_TRIP : Field := ⟨3, 0⟩
def FORCE_STAT_FORCED_BITS : Field := ⟨5, 0⟩
def LEG_W_WORD : Field := ⟨31, 0⟩
def GATE_VEC_BALL : Field := ⟨29, 24⟩
def GATE_VEC_HELD : Field := ⟨21, 16⟩
def GATE_VEC_OUT : Field := ⟨13, 8⟩
def GATE_VEC_REQ : Field := ⟨5, 0⟩
def GATE_STAT_BS_BUSY : Field := ⟨3, 3⟩
def GATE_STAT_PRECHG_PEND : Field := ⟨2, 2⟩
def GATE_STAT_SHOOT : Field := ⟨1, 1⟩
def GATE_STAT_STATE_REJ : Field := ⟨0, 0⟩
def GATE_EVCNT_SHOOT_CNT : Field := ⟨31, 24⟩
def GATE_EVCNT_REJ_CNT : Field := ⟨23, 16⟩
def GATE_EVCNT_FLOOR_ABS : Field := ⟨15, 8⟩
def GATE_EVCNT_DT_CLAMP : Field := ⟨7, 0⟩
def BS_EVCNT_TRAINS : Field := ⟨15, 8⟩
def BS_EVCNT_REFRESH : Field := ⟨7, 0⟩
def PROT_STAT_LATCH : Field := ⟨31, 31⟩
def PROT_STAT_STEP : Field := ⟨30, 29⟩
def PROT_STAT_BACKUP : Field := ⟨28, 28⟩
def PROT_STAT_NOT_READY : Field := ⟨27, 27⟩
def PROT_STAT_TEST_HOLD : Field := ⟨26, 26⟩
def PROT_STAT_CLR_REF : Field := ⟨25, 25⟩
def PROT_STAT_BY_SCOPE : Field := ⟨11, 11⟩
def PROT_STAT_OC2 : Field := ⟨9, 9⟩
def PROT_STAT_OC1 : Field := ⟨8, 8⟩
def PROT_STAT_FLT : Field := ⟨5, 0⟩
def PROT_CMD_CLR : Field := ⟨0, 0⟩
def SELFTEST_FAILMAP : Field := ⟨15, 8⟩
def SELFTEST_REF : Field := ⟨4, 4⟩
def SELFTEST_PASS : Field := ⟨3, 3⟩
def SELFTEST_DONE : Field := ⟨2, 2⟩
def SELFTEST_BUSY : Field := ⟨1, 1⟩
def SELFTEST_START : Field := ⟨0, 0⟩
def WM_LATCH_OUT : Field := ⟨15, 8⟩
def WM_LATCH_LATCH : Field := ⟨7, 0⟩
def CMP_STAT_CFG_REF : Field := ⟨0, 0⟩
def OC_TH_OC2_TH : Field := ⟨25, 16⟩
def OC_TH_OC1_TH : Field := ⟨9, 0⟩
def OC_CFG_HYST2 : Field := ⟨28, 24⟩
def OC_CFG_HYST1 : Field := ⟨20, 16⟩
def OC_CFG_ASSUME2 : Field := ⟨13, 13⟩
def OC_CFG_ASSUME1 : Field := ⟨12, 12⟩
def OC_CFG_STEP2_INNER : Field := ⟨11, 8⟩
def OC_CFG_FLT_EN : Field := ⟨5, 0⟩
def OC_LIVE_FLT : Field := ⟨13, 8⟩
def OC_LIVE_OC2 : Field := ⟨1, 1⟩
def OC_LIVE_OC1 : Field := ⟨0, 0⟩
def WM_TH_TH_HI : Field := ⟨25, 16⟩
def WM_TH_TH_LO : Field := ⟨9, 0⟩
def WM_CFG_DIG : Field := ⟨31, 31⟩
def WM_CFG_USE : Field := ⟨30, 29⟩
def WM_CFG_AUTO_CLR : Field := ⟨28, 28⟩
def WM_CFG_CLR_LEG : Field := ⟨27, 26⟩
def WM_CFG_ASSUME_HI : Field := ⟨25, 25⟩
def WM_CFG_ASSUME_LO : Field := ⟨24, 24⟩
def WM_CFG_HYST : Field := ⟨20, 16⟩
def WM_CFG_N : Field := ⟨15, 12⟩
def WM_CFG_K : Field := ⟨11, 8⟩
def WM_CFG_DIV : Field := ⟨7, 0⟩
def WM_LIVE_FILT_HI : Field := ⟨3, 3⟩
def WM_LIVE_FILT_LO : Field := ⟨2, 2⟩
def WM_LIVE_CMP_HI : Field := ⟨1, 1⟩
def WM_LIVE_CMP_LO : Field := ⟨0, 0⟩
def ENG_CFG_N_STALE : Field := ⟨3, 0⟩
def ENG_STAT_MODE : Field := ⟨31, 30⟩
def ENG_STAT_CFG_REF : Field := ⟨29, 29⟩
def ENG_STAT_RUNNING : Field := ⟨28, 28⟩
def ENG_STAT_CTX : Field := ⟨27, 26⟩
def ENG_STAT_TRIG_DELTA : Field := ⟨23, 16⟩
def ENG_STAT_STALE_RUN : Field := ⟨7, 0⟩
def ENG_EVCNT_MISMATCH : Field := ⟨31, 24⟩
def ENG_EVCNT_PROG_FLT : Field := ⟨23, 16⟩
def ENG_EVCNT_REPAIR : Field := ⟨15, 8⟩
def ENG_EVCNT_ECC_CE : Field := ⟨7, 0⟩
def SAT_STICKY_ANY : Field := ⟨31, 31⟩
def SAT_STICKY_LUT : Field := ⟨8, 8⟩
def SAT_STICKY_ACC : Field := ⟨7, 7⟩
def SAT_STICKY_PROF : Field := ⟨6, 6⟩
def SAT_STICKY_OUT : Field := ⟨5, 5⟩
def SAT_STICKY_DUTY : Field := ⟨4, 4⟩
def SAT_STICKY_REG : Field := ⟨3, 0⟩
def PROG_FAULT_VALID : Field := ⟨31, 31⟩
def PROG_FAULT_CAUSE : Field := ⟨27, 24⟩
def PROG_FAULT_CTX : Field := ⟨17, 16⟩
def PROG_FAULT_ADDR : Field := ⟨10, 0⟩
def ECC_STAT_UE_A : Field := ⟨31, 31⟩
def ECC_STAT_UE_B : Field := ⟨30, 30⟩
def ECC_STAT_NOREPAIR : Field := ⟨29, 29⟩
def ECC_STAT_MEM : Field := ⟨27, 26⟩
def ECC_STAT_ADDR : Field := ⟨11, 0⟩
def ENG_LAYOUT_LAYOUT_ID : Field := ⟨31, 0⟩
def PARAM_COMMIT_GO : Field := ⟨0, 0⟩
def ENG_OUT_SEQ_SEQ : Field := ⟨15, 0⟩
def HOST_PARAM_VALUE : Field := ⟨31, 0⟩
def ENG_OUT_VALUE : Field := ⟨31, 0⟩
def PROF_TGT_TGT : Field := ⟨31, 0⟩
def PROF_Y_Y : Field := ⟨31, 0⟩
def PROF_V_V : Field := ⟨31, 0⟩
def PROF_STAT_A_LIM : Field := ⟨2, 2⟩
def PROF_STAT_V_LIM : Field := ⟨1, 1⟩
def PROF_STAT_AT_TGT : Field := ⟨0, 0⟩
def WREG_VALUE : Field := ⟨31, 0⟩
def LUT_SEL_SEL : Field := ⟨23, 0⟩
def COEF_VALUE : Field := ⟨31, 0⟩
def LUTP_VALUE : Field := ⟨31, 0⟩
def PROG_INSTR : Field := ⟨31, 0⟩
def GRID_CFG_EN : Field := ⟨31, 31⟩
def GRID_CFG_F60 : Field := ⟨24, 24⟩
def GRID_CFG_VC_ACC : Field := ⟨21, 16⟩
def GRID_CFG_VB_ACC : Field := ⟨13, 8⟩
def GRID_CFG_VA_ACC : Field := ⟨5, 0⟩
def GRID_VSCALE_VSCALE : Field := ⟨31, 0⟩
def GRID_H_H : Field := ⟨31, 0⟩
def GRID_BW_BW : Field := ⟨22, 16⟩
def GRID_BW_PJ_TH : Field := ⟨15, 0⟩
def GRID_VLIM_RES_TH : Field := ⟨31, 16⟩
def GRID_VLIM_V_HOLD : Field := ⟨15, 0⟩
def GRID_HOLD_HOLD_MAX : Field := ⟨15, 0⟩
def DERATE_STEP_STEP : Field := ⟨31, 0⟩
def GRID_STAT_CFG_REF : Field := ⟨8, 8⟩
def GRID_STAT_QUAL : Field := ⟨5, 4⟩
def GRID_STAT_VALID : Field := ⟨2, 2⟩
def GRID_STAT_MODE : Field := ⟨1, 0⟩
def GRID_EVCNT_PJ_CNT : Field := ⟨31, 24⟩
def GRID_EVCNT_LOST_CNT : Field := ⟨23, 16⟩
def GRID_EVCNT_HOLD_CNT : Field := ⟨15, 8⟩
def GRID_ANGLE_THETA : Field := ⟨31, 0⟩
def GRID_FREQ_VALUE : Field := ⟨31, 0⟩
def GRID_ROCOF_VALUE : Field := ⟨31, 0⟩
def GRID_VPOS_VALUE : Field := ⟨31, 0⟩
def GRID_VNEG_VALUE : Field := ⟨31, 0⟩
def GRID_RES_VALUE : Field := ⟨31, 0⟩
def BR_CFG_GRID : Field := ⟨31, 31⟩
def BR_CFG_GFM : Field := ⟨30, 30⟩
def BR_CFG_RIDE_EN : Field := ⟨29, 29⟩
def BR_CFG_USE_MAIN : Field := ⟨28, 28⟩
def BR_CFG_USE_DC : Field := ⟨27, 27⟩
def BR_CFG_USE_PRE : Field := ⟨26, 26⟩
def BR_CFG_IPRE_EN : Field := ⟨25, 25⟩
def BR_CFG_CHECK_EN : Field := ⟨24, 24⟩
def BR_CFG_IPRE_ACC : Field := ⟨13, 8⟩
def BR_CFG_VDC_ACC : Field := ⟨5, 0⟩
def BR_ISRC_IC_ACC : Field := ⟨21, 16⟩
def BR_ISRC_IB_ACC : Field := ⟨13, 8⟩
def BR_ISRC_IA_ACC : Field := ⟨5, 0⟩
def BR_ISCALE_SCALE : Field := ⟨31, 0⟩
def BR_VDCSCALE_SCALE : Field := ⟨31, 0⟩
def BR_PRE_PRE_I : Field := ⟨31, 16⟩
def BR_PRE_PRE_V : Field := ⟨15, 0⟩
def BR_TIME0_CONN_T : Field := ⟨31, 16⟩
def BR_TIME0_PRE_T : Field := ⟨15, 0⟩
def BR_TIME1_STOP_T : Field := ⟨31, 16⟩
def BR_TIME1_SYNC_T : Field := ⟨15, 0⟩
def BR_RIDE0_LV_EXIT : Field := ⟨31, 16⟩
def BR_RIDE0_LV_ENTER : Field := ⟨15, 0⟩
def BR_RIDE1_HV_EXIT : Field := ⟨31, 16⟩
def BR_RIDE1_HV_ENTER : Field := ⟨15, 0⟩
def BR_RIDE2_HV_T : Field := ⟨31, 16⟩
def BR_RIDE2_HV_MAX : Field := ⟨15, 0⟩
def BR_RIDEX_THERM_T : Field := ⟨31, 16⟩
def BR_RIDEX_RIDE_HOLD : Field := ⟨15, 0⟩
def BR_CHK_SUM_N : Field := ⟨31, 24⟩
def BR_CHK_RIP_N : Field := ⟨23, 16⟩
def BR_CHK_RIP_MIN : Field := ⟨13, 0⟩
def BR_PO_PO_IMIN : Field := ⟨31, 16⟩
def BR_PO_PO_ZERO : Field := ⟨15, 8⟩
def BR_PO_PO_RATIO : Field := ⟨7, 0⟩
def BR_PO2_SUM_TH : Field := ⟨31, 16⟩
def BR_PO2_PO_CYC : Field := ⟨15, 8⟩
def BR_PO2_STOP_I : Field := ⟨7, 0⟩
def BR_MPPT0_VMAX : Field := ⟨31, 16⟩
def BR_MPPT0_MPPT_V0 : Field := ⟨15, 0⟩
def BR_MPPT1_STEP : Field := ⟨31, 16⟩
def BR_MPPT1_VMIN : Field := ⟨15, 0⟩
def BR_MPPT2_MPPT_EN : Field := ⟨31, 31⟩
def BR_MPPT2_I_ACC : Field := ⟨29, 24⟩
def BR_MPPT2_V_ACC : Field := ⟨21, 16⟩
def BR_MPPT2_PER : Field := ⟨15, 0⟩
def BR_MPPT3_DI_EPS : Field := ⟨31, 16⟩
def BR_MPPT3_DV_EPS : Field := ⟨15, 0⟩
def BR_CMD_KEY : Field := ⟨31, 16⟩
def BR_CMD_LOCK : Field := ⟨3, 3⟩
def BR_CMD_RESET : Field := ⟨2, 2⟩
def BR_CMD_STOP : Field := ⟨1, 1⟩
def BR_CMD_START : Field := ⟨0, 0⟩
def BR_CTRL_MPPT_HOLD : Field := ⟨0, 0⟩
def BR_STAT_CFG_REF : Field := ⟨26, 26⟩
def BR_STAT_CMD_REJ : Field := ⟨25, 25⟩
def BR_STAT_CMD_IGN : Field := ⟨24, 24⟩
def BR_STAT_MPPT : Field := ⟨22, 20⟩
def BR_STAT_THERM_OK : Field := ⟨19, 19⟩
def BR_STAT_FAILED : Field := ⟨18, 16⟩
def BR_STAT_SO_REQ : Field := ⟨14, 12⟩
def BR_STAT_REASON : Field := ⟨11, 8⟩
def BR_STAT_PREV : Field := ⟨7, 4⟩
def BR_STAT_STATE : Field := ⟨3, 0⟩
def BR_EVCNT_RIDE_CNT : Field := ⟨31, 24⟩
def BR_EVCNT_SAFE_CNT : Field := ⟨23, 16⟩
def BR_EVCNT_CUR_FLT : Field := ⟨15, 8⟩
def BR_EVCNT_MPPT_LIM : Field := ⟨7, 0⟩
def BR_LVSEG_TMAX : Field := ⟨31, 16⟩
def BR_LVSEG_VTH : Field := ⟨15, 0⟩
def BR_MPPT_ISC_SCALE : Field := ⟨31, 0⟩
def BR_MPPT_VSC_SCALE : Field := ⟨31, 0⟩
def BR_P_VALUE : Field := ⟨31, 0⟩
def BR_Q_VALUE : Field := ⟨31, 0⟩
def BR_VDC_VALUE : Field := ⟨31, 0⟩
def BR_MPPT_V_VALUE : Field := ⟨31, 0⟩
def BR_TMAX_VALUE : Field := ⟨31, 0⟩
def ISL_CFG_HOLD : Field := ⟨31, 31⟩
def ISL_CFG_CONF : Field := ⟨15, 8⟩
def ISL_INFO_PRESENT : Field := ⟨31, 31⟩
def ISL_INFO_SRC : Field := ⟨27, 26⟩
def ISL_INFO_ANGLE_SEC : Field := ⟨25, 24⟩
def ISL_INFO_AMPL : Field := ⟨23, 16⟩
def ISL_INFO_CODE : Field := ⟨6, 0⟩
def ISL_THRESH_THRESHOLD : Field := ⟨31, 0⟩
def ISL_T0_T0 : Field := ⟨31, 0⟩
def ISL_STAT_FILL : Field := ⟨14, 8⟩
def ISL_STAT_T0_REF : Field := ⟨7, 7⟩
def ISL_STAT_CFG_REF : Field := ⟨6, 6⟩
def ISL_STAT_JUMP : Field := ⟨5, 5⟩
def ISL_STAT_FREE : Field := ⟨4, 4⟩
def ISL_STAT_ALIGNED : Field := ⟨3, 3⟩
def ISL_STAT_VERDICT : Field := ⟨2, 2⟩
def ISL_STAT_Z63_VALID : Field := ⟨1, 1⟩
def ISL_STAT_ACT_VALID : Field := ⟨0, 0⟩
def ISL_CHIP_K : Field := ⟨6, 1⟩
def ISL_CHIP_B : Field := ⟨0, 0⟩
def ISL_CODE_LO_BITS : Field := ⟨31, 0⟩
def ISL_CODE_HI_BITS : Field := ⟨30, 0⟩
def ISL_EVCNT_VERDICTS : Field := ⟨31, 24⟩
def ISL_EVCNT_EXCL : Field := ⟨23, 16⟩
def ISL_EVCNT_RESTART : Field := ⟨15, 8⟩
def ISL_Z32_VALUE : Field := ⟨31, 0⟩
def ISL_Z63_VALUE : Field := ⟨31, 0⟩
def ISL_ZD_VALUE : Field := ⟨31, 0⟩
def ISL_ZQ_VALUE : Field := ⟨31, 0⟩
def ISL_PCFG_EN : Field := ⟨5, 0⟩
def ISL_UV0_T : Field := ⟨31, 16⟩
def ISL_UV0_TH : Field := ⟨15, 0⟩
def ISL_UV1_T : Field := ⟨31, 16⟩
def ISL_UV1_TH : Field := ⟨15, 0⟩
def ISL_OV0_T : Field := ⟨31, 16⟩
def ISL_OV0_TH : Field := ⟨15, 0⟩
def ISL_OV1_T : Field := ⟨31, 16⟩
def ISL_OV1_TH : Field := ⟨15, 0⟩
def ISL_UF0_T : Field := ⟨31, 16⟩
def ISL_UF0_TH : Field := ⟨15, 0⟩
def ISL_UF1_T : Field := ⟨31, 16⟩
def ISL_UF1_TH : Field := ⟨15, 0⟩
def ISL_OF0_T : Field := ⟨31, 16⟩
def ISL_OF0_TH : Field := ⟨15, 0⟩
def ISL_OF1_T : Field := ⟨31, 16⟩
def ISL_OF1_TH : Field := ⟨15, 0⟩
def ISL_ROCOF_T : Field := ⟨31, 16⟩
def ISL_ROCOF_TH : Field := ⟨15, 0⟩
def ISL_VS_VS_TH : Field := ⟨15, 0⟩
def ISL_PSTAT_CFG_REF : Field := ⟨14, 14⟩
def ISL_PSTAT_TRIP : Field := ⟨13, 8⟩
def ISL_PSTAT_ARMED : Field := ⟨6, 6⟩
def ISL_PSTAT_ACTIVE : Field := ⟨5, 0⟩
def MET_STAT_CMD_REF : Field := ⟨12, 12⟩
def MET_STAT_CFG_REF : Field := ⟨11, 11⟩
def MET_STAT_SAVE_ERR : Field := ⟨10, 10⟩
def MET_STAT_RESTORE : Field := ⟨9, 8⟩
def MET_STAT_ANGLE_SRC_CHG : Field := ⟨7, 0⟩
def MET_CMD_KEY : Field := ⟨31, 16⟩
def MET_CMD_SAVE : Field := ⟨1, 1⟩
def MET_CMD_CLR_TOTALS : Field := ⟨0, 0⟩
def MET_SAVE_SEQ : Field := ⟨31, 0⟩
def HARM_SEL_POINT : Field := ⟨2, 0⟩
def HARM_STAT_BUSY : Field := ⟨31, 31⟩
def HARM_STAT_VALID : Field := ⟨30, 30⟩
def HARM_STAT_FREE : Field := ⟨29, 29⟩
def HARM_STAT_SAT : Field := ⟨28, 28⟩
def HARM_STAT_SEQ : Field := ⟨15, 0⟩
def HARM_TIME_T : Field := ⟨31, 0⟩
def PLS_CFG_EN : Field := ⟨31, 31⟩
def PLS_CFG_POL : Field := ⟨30, 30⟩
def PLS_CFG_POINT : Field := ⟨26, 24⟩
def PLS_CFG_WIDTH : Field := ⟨23, 16⟩
def PLS_CFG_MINPER : Field := ⟨15, 8⟩
def PLS_CFG_QSEL : Field := ⟨6, 0⟩
def PLS_CONST_CONST : Field := ⟨31, 0⟩
def PLS_STAT_COUNT : Field := ⟨31, 16⟩
def PLS_STAT_LOST : Field := ⟨15, 8⟩
def PLS_STAT_PENDING : Field := ⟨7, 0⟩
def MP_W_WORD : Field := ⟨31, 0⟩
def MP_CTRL_REF : Field := ⟨0, 0⟩
def MP_STAT_ON : Field := ⟨31, 31⟩
def MP_STAT_RUN : Field := ⟨30, 30⟩
def MP_STAT_FREE : Field := ⟨29, 29⟩
def MP_STAT_SRC : Field := ⟨28, 27⟩
def MP_STAT_PARTIAL : Field := ⟨26, 26⟩
def MP_STAT_WINDOW_WRAP : Field := ⟨25, 25⟩
def MP_STAT_SAT : Field := ⟨24, 24⟩
def MP_WSEQ_SEQ : Field := ⟨31, 0⟩
def MP_WTIME_T : Field := ⟨31, 0⟩
def MP_WRAP_TALLY : Field := ⟨27, 0⟩
def MP_TSEL_QSEL : Field := ⟨6, 0⟩
def MP_TOT_LO_LO : Field := ⟨31, 0⟩
def MP_TOT_HI_HI : Field := ⟨31, 0⟩
def MP_PF_PF : Field := ⟨15, 0⟩
def MP_WIN_COUNT : Field := ⟨31, 0⟩
def MP_WLIVE_COUNT : Field := ⟨31, 0⟩
def MP_P_VALUE : Field := ⟨31, 0⟩
def MP_Q_VALUE : Field := ⟨31, 0⟩
def MP_S_VALUE : Field := ⟨31, 0⟩
def HARM_DATA : Field := ⟨31, 0⟩
def SUPRA_DATA : Field := ⟨31, 0⟩
def FC_LAST_SAFE_CAUSE : Field := ⟨31, 30⟩
def FC_LAST_SAFE_SRC : Field := ⟨9, 0⟩
def FC_CFG_STICKY : Field := ⟨3, 3⟩
def FC_CFG_CAP_MIN : Field := ⟨2, 0⟩
def FC_STAT_EVT_CNT : Field := ⟨31, 24⟩
def FC_STAT_MAX_ACTIVE : Field := ⟨10, 8⟩
def FC_STAT_DERATE : Field := ⟨2, 2⟩
def FC_STAT_IRQ : Field := ⟨1, 1⟩
def FC_FIRST_VALID : Field := ⟨31, 31⟩
def FC_FIRST_OVERFLOW : Field := ⟨30, 30⟩
def FC_FIRST_INJ : Field := ⟨29, 29⟩
def FC_FIRST_BROKEN : Field := ⟨28, 28⟩
def FC_FIRST_SEV : Field := ⟨27, 25⟩
def FC_FIRST_ESC : Field := ⟨24, 24⟩
def FC_FIRST_TIMEINV : Field := ⟨23, 23⟩
def FC_FIRST_SRC : Field := ⟨9, 0⟩
def FC_FIRST_TIME_T : Field := ⟨31, 0⟩
def FC_LOG_STAT_LOST : Field := ⟨15, 8⟩
def FC_LOG_STAT_FILL : Field := ⟨5, 0⟩
def FC_LOG_HEAD_VALID : Field := ⟨31, 31⟩
def FC_LOG_HEAD_INJ : Field := ⟨30, 30⟩
def FC_LOG_HEAD_BROKEN : Field := ⟨29, 29⟩
def FC_LOG_HEAD_ESC : Field := ⟨28, 28⟩
def FC_LOG_HEAD_SEV : Field := ⟨27, 25⟩
def FC_LOG_HEAD_TIMEINV : Field := ⟨24, 24⟩
def FC_LOG_HEAD_SRC : Field := ⟨9, 0⟩
def FC_LOG_TIME_T : Field := ⟨31, 0⟩
def FC_LOG_CMD_POP : Field := ⟨0, 0⟩
def FC_RAIL_VALID : Field := ⟨31, 31⟩
def FC_RAIL_BOTH1 : Field := ⟨30, 30⟩
def FC_RAIL_SRC : Field := ⟨9, 0⟩
def FC_ECC_CE_CNT : Field := ⟨31, 24⟩
def FC_PEND_PEND : Field := ⟨31, 0⟩
def FC_LEVEL_LEVEL : Field := ⟨31, 0⟩
def FC_BROKEN_BROKEN : Field := ⟨31, 0⟩
def FC_MAP_ENTRY : Field := ⟨31, 0⟩
def FC_ESC_OPEN : Field := ⟨31, 31⟩
def FC_ESC_COUNT : Field := ⟨7, 0⟩
def FC_ROUTE_DETECTOR : Field := ⟨31, 16⟩
def SAFE_STATE_PREV : Field := ⟨7, 4⟩
def SAFE_STATE_STATE : Field := ⟨3, 0⟩
def SAFE_SEAL_ADOPTED : Field := ⟨15, 8⟩
def SAFE_SEAL_LIVE : Field := ⟨7, 0⟩
def SAFE_IN_DISC : Field := ⟨14, 12⟩
def SAFE_IN_HEALTHY : Field := ⟨11, 8⟩
def SAFE_IN_SRESET : Field := ⟨7, 7⟩
def SAFE_IN_ARC : Field := ⟨6, 6⟩
def SAFE_IN_CH : Field := ⟨5, 0⟩
def SAFE_OUT_GATE_EN : Field := ⟨16, 16⟩
def SAFE_OUT_CLOSED : Field := ⟨15, 12⟩
def SAFE_OUT_SOMON : Field := ⟨11, 8⟩
def SAFE_OUT_REQ : Field := ⟨7, 4⟩
def SAFE_OUT_SO : Field := ⟨3, 0⟩
def SAFE_CAUSE_TIMEINV : Field := ⟨31, 31⟩
def SAFE_CAUSE_LOCK : Field := ⟨12, 8⟩
def SAFE_CAUSE_TRIP : Field := ⟨3, 0⟩
def SAFE_TRIP_TIME_T : Field := ⟨31, 0⟩
def SAFE_EVCNT_TRIPS : Field := ⟨31, 24⟩
def SAFE_EVCNT_LOCKS : Field := ⟨23, 16⟩
def SAFE_EVCNT_SHUNT : Field := ⟨15, 8⟩
def SAFE_EVCNT_RST_IGN : Field := ⟨7, 0⟩
def SAFE_TIMER_RAMP_MS : Field := ⟨15, 0⟩
def TIME_NS_NS : Field := ⟨31, 0⟩
def TIME_AUX_TIMEINV : Field := ⟨31, 31⟩
def TIME_AUX_STEPPED : Field := ⟨30, 30⟩
def TIME_AUX_WRAPS : Field := ⟨19, 16⟩
def TIME_AUX_FRAC : Field := ⟨7, 0⟩
def TIME_INCR_INT : Field := ⟨31, 28⟩
def TIME_INCR_FRAC : Field := ⟨27, 0⟩
def TIME_ADJ_VALUE : Field := ⟨31, 0⟩
def TIME_CMD_KEY : Field := ⟨31, 16⟩
def TIME_CMD_FORCE : Field := ⟨2, 2⟩
def TIME_CMD_ACT : Field := ⟨1, 0⟩
def JUMP_MAX_NS : Field := ⟨31, 0⟩
def TIME_STAT_HALTED : Field := ⟨6, 6⟩
def TIME_STAT_SET : Field := ⟨5, 5⟩
def TIME_STAT_SLEW_BUSY : Field := ⟨4, 4⟩
def TIME_STAT_ADJ_REF : Field := ⟨3, 3⟩
def TIME_STAT_JUMP_REFUSED : Field := ⟨2, 2⟩
def TIME_STAT_JUMPED : Field := ⟨1, 1⟩
def TIME_STAT_RUNNING : Field := ⟨0, 0⟩
def TIME_SLEW_REM_REM : Field := ⟨31, 0⟩
def TIME_LAST_STEP_VALUE : Field := ⟨31, 0⟩
def TIME_RAW_LO_LO : Field := ⟨31, 0⟩
def TIME_RAW_HI_HI : Field := ⟨31, 0⟩
def TIME_ADJ_HI_VALUE : Field := ⟨31, 0⟩
def TIME_LAST_STEP_HI_VALUE : Field := ⟨31, 0⟩
def ETH_CFG_EN : Field := ⟨31, 31⟩
def ETH_MAC_LO_MAC : Field := ⟨31, 0⟩
def ETH_MAC_HI_MAC : Field := ⟨15, 0⟩
def ETH_STAT_SPEED : Field := ⟨2, 1⟩
def ETH_STAT_LINK : Field := ⟨0, 0⟩
def ETH_DELAY_TX : Field := ⟨31, 16⟩
def ETH_DELAY_RX : Field := ⟨15, 0⟩
def PTP_CFG_EN : Field := ⟨31, 31⟩
def PTP_CFG_UDP6 : Field := ⟨26, 26⟩
def PTP_CFG_UDP4 : Field := ⟨25, 25⟩
def PTP_CFG_L2 : Field := ⟨24, 24⟩
def PTP_CFG_DOMAIN : Field := ⟨23, 16⟩
def PTP_CFG_SDOID : Field := ⟨11, 8⟩
def PTP_CFG_FM_TIMEOUT : Field := ⟨3, 0⟩
def LAUNCH_STAT_MISSED : Field := ⟨31, 24⟩
def LAUNCH_STAT_PENDING : Field := ⟨4, 0⟩
def FM_STAT_DROP : Field := ⟨31, 24⟩
def FM_STAT_BEST_VALID : Field := ⟨6, 6⟩
def FM_STAT_BEST : Field := ⟨5, 4⟩
def FM_STAT_USED : Field := ⟨3, 0⟩
def ETH_CNT_OS_FAIL : Field := ⟨31, 24⟩
def ETH_CNT_LINK_DOWN : Field := ⟨23, 16⟩
def ETH_CNT_RX_ERR : Field := ⟨15, 0⟩
def PTP_ID_HI_ID : Field := ⟨31, 0⟩
def PTP_ID_LO_ID : Field := ⟨31, 0⟩
def ETH_MCF_LO_MAC : Field := ⟨31, 0⟩
def ETH_MCF_HI_EN : Field := ⟨31, 31⟩
def ETH_MCF_HI_MAC : Field := ⟨15, 0⟩
def FM_W0_ID : Field := ⟨31, 0⟩
def FM_W1_ID : Field := ⟨31, 0⟩
def FM_W2_PORT : Field := ⟨31, 16⟩
def FM_W2_COUNT : Field := ⟨15, 8⟩
def FM_W2_QUALIFIED : Field := ⟨7, 7⟩
def FM_W3_PRIO1 : Field := ⟨31, 24⟩
def FM_W3_CLASS : Field := ⟨23, 16⟩
def FM_W3_ACCURACY : Field := ⟨15, 8⟩
def FM_W3_PRIO2 : Field := ⟨7, 0⟩
def FM_W4_VARIANCE : Field := ⟨31, 16⟩
def FM_W4_STEPS : Field := ⟨15, 0⟩
def FM_W5_GM_ID : Field := ⟨31, 0⟩
def FM_W6_GM_ID : Field := ⟨31, 0⟩
def FM_W7_LAST : Field := ⟨31, 0⟩
def Q_BASE_OFFSET : Field := ⟨19, 0⟩
def Q_CFG_DEST : Field := ⟨31, 28⟩
def Q_CFG_OFF : Field := ⟨20, 16⟩
def Q_CFG_IRQ_EN : Field := ⟨14, 14⟩
def Q_CFG_IRQ_PORT : Field := ⟨13, 12⟩
def Q_CFG_LOG2_DESC : Field := ⟨11, 8⟩
def Q_CFG_BUF_UNITS : Field := ⟨7, 0⟩
def Q_PTR_PUT : Field := ⟨31, 16⟩
def Q_PTR_GET : Field := ⟨15, 0⟩
def Q_STAT_PTR_REF : Field := ⟨16, 16⟩
def Q_STAT_DROP : Field := ⟨15, 0⟩
def Q_PAGE_PAGE : Field := ⟨4, 0⟩
def HP_CFG_EV_STATE : Field := ⟨3, 3⟩
def HP_CFG_EV_SEV : Field := ⟨2, 0⟩
def HP_STAT_COMPAT : Field := ⟨31, 31⟩
def HP_STAT_LAST : Field := ⟨23, 16⟩
def HP_STAT_CRC_ERR : Field := ⟨15, 8⟩
def HP_STAT_ABORT : Field := ⟨7, 0⟩
def HP_IRQ_EN_EN : Field := ⟨6, 0⟩
def HP_IRQ_STAT_SAFE : Field := ⟨6, 6⟩
def HP_IRQ_STAT_QUEUE : Field := ⟨5, 5⟩
def HP_IRQ_STAT_SEC_FC : Field := ⟨4, 1⟩
def HP_IRQ_STAT_DEV_FC : Field := ⟨0, 0⟩
def CAN_CFG_EN : Field := ⟨31, 31⟩
def CAN_CFG_FD : Field := ⟨30, 30⟩
def CAN_CFG_AUTO_REC : Field := ⟨29, 29⟩
def CAN_NBT_BRP : Field := ⟨31, 24⟩
def CAN_NBT_TSEG1 : Field := ⟨23, 16⟩
def CAN_NBT_TSEG2 : Field := ⟨14, 8⟩
def CAN_NBT_SJW : Field := ⟨6, 0⟩
def CAN_DBT_BRP : Field := ⟨28, 24⟩
def CAN_DBT_TSEG1 : Field := ⟨20, 16⟩
def CAN_DBT_TSEG2 : Field := ⟨11, 8⟩
def CAN_DBT_SJW : Field := ⟨3, 0⟩
def CAN_CMD_RECOVER : Field := ⟨0, 0⟩
def CAN_STAT_TEC : Field := ⟨31, 24⟩
def CAN_STAT_REC : Field := ⟨23, 16⟩
def CAN_STAT_BUSOFF : Field := ⟨1, 1⟩
def CAN_STAT_PASSIVE : Field := ⟨0, 0⟩
def CAN_FLT_EN : Field := ⟨31, 31⟩
def CAN_FLT_IDE : Field := ⟨30, 30⟩
def CAN_FLT_ID : Field := ⟨28, 0⟩
def CAN_MSK_MSK : Field := ⟨28, 0⟩
def UART_CFG_EN : Field := ⟨31, 31⟩
def UART_CFG_PARITY : Field := ⟨30, 29⟩
def UART_CFG_STOP2 : Field := ⟨28, 28⟩
def UART_CFG_GAP : Field := ⟨23, 16⟩
def UART_CFG_DE_LEAD : Field := ⟨15, 8⟩
def UART_CFG_DE_LAG : Field := ⟨7, 0⟩
def UART_BAUD_DIVF : Field := ⟨19, 0⟩
def UART_STAT_LG_BUSY : Field := ⟨16, 16⟩
def UART_STAT_PAR_ERR : Field := ⟨15, 8⟩
def UART_STAT_FRM_ERR : Field := ⟨7, 0⟩
def I2C_CFG_SPEED : Field := ⟨1, 0⟩
def I2C_CMD_GO : Field := ⟨31, 31⟩
def I2C_CMD_PEC : Field := ⟨30, 30⟩
def I2C_CMD_RLEN : Field := ⟨19, 16⟩
def I2C_CMD_WLEN : Field := ⟨11, 8⟩
def I2C_CMD_ADDR : Field := ⟨6, 0⟩
def I2C_STAT_REF : Field := ⟨6, 6⟩
def I2C_STAT_TIMEOUT : Field := ⟨5, 5⟩
def I2C_STAT_ARB : Field := ⟨4, 4⟩
def I2C_STAT_PEC_ERR : Field := ⟨3, 3⟩
def I2C_STAT_NACK : Field := ⟨2, 2⟩
def I2C_STAT_DONE : Field := ⟨1, 1⟩
def I2C_STAT_BUSY : Field := ⟨0, 0⟩
def I2C_WDATA_DATA : Field := ⟨31, 0⟩
def I2C_RDATA_DATA : Field := ⟨31, 0⟩
def DL_CFG_EN : Field := ⟨31, 31⟩
def DL_CFG_TIMEOUT : Field := ⟨15, 0⟩
def DL_STAT_VALID : Field := ⟨31, 31⟩
def DL_STAT_ID_A : Field := ⟨30, 30⟩
def DL_STAT_ID_B : Field := ⟨29, 29⟩
def DL_STAT_CRC_ERR : Field := ⟨15, 8⟩
def DL_STAT_CODE_ERR : Field := ⟨7, 0⟩
def DL_CMD_GO : Field := ⟨0, 0⟩
def DL_UP_BYTES : Field := ⟨31, 0⟩
def DL_DOWN_BYTES : Field := ⟨31, 0⟩
def DL_ID_ID : Field := ⟨31, 0⟩
def BOOT_STAT_LCS : Field := ⟨31, 30⟩
def BOOT_STAT_OWNER : Field := ⟨29, 28⟩
def BOOT_STAT_PLATE_KEY : Field := ⟨27, 27⟩
def BOOT_STAT_TEST_UNLOCK : Field := ⟨26, 26⟩
def BOOT_STAT_INJ_UNLOCK : Field := ⟨25, 25⟩
def BOOT_STAT_KAT_FAIL : Field := ⟨24, 24⟩
def BOOT_STAT_HSS_REV : Field := ⟨23, 20⟩
def BOOT_STAT_ECDSA_REV : Field := ⟨19, 16⟩
def BOOT_STAT_PB_REF : Field := ⟨0, 0⟩
def BOOT_CMD_KEY : Field := ⟨31, 16⟩
def BOOT_CMD_REPORT : Field := ⟨2, 2⟩
def BOOT_CMD_TOKEN : Field := ⟨1, 1⟩
def BOOT_CMD_FIELD : Field := ⟨0, 0⟩
def TOKEN_PTR_OFFSET : Field := ⟨21, 0⟩
def TOKEN_STAT_BUSY : Field := ⟨31, 31⟩
def TOKEN_STAT_KIND : Field := ⟨7, 4⟩
def TOKEN_STAT_RESULT : Field := ⟨3, 0⟩
def RPT_STAT_BUSY : Field := ⟨31, 31⟩
def RPT_STAT_DONE : Field := ⟨30, 30⟩
def RPT_STAT_ERR : Field := ⟨27, 24⟩
def RPT_STAT_LEN : Field := ⟨15, 0⟩
def HSS_LEAF_NEXT : Field := ⟨29, 0⟩
def BOOT_COUNT_COUNT : Field := ⟨31, 0⟩
def PB_REF_ADDR_ADDR : Field := ⟨31, 0⟩
def UID_UID : Field := ⟨31, 0⟩
def CHALLENGE_VALUE : Field := ⟨31, 0⟩
def RPT_NONCE_VALUE : Field := ⟨31, 0⟩
def ARB_VALUE : Field := ⟨31, 0⟩
def COUCH_CMD_KEY : Field := ⟨31, 16⟩
def COUCH_CMD_NOW : Field := ⟨2, 2⟩
def COUCH_CMD_CANCEL : Field := ⟨1, 1⟩
def COUCH_CMD_ARM : Field := ⟨0, 0⟩
def COUCH_AT_NS_NS : Field := ⟨31, 0⟩
def COUCH_AT_WRAPS_WRAPS : Field := ⟨15, 0⟩
def COUCH_TOL_TOL : Field := ⟨15, 0⟩
def COUCH_STAT_PROOF : Field := ⟨31, 16⟩
def COUCH_STAT_REASON : Field := ⟨11, 8⟩
def COUCH_STAT_PHASE : Field := ⟨3, 0⟩
def COUCH_TAKE_T : Field := ⟨31, 0⟩
def AUX_CFG_PHASES : Field := ⟨29, 28⟩
def AUX_CFG_BLANK : Field := ⟨23, 16⟩
def AUX_CFG_PER : Field := ⟨11, 0⟩
def AUX_VREG_TSS : Field := ⟨23, 16⟩
def AUX_VREG_VTGT : Field := ⟨11, 0⟩
def AUX_LOOP_KP : Field := ⟨31, 16⟩
def AUX_LOOP_KI : Field := ⟨15, 0⟩
def AUX_CUR_ILIM : Field := ⟨25, 16⟩
def AUX_CUR_SLOPE : Field := ⟨11, 0⟩
def AUX_PROT_UTH : Field := ⟨31, 24⟩
def AUX_PROT_DMAX : Field := ⟨23, 16⟩
def AUX_PROT_OV_TH : Field := ⟨11, 0⟩
def AUX_UVCFG_UV_T : Field := ⟨31, 16⟩
def AUX_UVCFG_UV_TH : Field := ⟨11, 0⟩
def AUX_TCFG_AVG : Field := ⟨19, 16⟩
def AUX_TCFG_OT_TH : Field := ⟨15, 0⟩
def AUX_VSCALE_SCALE : Field := ⟨31, 0⟩
def AUX_ISCALE_SCALE : Field := ⟨31, 0⟩
def AUX_CTRL_RUN : Field := ⟨0, 0⟩
def AUX_CMD_KEY : Field := ⟨31, 16⟩
def AUX_CMD_CLR : Field := ⟨0, 0⟩
def AUX_STAT_CFG_REF : Field := ⟨15, 15⟩
def AUX_STAT_OT : Field := ⟨14, 14⟩
def AUX_STAT_UV : Field := ⟨13, 13⟩
def AUX_STAT_OV : Field := ⟨12, 12⟩
def AUX_STAT_RETRY : Field := ⟨11, 8⟩
def AUX_STAT_STATE : Field := ⟨2, 0⟩
def AUX_EVCNT_HICCUP : Field := ⟨31, 24⟩
def AUX_EVCNT_BURST : Field := ⟨23, 16⟩
def AUX_EVCNT_OV : Field := ⟨15, 8⟩
def AUX_EVCNT_UV : Field := ⟨7, 0⟩
def AUX_TEMP_TEMP : Field := ⟨15, 0⟩
def AUX_PK0_VMAX : Field := ⟨31, 16⟩
def AUX_PK0_VMIN : Field := ⟨15, 0⟩
def AUX_PK1_IMAX : Field := ⟨31, 0⟩
def AUX_PK2_TMAX : Field := ⟨31, 16⟩
def AUX_PK2_PMAX : Field := ⟨15, 0⟩
def AUX_VOUT_VALUE : Field := ⟨31, 0⟩
def AUX_IOUT_VALUE : Field := ⟨31, 0⟩
def AUX_POUT_VALUE : Field := ⟨31, 0⟩
def KEEP_CFG_HV1_EN : Field := ⟨31, 31⟩
def KEEP_CFG_HV0_EN : Field := ⟨30, 30⟩
def KEEP_CFG_MAIN_CHG : Field := ⟨29, 29⟩
def KEEP_CFG_MARGIN : Field := ⟨23, 16⟩
def KEEP_CFG_CAP : Field := ⟨15, 0⟩
def KEEP_TH_VTH_TX : Field := ⟨31, 16⟩
def KEEP_TH_VTH_MEAS : Field := ⟨15, 0⟩
def KEEP_STAT_MAIN_OK : Field := ⟨31, 31⟩
def KEEP_STAT_ON_STORE : Field := ⟨30, 30⟩
def KEEP_STAT_ON_VBAT : Field := ⟨29, 29⟩
def KEEP_STAT_PFAIL : Field := ⟨28, 28⟩
def KEEP_STAT_TX_OK : Field := ⟨27, 27⟩
def KEEP_STAT_MEAS_OK : Field := ⟨26, 26⟩
def KEEP_STAT_BURST_REFUSED : Field := ⟨25, 25⟩
def KEEP_STAT_WAKE : Field := ⟨24, 24⟩
def KEEP_STAT_BUSY : Field := ⟨23, 23⟩
def KEEP_VSTORE_VBAT : Field := ⟨31, 16⟩
def KEEP_VSTORE_VSTORE : Field := ⟨15, 0⟩
def KEEP_VHV_HV1 : Field := ⟨31, 16⟩
def KEEP_VHV_HV0 : Field := ⟨15, 0⟩
def KEEP_BURST_KIND : Field := ⟨31, 28⟩
def KEEP_BURST_ADMITTED : Field := ⟨27, 27⟩
def KEEP_BURST_MAIN : Field := ⟨26, 26⟩
def KEEP_BURST_NEED : Field := ⟨23, 0⟩
def KEEP_AVAIL_AVAIL : Field := ⟨31, 0⟩
def KEEP_EVCNT_REFUSED : Field := ⟨31, 24⟩
def KEEP_EVCNT_TAMPER : Field := ⟨23, 16⟩
def KEEP_EVCNT_VBAT_SW : Field := ⟨15, 8⟩
def KEEP_EVCNT_PFAIL : Field := ⟨7, 0⟩
def RTC_SEC_SEC : Field := ⟨31, 0⟩
def RTC_SUB_SUB : Field := ⟨14, 0⟩
def RTC_ALARM_SEC : Field := ⟨31, 0⟩
def RTC_TRIM_TRIM : Field := ⟨15, 0⟩
def TAMP_CFG_EN : Field := ⟨1, 0⟩
def TAMP_STAT_OPEN : Field := ⟨1, 0⟩
def TAMP_TIME_SEC : Field := ⟨31, 0⟩
def LG_CFG_EN : Field := ⟨31, 31⟩
def LG_CFG_TRAIL : Field := ⟨30, 30⟩
def LG_CFG_LEN : Field := ⟨29, 24⟩
def LG_CFG_LG_DIV : Field := ⟨11, 0⟩
def LG_EBIT_EBIT : Field := ⟨15, 0⟩
def LG_STAT_SENT : Field := ⟨31, 31⟩
def LG_STAT_REFUSED : Field := ⟨30, 30⟩
def LG_DATA_DATA : Field := ⟨31, 0⟩
def TEST_STAT_INJ_OK : Field := ⟨3, 3⟩
def TEST_STAT_TM_OK : Field := ⟨2, 2⟩
def TEST_STAT_INJ_REF : Field := ⟨1, 1⟩
def TEST_STAT_TM_REF : Field := ⟨0, 0⟩
def TMA_SEL_EN : Field := ⟨31, 31⟩
def TMA_SEL_PARAM : Field := ⟨23, 16⟩
def TMA_SEL_SIG : Field := ⟨7, 0⟩
def TMB_SEL_EN : Field := ⟨31, 31⟩
def TMB_SEL_PARAM : Field := ⟨23, 16⟩
def TMB_SEL_SIG : Field := ⟨7, 0⟩
def INJ_CFG_KIND : Field := ⟨31, 28⟩
def INJ_CFG_TARGET : Field := ⟨25, 16⟩
def INJ_CFG_DUR : Field := ⟨15, 0⟩
def INJ_ADDR_MEM : Field := ⟨13, 12⟩
def INJ_ADDR_ADDR : Field := ⟨11, 0⟩
def INJ_CMD_KEY : Field := ⟨31, 16⟩
def INJ_CMD_STOP : Field := ⟨1, 1⟩
def INJ_CMD_FIRE : Field := ⟨0, 0⟩
def INJ_STAT_ACTIVE : Field := ⟨31, 31⟩
def INJ_STAT_NOEFFECT : Field := ⟨30, 30⟩
def INJ_STAT_SRC : Field := ⟨25, 16⟩
def INJ_STAT_COUNT : Field := ⟨7, 0⟩
def INJ_TIME_T : Field := ⟨31, 0⟩

end Fld

/-- Device block 0x0_0000: 01_architecture, 02_plates. -/
def devRows0 : List RegRow :=
  [⟨0x0, 1, 0x0, 1, 0x0, 0x53479624, 0x0, 0x0, 0x0, 0x0, 0x0, 0xffffffff⟩,
   ⟨0x4, 1, 0x0, 1, 0x0, 0x200, 0x0, 0x0, 0x0, 0x0, 0x0, 0xffff⟩,
   ⟨0x8, 1, 0x0, 1, 0x0, 0x1, 0x0, 0x0, 0x0, 0x0, 0x0, 0xff⟩,
   ⟨0xc, 1, 0x0, 1, 0x0, 0x0, 0x0, 0x0, 0x0, 0x0, 0x0, 0xffff⟩,
   ⟨0x10, 1, 0x0, 1, 0x0, 0x0, 0x0, 0x0, 0x0, 0x0, 0xffff0fff, 0x0⟩,
   ⟨0x14, 1, 0x0, 1, 0x0, 0x0, 0x0, 0x0, 0x7, 0x0, 0x0, 0x0⟩,
   ⟨0x18, 1, 0x0, 1, 0x0, 0x0, 0x0, 0x0, 0x80000000, 0x0, 0x0, 0x70ff0000⟩,
   ⟨0x1c, 1, 0x0, 1, 0x0, 0x0, 0x0, 0x0, 0x0, 0x0, 0x0, 0xffffffff⟩,
   ⟨0x20, 1, 0x0, 1, 0x0, 0x0, 0x0, 0x0, 0x0, 0x0, 0x0, 0x8fffffff⟩,
   ⟨0x24, 1, 0x0, 1, 0x0, 0x0, 0x0, 0x0, 0x0, 0x0, 0x0, 0xffffffff⟩,
   ⟨0x28, 1, 0x0, 1, 0x0, 0x0, 0x0, 0x0, 0x0, 0x0, 0x0, 0xffffffff⟩,
   ⟨0x2c, 1, 0x0, 1, 0x0, 0x0, 0x0, 0x0, 0x0, 0x0, 0xffff001f, 0x0⟩]

/-- Device block 0x1_0000: 03_clocks. -/
def devRows1 : List RegRow :=
  [⟨0x10000, 1, 0x0, 1, 0x0, 0x0, 0x0, 0x3, 0x0, 0x0, 0x0, 0x0⟩,
   ⟨0x10004, 1, 0x0, 1, 0x0, 0x0, 0x0, 0x0, 0x0, 0x0, 0x0, 0xf⟩,
   ⟨0x10008, 1, 0x0, 1, 0x0, 0x64, 0x0, 0xffff, 0x0, 0x0, 0x0, 0x0⟩,
   ⟨0x1000c, 1, 0x0, 1, 0x0, 0x0, 0x1, 0x0, 0x0, 0x0, 0x0, 0x0⟩,
   ⟨0x10010, 1, 0x0, 1, 0x0, 0x0, 0x0, 0x0, 0x0, 0x0, 0xffff0001, 0x0⟩,
   ⟨0x10020, 4, 0x4, 1, 0x0, 0x0, 0x0, 0xff0003ff, 0x0, 0x0, 0x0, 0x0⟩,
   ⟨0x10100, 7, 0x100, 1, 0x0, 0x0, 0x0, 0x1, 0x0, 0x0, 0x0, 0x0⟩,
   ⟨0x10104, 7, 0x100, 1, 0x0, 0x0, 0xffffffff, 0x0, 0x0, 0x0, 0x0, 0x0⟩,
   ⟨0x10108, 7, 0x100, 1, 0x0, 0x0, 0x0, 0xffff, 0x0, 0x0, 0x0, 0x0⟩,
   ⟨0x1010c, 7, 0x100, 1, 0x0, 0x0, 0x0, 0xc01f0fff, 0x0, 0x0, 0x0, 0x0⟩,
   ⟨0x10110, 7, 0x100, 1, 0x0, 0x0, 0x0, 0x0, 0x0, 0x0, 0xffff, 0x0⟩,
   ⟨0x10114, 7, 0x100, 1, 0x0, 0x0, 0x0, 0x0, 0xf8, 0x0, 0x0, 0xffff0007⟩,
   ⟨0x10140, 7, 0x100, 16, 0x4, 0x0, 0x0, 0xbf0fffff, 0x0, 0x0, 0x0, 0x0⟩]

/-- Device block 0x2_0000: 12_faults. -/
def devRows2 : List RegRow :=
  [⟨0x20000, 1, 0x0, 1, 0x0, 0x2, 0x7, 0x0, 0x0, 0x0, 0x0, 0x8⟩,
   ⟨0x20004, 1, 0x0, 1, 0x0, 0x0, 0x0, 0x0, 0x0, 0xff000000, 0x0, 0x706⟩,
   ⟨0x20008, 1, 0x0, 1, 0x0, 0x0, 0x0, 0x0, 0x80000000, 0x0, 0x0, 0x7f8003ff⟩,
   ⟨0x2000c, 1, 0x0, 1, 0x0, 0x0, 0x0, 0x0, 0x0, 0x0, 0x0, 0xffffffff⟩,
   ⟨0x20010, 1, 0x0, 1, 0x0, 0x0, 0x0, 0x0, 0x0, 0xff00, 0x0, 0x3f⟩,
   ⟨0x20014, 1, 0x0, 1, 0x0, 0x0, 0x0, 0x0, 0x0, 0x0, 0x0, 0xff0003ff⟩,
   ⟨0x20018, 1, 0x0, 1, 0x0, 0x0, 0x0, 0x0, 0x0, 0x0, 0x0, 0xffffffff⟩,
   ⟨0x2001c, 1, 0x0, 1, 0x0, 0x0, 0x0, 0x0, 0x0, 0x0, 0x1, 0x0⟩,
   ⟨0x20020, 1, 0x0, 1, 0x0, 0x0, 0x0, 0x0, 0x80000000, 0x0, 0x0, 0x400003ff⟩,
   ⟨0x20024, 1, 0x0, 1, 0x0, 0x0, 0x0, 0x0, 0x0, 0xff000000, 0x0, 0x0⟩,
   ⟨0x20028, 1, 0x0, 1, 0x0, 0x0, 0x0, 0x0, 0x0, 0x0, 0x0, 0xc00003ff⟩,
   ⟨0x20040, 2, 0x4, 1, 0x0, 0x0, 0x0, 0x0, 0xffffffff, 0x0, 0x0, 0x0⟩,
   ⟨0x20060, 2, 0x4, 1, 0x0, 0x0, 0x0, 0x0, 0x0, 0x0, 0x0, 0xffffffff⟩,
   ⟨0x20080, 2, 0x4, 1, 0x0, 0x0, 0x0, 0x0, 0xffffffff, 0x0, 0x0, 0x0⟩,
   ⟨0x20200, 64, 0x4, 1, 0x0, 0x0, 0x0, 0x0, 0x0, 0x0, 0x0, 0xffffffff⟩,
   ⟨0x20400, 64, 0x4, 1, 0x0, 0x0, 0x0, 0x0, 0x0, 0x0, 0x0, 0x800000ff⟩]

/-- Device block 0x3_0000: 13_safety. -/
def devRows3 : List RegRow :=
  [⟨0x30000, 1, 0x0, 1, 0x0, 0x0, 0x0, 0x0, 0x0, 0x0, 0x0, 0xff⟩,
   ⟨0x30004, 1, 0x0, 1, 0x0, 0x0, 0x0, 0x0, 0x0, 0x0, 0x0, 0xffff⟩,
   ⟨0x30008, 1, 0x0, 1, 0x0, 0x0, 0x0, 0x0, 0x0, 0x0, 0x0, 0x7fff⟩,
   ⟨0x3000c, 1, 0x0, 1, 0x0, 0x0, 0x0, 0x0, 0x0, 0x0, 0x0, 0x1ffff⟩,
   ⟨0x30010, 1, 0x0, 1, 0x0, 0x0, 0x0, 0x0, 0x1f0f, 0x0, 0x0, 0x80000000⟩,
   ⟨0x30014, 1, 0x0, 1, 0x0, 0x0, 0x0, 0x0, 0x0, 0x0, 0x0, 0xffffffff⟩,
   ⟨0x30018, 1, 0x0, 1, 0x0, 0x0, 0x0, 0x0, 0x0, 0xffffffff, 0x0, 0x0⟩,
   ⟨0x3001c, 1, 0x0, 1, 0x0, 0x0, 0x0, 0x0, 0x0, 0x0, 0x0, 0xffff⟩]

/-- Device block 0x4_0000: 11_metering. -/
def devRows4 : List RegRow :=
  [⟨0x40000, 1, 0x0, 1, 0x0, 0x300, 0x0, 0x0, 0x1cff, 0x0, 0x0, 0x300⟩,
   ⟨0x40004, 1, 0x0, 1, 0x0, 0x0, 0x0, 0x0, 0x0, 0x0, 0xffff0003, 0x0⟩,
   ⟨0x40008, 1, 0x0, 1, 0x0, 0x0, 0x0, 0x0, 0x0, 0x0, 0x0, 0xffffffff⟩,
   ⟨0x4000c, 1, 0x0, 1, 0x0, 0x0, 0x7, 0x0, 0x0, 0x0, 0x0, 0x0⟩,
   ⟨0x40010, 1, 0x0, 1, 0x0, 0x0, 0x0, 0x0, 0x0, 0x0, 0x0, 0xf000ffff⟩,
   ⟨0x40014, 1, 0x0, 1, 0x0, 0x0, 0x0, 0x0, 0x0, 0x0, 0x0, 0xffffffff⟩,
   ⟨0x40020, 8, 0x4, 1, 0x0, 0x0, 0x0, 0xc7ffff7f, 0x0, 0x0, 0x0, 0x0⟩,
   ⟨0x40040, 8, 0x4, 1, 0x0, 0x0, 0x0, 0xffffffff, 0x0, 0x0, 0x0, 0x0⟩,
   ⟨0x40060, 8, 0x4, 1, 0x0, 0x0, 0x0, 0x0, 0x0, 0xff00, 0x0, 0xffff00ff⟩,
   ⟨0x40100, 8, 0x100, 7, 0x4, 0x0, 0x0, 0x0, 0x0, 0x0, 0x0, 0xffffffff⟩,
   ⟨0x4011c, 8, 0x100, 1, 0x0, 0x0, 0x0, 0x1, 0x0, 0x0, 0x0, 0x0⟩,
   ⟨0x40120, 8, 0x100, 1, 0x0, 0x0, 0x0, 0x0, 0x3000000, 0x0, 0x0, 0xfc000000⟩,
   ⟨0x40124, 8, 0x100, 1, 0x0, 0x0, 0x0, 0x0, 0x0, 0x0, 0x0, 0xffffffff⟩,
   ⟨0x40128, 8, 0x100, 1, 0x0, 0x0, 0x0, 0x0, 0x0, 0x0, 0x0, 0xffffffff⟩,
   ⟨0x4012c, 8, 0x100, 1, 0x0, 0x0, 0x0, 0x0, 0x0, 0x0, 0x0, 0xfffffff⟩,
   ⟨0x40170, 8, 0x100, 1, 0x0, 0x0, 0x7f, 0x0, 0x0, 0x0, 0x0, 0x0⟩,
   ⟨0x40174, 8, 0x100, 1, 0x0, 0x0, 0x0, 0x0, 0x0, 0x0, 0x0, 0xffffffff⟩,
   ⟨0x40178, 8, 0x100, 1, 0x0, 0x0, 0x0, 0x0, 0x0, 0x0, 0x0, 0xffffffff⟩,
   ⟨0x4018c, 8, 0x100, 1, 0x0, 0x0, 0x0, 0x0, 0x0, 0x0, 0x0, 0xffff⟩,
   ⟨0x40130, 8, 0x100, 7, 0x4, 0x0, 0x0, 0x0, 0x0, 0x0, 0x0, 0xffffffff⟩]
  ++ [⟨0x40150, 8, 0x100, 7, 0x4, 0x0, 0x0, 0x0, 0x0, 0x0, 0x0, 0xffffffff⟩,
   ⟨0x40180, 8, 0x100, 1, 0x0, 0x0, 0x0, 0x0, 0x0, 0x0, 0x0, 0xffffffff⟩,
   ⟨0x40184, 8, 0x100, 1, 0x0, 0x0, 0x0, 0x0, 0x0, 0x0, 0x0, 0xffffffff⟩,
   ⟨0x40188, 8, 0x100, 1, 0x0, 0x0, 0x0, 0x0, 0x0, 0x0, 0x0, 0xffffffff⟩,
   ⟨0x48000, 896, 0x4, 1, 0x0, 0x0, 0x0, 0x0, 0x0, 0x0, 0x0, 0xffffffff⟩,
   ⟨0x4a000, 842, 0x4, 1, 0x0, 0x0, 0x0, 0x0, 0x0, 0x0, 0x0, 0xffffffff⟩]

/-- Device block 0x5_0000: 14_network_time. -/
def devRows5 : List RegRow :=
  [⟨0x50000, 1, 0x0, 1, 0x0, 0x0, 0x0, 0x0, 0x0, 0x0, 0x0, 0xffffffff⟩,
   ⟨0x50004, 1, 0x0, 1, 0x0, 0x0, 0x0, 0x0, 0x0, 0x0, 0x0, 0xc00f00ff⟩,
   ⟨0x50008, 1, 0x0, 1, 0x0, 0x40000000, 0xffffffff, 0x0, 0x0, 0x0, 0x0, 0x0⟩,
   ⟨0x5000c, 1, 0x0, 1, 0x0, 0x0, 0xffffffff, 0x0, 0x0, 0x0, 0x0, 0x0⟩,
   ⟨0x50010, 1, 0x0, 1, 0x0, 0x0, 0x0, 0x0, 0x0, 0x0, 0xffff0007, 0x0⟩,
   ⟨0x50014, 1, 0x0, 1, 0x0, 0x3e8, 0x0, 0xffffffff, 0x0, 0x0, 0x0, 0x0⟩,
   ⟨0x50018, 1, 0x0, 1, 0x0, 0x40, 0x0, 0x0, 0xe, 0x0, 0x0, 0x71⟩,
   ⟨0x5001c, 1, 0x0, 1, 0x0, 0x0, 0x0, 0x0, 0x0, 0x0, 0x0, 0xffffffff⟩,
   ⟨0x50020, 1, 0x0, 1, 0x0, 0x0, 0x0, 0x0, 0x0, 0x0, 0x0, 0xffffffff⟩,
   ⟨0x50024, 1, 0x0, 1, 0x0, 0x0, 0x0, 0x0, 0x0, 0x0, 0x0, 0xffffffff⟩,
   ⟨0x50028, 1, 0x0, 1, 0x0, 0x0, 0x0, 0x0, 0x0, 0x0, 0x0, 0xffffffff⟩,
   ⟨0x5002c, 1, 0x0, 1, 0x0, 0x0, 0xffffffff, 0x0, 0x0, 0x0, 0x0, 0x0⟩,
   ⟨0x50030, 1, 0x0, 1, 0x0, 0x0, 0x0, 0x0, 0x0, 0x0, 0x0, 0xffffffff⟩,
   ⟨0x50100, 4, 0x100, 1, 0x0, 0x0, 0x0, 0x80000000, 0x0, 0x0, 0x0, 0x0⟩,
   ⟨0x50104, 4, 0x100, 1, 0x0, 0x0, 0x0, 0xffffffff, 0x0, 0x0, 0x0, 0x0⟩,
   ⟨0x50108, 4, 0x100, 1, 0x0, 0x0, 0x0, 0xffff, 0x0, 0x0, 0x0, 0x0⟩,
   ⟨0x5010c, 4, 0x100, 1, 0x0, 0x0, 0x0, 0x0, 0x0, 0x0, 0x0, 0x7⟩,
   ⟨0x50110, 4, 0x100, 1, 0x0, 0x0, 0x0, 0xffffffff, 0x0, 0x0, 0x0, 0x0⟩,
   ⟨0x50114, 4, 0x100, 1, 0x0, 0x3, 0x0, 0x87ff0f0f, 0x0, 0x0, 0x0, 0x0⟩,
   ⟨0x50120, 4, 0x100, 1, 0x0, 0x0, 0x0, 0x0, 0x0, 0xff000000, 0x0, 0x1f⟩]
  ++ [⟨0x50124, 4, 0x100, 1, 0x0, 0x0, 0x0, 0x0, 0x0, 0xff000000, 0x0, 0x7f⟩,
   ⟨0x50128, 4, 0x100, 1, 0x0, 0x0, 0x0, 0x0, 0x0, 0xffffffff, 0x0, 0x0⟩,
   ⟨0x50118, 4, 0x100, 1, 0x0, 0x0, 0xffffffff, 0x0, 0x0, 0x0, 0x0, 0x0⟩,
   ⟨0x5011c, 4, 0x100, 1, 0x0, 0x0, 0xffffffff, 0x0, 0x0, 0x0, 0x0, 0x0⟩,
   ⟨0x501c0, 4, 0x100, 4, 0x8, 0x0, 0x0, 0xffffffff, 0x0, 0x0, 0x0, 0x0⟩,
   ⟨0x501c4, 4, 0x100, 4, 0x8, 0x0, 0x0, 0x8000ffff, 0x0, 0x0, 0x0, 0x0⟩,
   ⟨0x50140, 4, 0x100, 4, 0x20, 0x0, 0x0, 0x0, 0x0, 0x0, 0x0, 0xffffffff⟩,
   ⟨0x50144, 4, 0x100, 4, 0x20, 0x0, 0x0, 0x0, 0x0, 0x0, 0x0, 0xffffffff⟩,
   ⟨0x50148, 4, 0x100, 4, 0x20, 0x0, 0x0, 0x0, 0x0, 0x0, 0x0, 0xffffff80⟩,
   ⟨0x5014c, 4, 0x100, 4, 0x20, 0x0, 0x0, 0x0, 0x0, 0x0, 0x0, 0xffffffff⟩,
   ⟨0x50150, 4, 0x100, 4, 0x20, 0x0, 0x0, 0x0, 0x0, 0x0, 0x0, 0xffffffff⟩,
   ⟨0x50154, 4, 0x100, 4, 0x20, 0x0, 0x0, 0x0, 0x0, 0x0, 0x0, 0xffffffff⟩,
   ⟨0x50158, 4, 0x100, 4, 0x20, 0x0, 0x0, 0x0, 0x0, 0x0, 0x0, 0xffffffff⟩,
   ⟨0x5015c, 4, 0x100, 4, 0x20, 0x0, 0x0, 0x0, 0x0, 0x0, 0x0, 0xffffffff⟩]

/-- Device block 0x6_0000: 15_host_links. -/
def devRows6 : List RegRow :=
  [⟨0x60000, 64, 0x10, 1, 0x0, 0x0, 0x0, 0x0, 0x0, 0x0, 0x0, 0xfffff⟩,
   ⟨0x60004, 64, 0x10, 1, 0x0, 0x0, 0xf01f7000, 0x0, 0x0, 0x0, 0x0, 0xfff⟩,
   ⟨0x60008, 64, 0x10, 1, 0x0, 0x0, 0xffffffff, 0x0, 0x0, 0x0, 0x0, 0x0⟩,
   ⟨0x6000c, 64, 0x10, 1, 0x0, 0x0, 0x0, 0x0, 0x10000, 0xffff, 0x0, 0x0⟩,
   ⟨0x60400, 1, 0x0, 1, 0x0, 0x0, 0x1f, 0x0, 0x0, 0x0, 0x0, 0x0⟩]

/-- Device block 0x7_0000: 15_host_links. -/
def devRows7 : List RegRow :=
  [⟨0x70000, 4, 0x100, 1, 0x0, 0x0, 0xf, 0x0, 0x0, 0x0, 0x0, 0x0⟩,
   ⟨0x70004, 4, 0x100, 1, 0x0, 0x0, 0x0, 0x0, 0x0, 0xffff, 0x0, 0x80ff0000⟩,
   ⟨0x70008, 4, 0x100, 1, 0x0, 0x0, 0x7f, 0x0, 0x0, 0x0, 0x0, 0x0⟩,
   ⟨0x7000c, 4, 0x100, 1, 0x0, 0x0, 0x0, 0x0, 0x60, 0x0, 0x0, 0x1f⟩,
   ⟨0x70400, 2, 0x100, 1, 0x0, 0x0, 0x0, 0xe0000000, 0x0, 0x0, 0x0, 0x0⟩,
   ⟨0x70404, 2, 0x100, 1, 0x0, 0x0, 0x0, 0xffff7f7f, 0x0, 0x0, 0x0, 0x0⟩,
   ⟨0x70408, 2, 0x100, 1, 0x0, 0x0, 0x0, 0x1f1f0f0f, 0x0, 0x0, 0x0, 0x0⟩,
   ⟨0x7040c, 2, 0x100, 1, 0x0, 0x0, 0x0, 0x0, 0x0, 0x0, 0x1, 0x0⟩,
   ⟨0x70410, 2, 0x100, 1, 0x0, 0x0, 0x0, 0x0, 0x0, 0x0, 0x0, 0xffff0003⟩,
   ⟨0x70440, 2, 0x100, 16, 0x8, 0x0, 0x0, 0xdfffffff, 0x0, 0x0, 0x0, 0x0⟩,
   ⟨0x70444, 2, 0x100, 16, 0x8, 0x0, 0x0, 0x1fffffff, 0x0, 0x0, 0x0, 0x0⟩,
   ⟨0x70600, 2, 0x100, 1, 0x0, 0x70101, 0x0, 0xf0ffffff, 0x0, 0x0, 0x0, 0x0⟩,
   ⟨0x70604, 2, 0x100, 1, 0x0, 0x43d1, 0x0, 0xfffff, 0x0, 0x0, 0x0, 0x0⟩,
   ⟨0x70608, 2, 0x100, 1, 0x0, 0x0, 0x0, 0x0, 0x0, 0xffff, 0x0, 0x10000⟩,
   ⟨0x70800, 2, 0x100, 1, 0x0, 0x0, 0x0, 0x3, 0x0, 0x0, 0x0, 0x0⟩,
   ⟨0x70804, 2, 0x100, 1, 0x0, 0x0, 0x0, 0x0, 0x0, 0x0, 0xc00f0f7f, 0x0⟩,
   ⟨0x70818, 2, 0x100, 1, 0x0, 0x0, 0x0, 0x0, 0x7e, 0x0, 0x0, 0x1⟩,
   ⟨0x70808, 2, 0x100, 2, 0x4, 0x0, 0xffffffff, 0x0, 0x0, 0x0, 0x0, 0x0⟩,
   ⟨0x70810, 2, 0x100, 2, 0x4, 0x0, 0x0, 0x0, 0x0, 0x0, 0x0, 0xffffffff⟩,
   ⟨0x71000, 8, 0x100, 1, 0x0, 0xa, 0x0, 0x8000ffff, 0x0, 0x0, 0x0, 0x0⟩]
  ++ [⟨0x71004, 8, 0x100, 1, 0x0, 0x0, 0x0, 0x0, 0x0, 0xffff, 0x0, 0xe0000000⟩,
   ⟨0x71008, 8, 0x100, 1, 0x0, 0x0, 0x0, 0x0, 0x0, 0x0, 0x1, 0x0⟩,
   ⟨0x71010, 8, 0x100, 4, 0x4, 0x0, 0x0, 0x0, 0x0, 0x0, 0x0, 0xffffffff⟩,
   ⟨0x71020, 8, 0x100, 3, 0x4, 0x0, 0xffffffff, 0x0, 0x0, 0x0, 0x0, 0x0⟩,
   ⟨0x71040, 8, 0x100, 8, 0x4, 0x0, 0x0, 0x0, 0x0, 0x0, 0x0, 0xffffffff⟩]

/-- Device block 0x8_0000: 18_aux_supply. -/
def devRows8 : List RegRow :=
  [⟨0x80000, 1, 0x0, 1, 0x0, 0x303203e8, 0x0, 0x30ff0fff, 0x0, 0x0, 0x0, 0x0⟩,
   ⟨0x80004, 1, 0x0, 1, 0x0, 0xa0000, 0x0, 0xff0fff, 0x0, 0x0, 0x0, 0x0⟩,
   ⟨0x80008, 1, 0x0, 1, 0x0, 0x1000100, 0x0, 0xffffffff, 0x0, 0x0, 0x0, 0x0⟩,
   ⟨0x8000c, 1, 0x0, 1, 0x0, 0x0, 0x0, 0x3ff0fff, 0x0, 0x0, 0x0, 0x0⟩,
   ⟨0x80010, 1, 0x0, 1, 0x0, 0xe60fff, 0x0, 0xffff0fff, 0x0, 0x0, 0x0, 0x0⟩,
   ⟨0x80014, 1, 0x0, 1, 0x0, 0x3e80000, 0x0, 0xffff0fff, 0x0, 0x0, 0x0, 0x0⟩,
   ⟨0x80018, 1, 0x0, 1, 0x0, 0x80640, 0x0, 0xfffff, 0x0, 0x0, 0x0, 0x0⟩,
   ⟨0x8001c, 1, 0x0, 1, 0x0, 0x0, 0x0, 0xffffffff, 0x0, 0x0, 0x0, 0x0⟩,
   ⟨0x80020, 1, 0x0, 1, 0x0, 0x0, 0x0, 0xffffffff, 0x0, 0x0, 0x0, 0x0⟩,
   ⟨0x80028, 1, 0x0, 1, 0x0, 0x0, 0x1, 0x0, 0x0, 0x0, 0x0, 0x0⟩,
   ⟨0x8002c, 1, 0x0, 1, 0x0, 0x0, 0x0, 0x0, 0x0, 0x0, 0xffff0001, 0x0⟩,
   ⟨0x80030, 1, 0x0, 1, 0x0, 0x0, 0x0, 0x0, 0x8000, 0x0, 0x0, 0x7f07⟩,
   ⟨0x80034, 1, 0x0, 1, 0x0, 0x0, 0x0, 0x0, 0x0, 0xffffffff, 0x0, 0x0⟩,
   ⟨0x8004c, 1, 0x0, 1, 0x0, 0x0, 0x0, 0x0, 0x0, 0x0, 0x0, 0xffff⟩,
   ⟨0x80050, 1, 0x0, 1, 0x0, 0x0, 0x0, 0x0, 0x0, 0xffffffff, 0x0, 0x0⟩,
   ⟨0x80054, 1, 0x0, 1, 0x0, 0x0, 0x0, 0x0, 0x0, 0xffffffff, 0x0, 0x0⟩,
   ⟨0x80058, 1, 0x0, 1, 0x0, 0x0, 0x0, 0x0, 0x0, 0xffffffff, 0x0, 0x0⟩,
   ⟨0x80040, 1, 0x0, 1, 0x0, 0x0, 0x0, 0x0, 0x0, 0x0, 0x0, 0xffffffff⟩,
   ⟨0x80044, 1, 0x0, 1, 0x0, 0x0, 0x0, 0x0, 0x0, 0x0, 0x0, 0xffffffff⟩,
   ⟨0x80048, 1, 0x0, 1, 0x0, 0x0, 0x0, 0x0, 0x0, 0x0, 0x0, 0xffffffff⟩]

/-- Device block 0x9_0000: 19_keep. -/
def devRows9 : List RegRow :=
  [⟨0x90000, 1, 0x0, 1, 0x0, 0x20200000, 0x0, 0xe0ffffff, 0x0, 0x0, 0x0, 0x0⟩,
   ⟨0x90004, 1, 0x0, 1, 0x0, 0xdac0960, 0x0, 0xffffffff, 0x0, 0x0, 0x0, 0x0⟩,
   ⟨0x90008, 1, 0x0, 1, 0x0, 0x0, 0x0, 0x0, 0x13000000, 0x0, 0x0, 0xec800000⟩,
   ⟨0x9000c, 1, 0x0, 1, 0x0, 0x0, 0x0, 0x0, 0x0, 0x0, 0x0, 0xffffffff⟩,
   ⟨0x90010, 1, 0x0, 1, 0x0, 0x0, 0x0, 0x0, 0x0, 0x0, 0x0, 0xffffffff⟩,
   ⟨0x90014, 1, 0x0, 1, 0x0, 0x0, 0x0, 0x0, 0x0, 0x0, 0x0, 0xfcffffff⟩,
   ⟨0x90018, 1, 0x0, 1, 0x0, 0x0, 0x0, 0x0, 0x0, 0x0, 0x0, 0xffffffff⟩,
   ⟨0x9001c, 1, 0x0, 1, 0x0, 0x0, 0x0, 0x0, 0x0, 0xffffffff, 0x0, 0x0⟩,
   ⟨0x90020, 1, 0x0, 1, 0x0, 0x0, 0xffffffff, 0x0, 0x0, 0x0, 0x0, 0x0⟩,
   ⟨0x90024, 1, 0x0, 1, 0x0, 0x0, 0x0, 0x0, 0x0, 0x0, 0x0, 0x7fff⟩,
   ⟨0x90028, 1, 0x0, 1, 0x0, 0xffffffff, 0xffffffff, 0x0, 0x0, 0x0, 0x0, 0x0⟩,
   ⟨0x9002c, 1, 0x0, 1, 0x0, 0x0, 0xffff, 0x0, 0x0, 0x0, 0x0, 0x0⟩,
   ⟨0x90030, 1, 0x0, 1, 0x0, 0x0, 0x0, 0x3, 0x0, 0x0, 0x0, 0x0⟩,
   ⟨0x90034, 1, 0x0, 1, 0x0, 0x0, 0x0, 0x0, 0x3, 0x0, 0x0, 0x0⟩,
   ⟨0x90038, 1, 0x0, 1, 0x0, 0x0, 0x0, 0x0, 0x0, 0x0, 0x0, 0xffffffff⟩,
   ⟨0x90040, 1, 0x0, 1, 0x0, 0x10, 0x0, 0xff000fff, 0x0, 0x0, 0x0, 0x0⟩,
   ⟨0x90044, 1, 0x0, 1, 0x0, 0x0, 0x0, 0xffff, 0x0, 0x0, 0x0, 0x0⟩,
   ⟨0x90048, 1, 0x0, 1, 0x0, 0x0, 0x0, 0x0, 0xc0000000, 0x0, 0x0, 0x0⟩,
   ⟨0x90060, 8, 0x4, 1, 0x0, 0x0, 0xffffffff, 0x0, 0x0, 0x0, 0x0, 0x0⟩]

/-- Device block 0xa_0000: 16_security_update. -/
def devRows10 : List RegRow :=
  [⟨0xa0000, 1, 0x0, 1, 0x0, 0x0, 0x0, 0x0, 0x1, 0x0, 0x0, 0xffff0000⟩,
   ⟨0xa0004, 1, 0x0, 1, 0x0, 0x0, 0x0, 0x0, 0x0, 0x0, 0xffff0007, 0x0⟩,
   ⟨0xa0008, 1, 0x0, 1, 0x0, 0x0, 0x3fffff, 0x0, 0x0, 0x0, 0x0, 0x0⟩,
   ⟨0xa000c, 1, 0x0, 1, 0x0, 0x0, 0x0, 0x0, 0x0, 0x0, 0x0, 0x800000ff⟩,
   ⟨0xa0010, 1, 0x0, 1, 0x0, 0x0, 0x0, 0x0, 0x0, 0x0, 0x0, 0xcf00ffff⟩,
   ⟨0xa0014, 1, 0x0, 1, 0x0, 0x0, 0x0, 0x0, 0x0, 0x0, 0x0, 0x3fffffff⟩,
   ⟨0xa0018, 1, 0x0, 1, 0x0, 0x0, 0x0, 0x0, 0x0, 0x0, 0x0, 0xffffffff⟩,
   ⟨0xa001c, 1, 0x0, 1, 0x0, 0x0, 0x0, 0x0, 0x0, 0x0, 0x0, 0xffffffff⟩,
   ⟨0xa0020, 4, 0x4, 1, 0x0, 0x0, 0x0, 0x0, 0x0, 0x0, 0x0, 0xffffffff⟩,
   ⟨0xa0040, 8, 0x4, 1, 0x0, 0x0, 0x0, 0x0, 0x0, 0x0, 0x0, 0xffffffff⟩,
   ⟨0xa0060, 8, 0x4, 1, 0x0, 0x0, 0xffffffff, 0x0, 0x0, 0x0, 0x0, 0x0⟩,
   ⟨0xa0080, 9, 0x4, 1, 0x0, 0x0, 0x0, 0x0, 0x0, 0x0, 0x0, 0xffffffff⟩,
   ⟨0xa0100, 4, 0x20, 1, 0x0, 0x0, 0x0, 0x0, 0x0, 0x0, 0xffff0007, 0x0⟩,
   ⟨0xa0104, 4, 0x20, 1, 0x0, 0x0, 0xffffffff, 0x0, 0x0, 0x0, 0x0, 0x0⟩,
   ⟨0xa0108, 4, 0x20, 1, 0x0, 0x0, 0xffff, 0x0, 0x0, 0x0, 0x0, 0x0⟩,
   ⟨0xa010c, 4, 0x20, 1, 0x0, 0x0, 0xffff, 0x0, 0x0, 0x0, 0x0, 0x0⟩,
   ⟨0xa0110, 4, 0x20, 1, 0x0, 0x0, 0x0, 0x0, 0x0, 0x0, 0x0, 0xffff0f0f⟩,
   ⟨0xa0114, 4, 0x20, 1, 0x0, 0x0, 0x0, 0x0, 0x0, 0x0, 0x0, 0xffffffff⟩]

/-- Device block 0xb_0000: 20_startup_test. -/
def devRows11 : List RegRow :=
  [⟨0xb0000, 1, 0x0, 1, 0x0, 0x0, 0x0, 0x0, 0x3, 0x0, 0x0, 0xc⟩,
   ⟨0xb0020, 8, 0x4, 1, 0x0, 0x0, 0x80ff00ff, 0x0, 0x0, 0x0, 0x0, 0x0⟩,
   ⟨0xb0040, 8, 0x4, 1, 0x0, 0x0, 0x80ff00ff, 0x0, 0x0, 0x0, 0x0, 0x0⟩,
   ⟨0xb0080, 1, 0x0, 1, 0x0, 0x0, 0xf3ffffff, 0x0, 0x0, 0x0, 0x0, 0x0⟩,
   ⟨0xb0084, 1, 0x0, 1, 0x0, 0x0, 0x3fff, 0x0, 0x0, 0x0, 0x0, 0x0⟩,
   ⟨0xb0088, 1, 0x0, 1, 0x0, 0x0, 0x0, 0x0, 0x0, 0x0, 0xffff0003, 0x0⟩,
   ⟨0xb008c, 1, 0x0, 1, 0x0, 0x0, 0x0, 0x0, 0x40000000, 0xff, 0x0, 0x83ff0000⟩,
   ⟨0xb0090, 1, 0x0, 1, 0x0, 0x0, 0x0, 0x0, 0x0, 0x0, 0x0, 0xffffffff⟩]

/-- Section block 0x0_0000: 01_architecture, 02_plates. -/
def secRows0 : List RegRow :=
  [⟨0x0, 1, 0x0, 1, 0x0, 0x0, 0x0, 0x0, 0x0, 0x0, 0x0, 0xff⟩,
   ⟨0x4, 1, 0x0, 1, 0x0, 0x80000000, 0x0, 0xf00fffff, 0x0, 0x0, 0x0, 0x0⟩,
   ⟨0x8, 1, 0x0, 1, 0x0, 0x0, 0x0, 0xfffff, 0x0, 0x0, 0x0, 0x0⟩,
   ⟨0xc, 1, 0x0, 1, 0x0, 0x0, 0x0, 0x0, 0x0, 0x0, 0x0, 0xffffffff⟩,
   ⟨0x10, 1, 0x0, 1, 0x0, 0x0, 0x0, 0x0, 0x0, 0x0, 0x0, 0xffffffff⟩,
   ⟨0x14, 1, 0x0, 1, 0x0, 0x0, 0x0, 0x0, 0x0, 0xffffff00, 0x0, 0x0⟩,
   ⟨0x18, 1, 0x0, 1, 0x0, 0x0, 0x0, 0x0, 0x0, 0x0, 0x0, 0xfffff⟩,
   ⟨0x1c, 1, 0x0, 1, 0x0, 0x0, 0x0, 0x0, 0x0, 0xfffff, 0x0, 0x0⟩,
   ⟨0x20, 1, 0x0, 1, 0x0, 0x0, 0x0, 0x0, 0x0, 0x0, 0x0, 0xffffffff⟩,
   ⟨0x24, 1, 0x0, 1, 0x0, 0x0, 0x0, 0x0, 0x0, 0x0, 0x0, 0xffffffff⟩,
   ⟨0x28, 1, 0x0, 1, 0x0, 0x0, 0x0, 0x0, 0x0, 0x0, 0x0, 0xffffffff⟩,
   ⟨0x2c, 1, 0x0, 1, 0x0, 0x0, 0x0, 0x0, 0x0, 0x0, 0x0, 0xffff⟩]

/-- Section block 0x1_0000: 06_gate_protection. -/
def secRows1 : List RegRow :=
  [⟨0x10000, 4, 0x1000, 10, 0x4, 0x0, 0x0, 0x0, 0x0, 0x0, 0x0, 0xffffffff⟩,
   ⟨0x10040, 4, 0x1000, 1, 0x0, 0x0, 0x0, 0x0, 0x0, 0x0, 0x0, 0x3f3f3f3f⟩,
   ⟨0x10044, 4, 0x1000, 1, 0x0, 0x0, 0x0, 0x0, 0x3, 0x0, 0x0, 0xc⟩,
   ⟨0x10048, 4, 0x1000, 1, 0x0, 0x0, 0x0, 0x0, 0x0, 0xffffffff, 0x0, 0x0⟩,
   ⟨0x1004c, 4, 0x1000, 1, 0x0, 0x0, 0x0, 0x0, 0x0, 0xffff, 0x0, 0x0⟩,
   ⟨0x10050, 4, 0x1000, 1, 0x0, 0x8000000, 0x0, 0x0, 0x2000000, 0x0, 0x0, 0xfc000b3f⟩,
   ⟨0x10054, 4, 0x1000, 1, 0x0, 0x0, 0x0, 0x0, 0x0, 0x0, 0x1, 0x0⟩,
   ⟨0x10058, 4, 0x1000, 1, 0x0, 0x0, 0x0, 0x0, 0x10, 0x0, 0x1, 0xff0e⟩]

/-- Section block 0x2_0000: 04_measurement. -/
def secRows2 : List RegRow :=
  [⟨0x20000, 1, 0x0, 1, 0x0, 0x0, 0x0, 0x0, 0x1000, 0x0, 0x0, 0xfff⟩,
   ⟨0x20004, 1, 0x0, 1, 0x0, 0x0, 0x0, 0x0, 0xfff, 0x0, 0x0, 0x0⟩,
   ⟨0x20010, 1, 0x0, 1, 0x0, 0x0, 0x0, 0x0, 0x0, 0x0, 0xffffffff, 0x0⟩,
   ⟨0x20014, 1, 0x0, 1, 0x0, 0x0, 0x0, 0x0, 0x0, 0x0, 0xffff, 0x0⟩,
   ⟨0x20100, 12, 0x10, 1, 0x0, 0x0, 0x3d, 0x2, 0x0, 0x0, 0x0, 0x0⟩,
   ⟨0x20104, 12, 0x10, 1, 0x0, 0x0, 0x0, 0x8fffffff, 0x0, 0x0, 0x0, 0x0⟩,
   ⟨0x20108, 12, 0x10, 1, 0x0, 0x8000, 0x0, 0x0, 0x0, 0x0, 0x0, 0xfffffff⟩,
   ⟨0x21000, 48, 0x20, 1, 0x0, 0x0, 0x80000000, 0x7f0f0f00, 0x0, 0x0, 0x0, 0x0⟩,
   ⟨0x21004, 48, 0x20, 1, 0x0, 0x0, 0x0, 0xffffffff, 0x0, 0x0, 0x0, 0x0⟩,
   ⟨0x21008, 48, 0x20, 1, 0x0, 0x0, 0x0, 0xffffffff, 0x0, 0x0, 0x0, 0x0⟩,
   ⟨0x2100c, 48, 0x20, 1, 0x0, 0x0, 0x0, 0x0, 0x0, 0x0, 0x0, 0xfcffffff⟩,
   ⟨0x21010, 48, 0x20, 1, 0x0, 0x0, 0x0, 0x0, 0x0, 0x0, 0x0, 0xffffffff⟩,
   ⟨0x21014, 48, 0x20, 1, 0x0, 0x0, 0x0, 0x0, 0x0, 0x0, 0x0, 0x3fff3fff⟩,
   ⟨0x21018, 48, 0x20, 1, 0x0, 0x0, 0x0, 0x0, 0x0, 0x0, 0x0, 0xffffffff⟩]

/-- Section block 0x3_0000: 05_pwm. -/
def secRows3 : List RegRow :=
  [⟨0x30000, 1, 0x0, 1, 0x0, 0x0, 0x0, 0x0, 0x0, 0x0, 0xff, 0x0⟩,
   ⟨0x30010, 1, 0x0, 1, 0x0, 0x0, 0xc0ff7fff, 0x0, 0x0, 0x0, 0x0, 0x0⟩,
   ⟨0x30014, 1, 0x0, 1, 0x0, 0x0, 0xffff, 0x0, 0x0, 0x0, 0x0, 0x0⟩,
   ⟨0x30018, 1, 0x0, 1, 0x0, 0x0, 0xffffffff, 0x0, 0x0, 0x0, 0x0, 0x0⟩,
   ⟨0x3001c, 1, 0x0, 1, 0x0, 0x0, 0xffffffff, 0x0, 0x0, 0x0, 0x0, 0x0⟩,
   ⟨0x30020, 1, 0x0, 1, 0x0, 0x0, 0xffffffff, 0x0, 0x0, 0x0, 0x0, 0x0⟩,
   ⟨0x30024, 1, 0x0, 1, 0x0, 0x0, 0x0, 0x0, 0x0, 0x0, 0x0, 0xffffffff⟩,
   ⟨0x30028, 1, 0x0, 1, 0x0, 0x0, 0x0, 0x0, 0x0, 0x0, 0x0, 0xffffffff⟩,
   ⟨0x3002c, 1, 0x0, 1, 0x0, 0x0, 0x0, 0x0, 0xc, 0x0, 0x0, 0xf3⟩,
   ⟨0x30100, 4, 0x100, 1, 0x0, 0x0, 0x0, 0xfff0ffff, 0x0, 0x0, 0x0, 0x0⟩,
   ⟨0x30104, 4, 0x100, 1, 0x0, 0xf0000000, 0x0, 0xffffffff, 0x0, 0x0, 0x0, 0x0⟩,
   ⟨0x30108, 4, 0x100, 1, 0x0, 0x333333, 0x0, 0x777777, 0x0, 0x0, 0x0, 0x0⟩,
   ⟨0x3010c, 4, 0x100, 1, 0x0, 0x0, 0x0, 0xffff, 0x0, 0x0, 0x0, 0x0⟩,
   ⟨0x30110, 4, 0x100, 1, 0x0, 0x0, 0x0, 0xffffffff, 0x0, 0x0, 0x0, 0x0⟩,
   ⟨0x30114, 4, 0x100, 1, 0x0, 0x0, 0x0, 0x1f, 0x0, 0x0, 0x0, 0x0⟩,
   ⟨0x30120, 4, 0x100, 1, 0x0, 0x10, 0xffff, 0x0, 0x0, 0x0, 0x0, 0x0⟩,
   ⟨0x30124, 4, 0x100, 6, 0x4, 0x0, 0x7fffff, 0x0, 0x0, 0x0, 0x0, 0x0⟩,
   ⟨0x3013c, 4, 0x100, 1, 0x0, 0x15, 0x3f013f, 0x0, 0x0, 0x0, 0x0, 0x0⟩,
   ⟨0x30140, 4, 0x100, 3, 0x4, 0x0, 0xffffffff, 0x0, 0x0, 0x0, 0x0, 0x0⟩,
   ⟨0x30160, 4, 0x100, 1, 0x0, 0x10, 0x0, 0x0, 0x0, 0x0, 0x0, 0xffff⟩]
  ++ [⟨0x30164, 4, 0x100, 6, 0x4, 0x0, 0x0, 0x0, 0x0, 0x0, 0x0, 0x7fffff⟩,
   ⟨0x3017c, 4, 0x100, 1, 0x0, 0x15, 0x0, 0x0, 0x0, 0x0, 0x0, 0x3f013f⟩,
   ⟨0x30180, 4, 0x100, 3, 0x4, 0x0, 0x0, 0x0, 0x0, 0x0, 0x0, 0xffffffff⟩,
   ⟨0x30190, 4, 0x100, 1, 0x0, 0x0, 0x0, 0x0, 0x0, 0x0, 0x0, 0x1ffff⟩,
   ⟨0x30194, 4, 0x100, 1, 0x0, 0x0, 0x0, 0x0, 0x0, 0x0, 0x0, 0xffffffff⟩,
   ⟨0x30198, 4, 0x100, 1, 0x0, 0x0, 0x0, 0x0, 0x7fe, 0x0, 0x0, 0x0⟩,
   ⟨0x3019c, 4, 0x100, 1, 0x0, 0x0, 0x0, 0x0, 0x0, 0xffff, 0x0, 0x0⟩,
   ⟨0x301a0, 4, 0x100, 1, 0x0, 0x0, 0x0, 0x0, 0x0, 0x0, 0x3, 0x0⟩,
   ⟨0x301a4, 4, 0x100, 1, 0x0, 0x0, 0x0, 0x0, 0x40, 0x0, 0x0, 0x3f⟩]

/-- Section block 0x4_0000: 06_gate_protection. -/
def secRows4 : List RegRow :=
  [⟨0x40000, 1, 0x0, 1, 0x0, 0x0, 0x0, 0x0, 0xff, 0x0, 0x0, 0xff00⟩,
   ⟨0x40004, 1, 0x0, 1, 0x0, 0x0, 0x0, 0x0, 0x1, 0x0, 0x0, 0x0⟩,
   ⟨0x40100, 4, 0x20, 1, 0x0, 0x3ff03fe, 0x0, 0x3ff03ff, 0x0, 0x0, 0x0, 0x0⟩,
   ⟨0x40104, 4, 0x20, 1, 0x0, 0x3f, 0x0, 0x1f1f3f3f, 0x0, 0x0, 0x0, 0x0⟩,
   ⟨0x40108, 4, 0x20, 1, 0x0, 0x3, 0x0, 0x0, 0x0, 0x0, 0x0, 0x3f03⟩,
   ⟨0x40200, 8, 0x20, 1, 0x0, 0x3ff0000, 0x0, 0x3ff03ff, 0x0, 0x0, 0x0, 0x0⟩,
   ⟨0x40204, 8, 0x20, 1, 0x0, 0x1100, 0x0, 0xff1fffff, 0x0, 0x0, 0x0, 0x0⟩,
   ⟨0x40208, 8, 0x20, 1, 0x0, 0x0, 0x0, 0x0, 0x0, 0x0, 0x0, 0xf⟩]

/-- Section block 0x5_0000: 12_faults. -/
def secRows5 : List RegRow :=
  [⟨0x50000, 1, 0x0, 1, 0x0, 0x2, 0x7, 0x0, 0x0, 0x0, 0x0, 0x8⟩,
   ⟨0x50004, 1, 0x0, 1, 0x0, 0x0, 0x0, 0x0, 0x0, 0xff000000, 0x0, 0x706⟩,
   ⟨0x50008, 1, 0x0, 1, 0x0, 0x0, 0x0, 0x0, 0x80000000, 0x0, 0x0, 0x7f8003ff⟩,
   ⟨0x5000c, 1, 0x0, 1, 0x0, 0x0, 0x0, 0x0, 0x0, 0x0, 0x0, 0xffffffff⟩,
   ⟨0x50010, 1, 0x0, 1, 0x0, 0x0, 0x0, 0x0, 0x0, 0xff00, 0x0, 0x3f⟩,
   ⟨0x50014, 1, 0x0, 1, 0x0, 0x0, 0x0, 0x0, 0x0, 0x0, 0x0, 0xff0003ff⟩,
   ⟨0x50018, 1, 0x0, 1, 0x0, 0x0, 0x0, 0x0, 0x0, 0x0, 0x0, 0xffffffff⟩,
   ⟨0x5001c, 1, 0x0, 1, 0x0, 0x0, 0x0, 0x0, 0x0, 0x0, 0x1, 0x0⟩,
   ⟨0x50020, 1, 0x0, 1, 0x0, 0x0, 0x0, 0x0, 0x80000000, 0x0, 0x0, 0x400003ff⟩,
   ⟨0x50024, 1, 0x0, 1, 0x0, 0x0, 0x0, 0x0, 0x0, 0xff000000, 0x0, 0x0⟩,
   ⟨0x50040, 4, 0x4, 1, 0x0, 0x0, 0x0, 0x0, 0xffffffff, 0x0, 0x0, 0x0⟩,
   ⟨0x50060, 4, 0x4, 1, 0x0, 0x0, 0x0, 0x0, 0x0, 0x0, 0x0, 0xffffffff⟩,
   ⟨0x50080, 4, 0x4, 1, 0x0, 0x0, 0x0, 0x0, 0xffffffff, 0x0, 0x0, 0x0⟩,
   ⟨0x50200, 128, 0x4, 1, 0x0, 0x0, 0x0, 0x0, 0x0, 0x0, 0x0, 0xffffffff⟩,
   ⟨0x50400, 128, 0x4, 1, 0x0, 0x0, 0x0, 0x0, 0x0, 0x0, 0x0, 0x800000ff⟩,
   ⟨0x50600, 8, 0x4, 1, 0x0, 0x0, 0x0, 0x0, 0x0, 0x0, 0x0, 0xffff0000⟩]

/-- Section block 0x6_0000: 07_engine. -/
def secRows6 : List RegRow :=
  [⟨0x60000, 1, 0x0, 1, 0x0, 0x3, 0xf, 0x0, 0x0, 0x0, 0x0, 0x0⟩,
   ⟨0x60004, 1, 0x0, 1, 0x0, 0x0, 0x0, 0x0, 0x20000000, 0x0, 0x0, 0xdcff00ff⟩,
   ⟨0x60008, 1, 0x0, 1, 0x0, 0x0, 0x0, 0x0, 0x0, 0xffffffff, 0x0, 0x0⟩,
   ⟨0x6000c, 1, 0x0, 1, 0x0, 0x0, 0x0, 0x0, 0x800001ff, 0x0, 0x0, 0x0⟩,
   ⟨0x60010, 1, 0x0, 1, 0x0, 0x0, 0x0, 0x0, 0x80000000, 0x0, 0x0, 0xf0307ff⟩,
   ⟨0x60014, 1, 0x0, 1, 0x0, 0x0, 0x0, 0x0, 0xe0000000, 0x0, 0x0, 0xc000fff⟩,
   ⟨0x60018, 1, 0x0, 1, 0x0, 0x0, 0x0, 0x0, 0x0, 0x0, 0x0, 0xffffffff⟩,
   ⟨0x6001c, 1, 0x0, 1, 0x0, 0x0, 0x0, 0x0, 0x0, 0x0, 0x1, 0x0⟩,
   ⟨0x60020, 1, 0x0, 1, 0x0, 0x0, 0x0, 0x0, 0x0, 0x0, 0x0, 0xffff⟩,
   ⟨0x60100, 32, 0x4, 1, 0x0, 0x0, 0xffffffff, 0x0, 0x0, 0x0, 0x0, 0x0⟩,
   ⟨0x60180, 32, 0x4, 1, 0x0, 0x0, 0x0, 0x0, 0x0, 0x0, 0x0, 0xffffffff⟩,
   ⟨0x60400, 16, 0x10, 1, 0x0, 0x0, 0x0, 0x0, 0x0, 0x0, 0x0, 0xffffffff⟩,
   ⟨0x60404, 16, 0x10, 1, 0x0, 0x0, 0x0, 0x0, 0x0, 0x0, 0x0, 0xffffffff⟩,
   ⟨0x60408, 16, 0x10, 1, 0x0, 0x0, 0x0, 0x0, 0x0, 0x0, 0x0, 0xffffffff⟩,
   ⟨0x6040c, 16, 0x10, 1, 0x0, 0x1, 0x0, 0x0, 0x0, 0x0, 0x0, 0x7⟩,
   ⟨0x61000, 4, 0x100, 64, 0x4, 0x0, 0x0, 0x0, 0x0, 0x0, 0x0, 0xffffffff⟩,
   ⟨0x61400, 4, 0x4, 1, 0x0, 0xfac688, 0x0, 0x0, 0x0, 0x0, 0x0, 0xffffff⟩,
   ⟨0x64000, 4096, 0x4, 1, 0x0, 0x0, 0x0, 0x0, 0x0, 0x0, 0x0, 0xffffffff⟩,
   ⟨0x68000, 8, 0x800, 257, 0x4, 0x0, 0x0, 0x0, 0x0, 0x0, 0x0, 0xffffffff⟩,
   ⟨0x6c000, 2048, 0x4, 1, 0x0, 0x0, 0x0, 0x0, 0x0, 0x0, 0x0, 0xffffffff⟩]

/-- Section block 0x7_0000: 09_power_flow, 10_islanding. -/
def secRows7 : List RegRow :=
  [⟨0x70000, 1, 0x0, 1, 0x0, 0x3f3f3f, 0x0, 0x813f3f3f, 0x0, 0x0, 0x0, 0x0⟩,
   ⟨0x70004, 1, 0x0, 1, 0x0, 0x0, 0x0, 0xffffffff, 0x0, 0x0, 0x0, 0x0⟩,
   ⟨0x70008, 1, 0x0, 1, 0x0, 0x0, 0x0, 0xffffffff, 0x0, 0x0, 0x0, 0x0⟩,
   ⟨0x7000c, 1, 0x0, 1, 0x0, 0x14071c, 0x0, 0x7fffff, 0x0, 0x0, 0x0, 0x0⟩,
   ⟨0x70010, 1, 0x0, 1, 0x0, 0x6660ccd, 0x0, 0xffffffff, 0x0, 0x0, 0x0, 0x0⟩,
   ⟨0x70014, 1, 0x0, 1, 0x0, 0xc8, 0x0, 0xffff, 0x0, 0x0, 0x0, 0x0⟩,
   ⟨0x70018, 1, 0x0, 1, 0x0, 0x2666666, 0x0, 0xffffffff, 0x0, 0x0, 0x0, 0x0⟩,
   ⟨0x70020, 1, 0x0, 1, 0x0, 0x3, 0x0, 0x0, 0x100, 0x0, 0x0, 0x37⟩,
   ⟨0x70024, 1, 0x0, 1, 0x0, 0x0, 0x0, 0x0, 0x0, 0xffffff00, 0x0, 0x0⟩,
   ⟨0x70028, 1, 0x0, 1, 0x0, 0x0, 0x0, 0x0, 0x0, 0x0, 0x0, 0xffffffff⟩,
   ⟨0x7002c, 1, 0x0, 1, 0x0, 0x0, 0x0, 0x0, 0x0, 0x0, 0x0, 0xffffffff⟩,
   ⟨0x70030, 1, 0x0, 1, 0x0, 0x0, 0x0, 0x0, 0x0, 0x0, 0x0, 0xffffffff⟩,
   ⟨0x70034, 1, 0x0, 1, 0x0, 0x0, 0x0, 0x0, 0x0, 0x0, 0x0, 0xffffffff⟩,
   ⟨0x70038, 1, 0x0, 1, 0x0, 0x0, 0x0, 0x0, 0x0, 0x0, 0x0, 0xffffffff⟩,
   ⟨0x7003c, 1, 0x0, 1, 0x0, 0x0, 0x0, 0x0, 0x0, 0x0, 0x0, 0xffffffff⟩,
   ⟨0x70100, 4, 0x100, 1, 0x0, 0x3f3f, 0x0, 0xff003f3f, 0x0, 0x0, 0x0, 0x0⟩,
   ⟨0x70104, 4, 0x100, 1, 0x0, 0x3f3f3f, 0x0, 0x3f3f3f, 0x0, 0x0, 0x0, 0x0⟩,
   ⟨0x70108, 4, 0x100, 1, 0x0, 0x0, 0x0, 0xffffffff, 0x0, 0x0, 0x0, 0x0⟩,
   ⟨0x7010c, 4, 0x100, 1, 0x0, 0x0, 0x0, 0xffffffff, 0x0, 0x0, 0x0, 0x0⟩,
   ⟨0x70110, 4, 0x100, 1, 0x0, 0x0, 0x0, 0xffffffff, 0x0, 0x0, 0x0, 0x0⟩]
  ++ [⟨0x70114, 4, 0x100, 1, 0x0, 0x1f41388, 0x0, 0xffffffff, 0x0, 0x0, 0x0, 0x0⟩,
   ⟨0x70118, 4, 0x100, 1, 0x0, 0x3e80064, 0x0, 0xffffffff, 0x0, 0x0, 0x0, 0x0⟩,
   ⟨0x7011c, 4, 0x100, 1, 0x0, 0x0, 0x0, 0xffffffff, 0x0, 0x0, 0x0, 0x0⟩,
   ⟨0x70120, 4, 0x100, 1, 0x0, 0x0, 0x0, 0xffffffff, 0x0, 0x0, 0x0, 0x0⟩,
   ⟨0x70124, 4, 0x100, 1, 0x0, 0x0, 0x0, 0xffffffff, 0x0, 0x0, 0x0, 0x0⟩,
   ⟨0x70138, 4, 0x100, 1, 0x0, 0x640014, 0x0, 0xffffffff, 0x0, 0x0, 0x0, 0x0⟩,
   ⟨0x7013c, 4, 0x100, 1, 0x0, 0x18180028, 0x0, 0xffff3fff, 0x0, 0x0, 0x0, 0x0⟩,
   ⟨0x70140, 4, 0x100, 1, 0x0, 0x199a1a80, 0x0, 0xffffffff, 0x0, 0x0, 0x0, 0x0⟩,
   ⟨0x70144, 4, 0x100, 1, 0x0, 0xccd020a, 0x0, 0xffffffff, 0x0, 0x0, 0x0, 0x0⟩,
   ⟨0x70148, 4, 0x100, 1, 0x0, 0x0, 0x0, 0xffffffff, 0x0, 0x0, 0x0, 0x0⟩,
   ⟨0x7014c, 4, 0x100, 1, 0x0, 0x0, 0x0, 0xffffffff, 0x0, 0x0, 0x0, 0x0⟩,
   ⟨0x70150, 4, 0x100, 1, 0x0, 0x3f3f0078, 0x0, 0xbf3fffff, 0x0, 0x0, 0x0, 0x0⟩,
   ⟨0x70154, 4, 0x100, 1, 0x0, 0x0, 0x0, 0xffffffff, 0x0, 0x0, 0x0, 0x0⟩,
   ⟨0x70160, 4, 0x100, 1, 0x0, 0x0, 0x0, 0x0, 0x0, 0x0, 0xffff000f, 0x0⟩,
   ⟨0x70164, 4, 0x100, 1, 0x0, 0x0, 0x1, 0x0, 0x0, 0x0, 0x0, 0x0⟩,
   ⟨0x70168, 4, 0x100, 1, 0x0, 0x0, 0x0, 0x0, 0x7000000, 0x0, 0x0, 0x7f7fff⟩,
   ⟨0x7016c, 4, 0x100, 1, 0x0, 0x0, 0x0, 0x0, 0x0, 0xffffffff, 0x0, 0x0⟩,
   ⟨0x70128, 4, 0x100, 4, 0x4, 0x0, 0x0, 0xffffffff, 0x0, 0x0, 0x0, 0x0⟩,
   ⟨0x70158, 4, 0x100, 1, 0x0, 0x0, 0x0, 0xffffffff, 0x0, 0x0, 0x0, 0x0⟩,
   ⟨0x7015c, 4, 0x100, 1, 0x0, 0x0, 0x0, 0xffffffff, 0x0, 0x0, 0x0, 0x0⟩]
  ++ [⟨0x70170, 4, 0x100, 1, 0x0, 0x0, 0x0, 0x0, 0x0, 0x0, 0x0, 0xffffffff⟩,
   ⟨0x70174, 4, 0x100, 1, 0x0, 0x0, 0x0, 0x0, 0x0, 0x0, 0x0, 0xffffffff⟩,
   ⟨0x70178, 4, 0x100, 1, 0x0, 0x0, 0x0, 0x0, 0x0, 0x0, 0x0, 0xffffffff⟩,
   ⟨0x7017c, 4, 0x100, 1, 0x0, 0x0, 0x0, 0x0, 0x0, 0x0, 0x0, 0xffffffff⟩,
   ⟨0x70180, 4, 0x100, 1, 0x0, 0x0, 0x0, 0x0, 0x0, 0x0, 0x0, 0xffffffff⟩,
   ⟨0x70800, 1, 0x0, 1, 0x0, 0x1000, 0x8000ff00, 0x0, 0x0, 0x0, 0x0, 0x0⟩,
   ⟨0x70804, 1, 0x0, 1, 0x0, 0x0, 0x0, 0x0, 0x0, 0x0, 0x0, 0x8fff007f⟩,
   ⟨0x70808, 1, 0x0, 1, 0x0, 0x0, 0x0, 0x0, 0x0, 0x0, 0x0, 0xffffffff⟩,
   ⟨0x7080c, 1, 0x0, 1, 0x0, 0x0, 0xffffffff, 0x0, 0x0, 0x0, 0x0, 0x0⟩,
   ⟨0x70810, 1, 0x0, 1, 0x0, 0x10, 0x0, 0x0, 0xc0, 0x0, 0x0, 0x7f3f⟩,
   ⟨0x70814, 1, 0x0, 1, 0x0, 0x0, 0x0, 0x0, 0x0, 0x0, 0x0, 0x7f⟩,
   ⟨0x70828, 1, 0x0, 1, 0x0, 0x0, 0x0, 0x0, 0x0, 0x0, 0x0, 0xffffffff⟩,
   ⟨0x7082c, 1, 0x0, 1, 0x0, 0x0, 0x0, 0x0, 0x0, 0x0, 0x0, 0x7fffffff⟩,
   ⟨0x70830, 1, 0x0, 1, 0x0, 0x0, 0x0, 0x0, 0x0, 0xffffff00, 0x0, 0x0⟩,
   ⟨0x70818, 1, 0x0, 1, 0x0, 0x0, 0x0, 0x0, 0x0, 0x0, 0x0, 0xffffffff⟩,
   ⟨0x7081c, 1, 0x0, 1, 0x0, 0x0, 0x0, 0x0, 0x0, 0x0, 0x0, 0xffffffff⟩,
   ⟨0x70820, 1, 0x0, 1, 0x0, 0x0, 0x0, 0x0, 0x0, 0x0, 0x0, 0xffffffff⟩,
   ⟨0x70824, 1, 0x0, 1, 0x0, 0x0, 0x0, 0x0, 0x0, 0x0, 0x0, 0xffffffff⟩,
   ⟨0x70900, 1, 0x0, 1, 0x0, 0x0, 0x0, 0x3f, 0x0, 0x0, 0x0, 0x0⟩,
   ⟨0x70904, 1, 0x0, 1, 0x0, 0x0, 0x0, 0xffffffff, 0x0, 0x0, 0x0, 0x0⟩]
  ++ [⟨0x70908, 1, 0x0, 1, 0x0, 0x0, 0x0, 0xffffffff, 0x0, 0x0, 0x0, 0x0⟩,
   ⟨0x7090c, 1, 0x0, 1, 0x0, 0x0, 0x0, 0xffffffff, 0x0, 0x0, 0x0, 0x0⟩,
   ⟨0x70910, 1, 0x0, 1, 0x0, 0x0, 0x0, 0xffffffff, 0x0, 0x0, 0x0, 0x0⟩,
   ⟨0x70914, 1, 0x0, 1, 0x0, 0x0, 0x0, 0xffffffff, 0x0, 0x0, 0x0, 0x0⟩,
   ⟨0x70918, 1, 0x0, 1, 0x0, 0x0, 0x0, 0xffffffff, 0x0, 0x0, 0x0, 0x0⟩,
   ⟨0x7091c, 1, 0x0, 1, 0x0, 0x0, 0x0, 0xffffffff, 0x0, 0x0, 0x0, 0x0⟩,
   ⟨0x70920, 1, 0x0, 1, 0x0, 0x0, 0x0, 0xffffffff, 0x0, 0x0, 0x0, 0x0⟩,
   ⟨0x70924, 1, 0x0, 1, 0x0, 0x0, 0x0, 0xffffffff, 0x0, 0x0, 0x0, 0x0⟩,
   ⟨0x70928, 1, 0x0, 1, 0x0, 0x0, 0x0, 0xffff, 0x0, 0x0, 0x0, 0x0⟩,
   ⟨0x7092c, 1, 0x0, 1, 0x0, 0x0, 0x0, 0x0, 0x7f00, 0x0, 0x0, 0x7f⟩]

/-- The rows of the device block that holds an offset (R21). -/
def devRows (a : Nat) : List RegRow :=
  match a / 0x10000 with
  | 0 => devRows0
  | 1 => devRows1
  | 2 => devRows2
  | 3 => devRows3
  | 4 => devRows4
  | 5 => devRows5
  | 6 => devRows6
  | 7 => devRows7
  | 8 => devRows8
  | 9 => devRows9
  | 10 => devRows10
  | 11 => devRows11
  | _ => []

/-- The rows of the section block that holds an offset (R21). -/
def secRows (a : Nat) : List RegRow :=
  match a / 0x10000 with
  | 0 => secRows0
  | 1 => secRows1
  | 2 => secRows2
  | 3 => secRows3
  | 4 => secRows4
  | 5 => secRows5
  | 6 => secRows6
  | 7 => secRows7
  | _ => []

/-- The map entry of a section source without a map record: its default severity and, for SHOOT_REQ, its escalation of
3 events within 1 ms to severity 4 (R257). -/
def secMapDefault (n : Nat) : Nat :=
  if n < 8 then [4, 1, 4, 3, 1, 1, 0, 0].getD n 0
  else if n < 40 then [2, 2, 2, 4, 2, 0x140E2, 2, 1].getD ((n - 8) % 8) 0
  else if n < 48 then [1, 1, 4, 4, 1, 2, 1, 0].getD (n - 40) 0
  else if n < 64 then 2
  else if n < 80 then [2, 1, 4, 4, 4, 4, 4, 4, 4].getD (n - 64) 0
  else if n < 120 then [1, 4, 2, 2, 2, 2, 3, 4, 4, 3].getD ((n - 80) % 10) 0
  else if n < 128 then 2 else 0

/-- The map entry of a device source without a map record: its default severity (R258). -/
def devMapDefault (n : Nat) : Nat :=
  ([5, 1, 2, 2, 5, 2, 4, 4, 4, 4, 2, 2, 2, 2, 4, 4, 4, 4, 4, 4, 4] ++ [1, 1, 1, 2, 2, 1, 1, 1, 1, 1, 2, 5, 2, 2, 1, 2, 2] ++
    [2, 2, 1, 1, 2, 2, 1, 1, 1, 1, 5, 5, 5, 5, 6, 6, 6, 6, 6]).getD n 0

/-- The row of a device register, by its byte address. -/
def devRow (a : Nat) : Option RegRow := (devRows a).find? (·.covers a)

/-- The row of a section register, by its offset in the section window. -/
def secRow (a : Nat) : Option RegRow := (secRows a).find? (·.covers a)

/-- The reset value of the device register at an address; 0 where none is mapped. -/
def devReset (a : Nat) : W :=
  if decide (0x20200 ≤ a) && decide (a < 0x20300) then BitVec.ofNat 32 (devMapDefault ((a - 0x20200) / 4))
  else match devRow a with | some r => BitVec.ofNat 32 r.reset | none => 0

/-- The reset value of the section register at a window offset; 0 where none is mapped. -/
def secReset (a : Nat) : W :=
  if decide (0x50200 ≤ a) && decide (a < 0x50400) then BitVec.ofNat 32 (secMapDefault ((a - 0x50200) / 4))
  else match secRow a with | some r => BitVec.ofNat 32 r.reset | none => 0

end Sys2Proof.Machine
end

