-- ==== Sys2Proof/Machine/Table.lean ====
section
/-! DEFINITION. Sparse tables in one canonical form: reading, writing and clearing entries, and the form itself.
Registers, memories and arrays of parts are held in such tables. -/

namespace Sys2Proof.Machine

/-- The value at a key: the listed one, or the default of that key. -/
def Tbl.get {α : Type} (d : Nat → α) : Tbl α → Nat → α
  | [], k => d k
  | (j, v) :: t, k => if j = k then v else Tbl.get d t k

/-- A table without the entry of a key. -/
def Tbl.erase {α : Type} (k : Nat) : Tbl α → Tbl α
  | [] => []
  | (j, v) :: t => if j = k then Tbl.erase k t else (j, v) :: Tbl.erase k t

/-- A table with an entry put at its place in the order; an entry of the same key is replaced. -/
def Tbl.insert {α : Type} (k : Nat) (a : α) : Tbl α → Tbl α
  | [] => [(k, a)]
  | (j, v) :: t =>
    if k < j then (k, a) :: (j, v) :: t
    else if k = j then (k, a) :: t
    else (j, v) :: Tbl.insert k a t

/-- A table with the value of a key set: the default of the key removes its entry. -/
def Tbl.set {α : Type} [DecidableEq α] (d : Nat → α) (t : Tbl α) (k : Nat) (a : α) : Tbl α :=
  if a = d k then Tbl.erase k t else Tbl.insert k a t

/-- A table with the value of a key changed by a function. -/
def Tbl.upd {α : Type} [DecidableEq α] (d : Nat → α) (t : Tbl α) (k : Nat) (f : α → α) : Tbl α :=
  Tbl.set d t k (f (Tbl.get d t k))

/-- A table with every entry removed whose key does not satisfy the test. -/
def Tbl.keep {α : Type} (p : Nat → Bool) (t : Tbl α) : Tbl α := t.filter (fun e => p e.1)

/-- The canonical form: keys strictly rising above a bound, and no entry equal to the default of its key. -/
def Tbl.okFrom {α : Type} [DecidableEq α] (d : Nat → α) : Option Nat → Tbl α → Bool
  | _, [] => true
  | lo, (j, v) :: t =>
    (match lo with | none => true | some l => decide (l < j)) && decide (v ≠ d j) && Tbl.okFrom d (some j) t

/-- The canonical form of a table. -/
def Tbl.ok {α : Type} [DecidableEq α] (d : Nat → α) (t : Tbl α) : Bool := Tbl.okFrom d none t

/-- Entries written one after the other from a key upward. -/
def Tbl.setList {α : Type} [DecidableEq α] (d : Nat → α) (t : Tbl α) (k : Nat) : List α → Tbl α
  | [] => t
  | a :: as => Tbl.setList d (Tbl.set d t k a) (k + 1) as

/-- The values of n keys from a key upward. -/
def Tbl.getList {α : Type} (d : Nat → α) (t : Tbl α) (k : Nat) : Nat → List α
  | 0 => []
  | n + 1 => Tbl.get d t k :: Tbl.getList d t (k + 1) n

end Sys2Proof.Machine
end

