-- ==== Sys2Proof/Machine/State.lean ====
section
/-! DEFINITION. The state of the block: every register, memory, counter, mode and pin the spec gives it, as plain data,
with the queue of waiting commands; the faults and refusals of a step; and the state after reset. -/

namespace Sys2Proof.Machine

/-- The faults of a step. No command of this block stops the machine with a fault: the spec gives every command an
effect, so this type has no constructor that a meaning raises; safe. -/
inductive Fault where
  /-- Raised by nothing: it only makes the type inhabited. Safe. -/
  | unreachable
  deriving DecidableEq, Repr

/-- The refusals of a step. -/
inductive Refusal where
  /-- Raised by Machine/Dispatch.lean for a command that has no meaning yet. Safe: the machine stops. -/
  | notModelled (mnemonic : String)
  deriving DecidableEq, Repr

/-- A source pair at its collector (R260, R261). `drive` is what the detector holds, `pulse` that it holds the
pair only for the time of one event, `level` what the collector has taken, `broken` that the pair is declared broken,
`inj` the INJ mark that the assertion carries (R273). -/
structure Pair where
  drive : Bool := false
  pulse : Bool := false
  level : Bool := false
  broken : Bool := false
  inj : Bool := false
  deriving DecidableEq, Repr

/-- One entry of a collector's log: the FC_LOG_HEAD word and the stamp (R271). -/
structure LogEntry where
  head : W
  time : W
  deriving DecidableEq, Repr

/-- A fault collector beside its registers (R256 to R277): the source pairs, the log oldest first, and the severity
that was applied to the last event of each source. -/
structure Collector where
  pairs : Tbl Pair := []
  log : List LogEntry := []
  applied : Tbl Nat := []
  deriving DecidableEq, Repr

/-- A PLL beside its registers (R63 to R70). `band` is the band entry chosen at the last lock: its limits in MHz above
4,000. `ssOn` is the spread setting applied, `ssPend` that PLL_SS waits for the next triangle minimum. `relock` is a
relock commanded by a PLL_FREQ write. `phase` counts all phase steps applied. `off` is how far the output still lies
from the programmed frequency during a return from fall-back, in ppm. -/
structure Pll where
  band : Option (Nat × Nat) := none
  ssOn : W := 0
  ssPend : Bool := false
  relock : Bool := false
  phase : Int := 0
  off : Int := 0
  deriving DecidableEq, Repr

/-- A window result (R88): the ACC_STAT, ACC_SUM, ACC_MINMAX and ACC_TSTAMP words. -/
structure AccRes where
  stat : W := 0
  sum : W := 0
  minmax : W := 0
  tstamp : W := 0
  deriving DecidableEq, Repr

/-- An accumulator beside its registers (R80 to R90): the open window with its sum, count, extremes and marks, the
closing events counted in it, whether no code of the channel has come since its last boundary and the section time of
that boundary, the next boundary of TIME mode in ns, SEQ, the pending mark of the section, the result the section has
received, and the result that the running tick has fixed by its first read. -/
structure Acc where
  isOpen : Bool := false
  sum : Int := 0
  cnt : Nat := 0
  mn : Int := 8191
  mx : Int := -8192
  sat : Bool := false
  chg : Bool := false
  first : Bool := false
  closes : Nat := 0
  fresh : Bool := false
  tB : Nat := 0
  due : Option Nat := none
  seq : Nat := 0
  pend : Bool := false
  got : AccRes := {}
  fixed : Option AccRes := none
  deriving DecidableEq, Repr

/-- The decimator of a channel (R93): the four integrators and combs of its CIC stage, the samples since the last CIC
output, the CIC outputs that the half-band stage holds, newest first, whether the next one gives a stream word, the
stream words since the converter started, and the latest of them, newest first, each with the time it stands for in
1/256 ns. -/
structure Decim where
  int : List Int := [0, 0, 0, 0]
  comb : List Int := [0, 0, 0, 0]
  cnt : Nat := 0
  fir : List Int := []
  half : Bool := false
  outs : Nat := 0
  out : List (Int × Int) := []
  deriving DecidableEq, Repr

/-- A leg of a section beside its registers: its PWM slice (R96 to R112) and its gate interface (R118 to R143). Times
count sixteenths of a PWM clock in the section's own time. -/
structure LegState where
  /-- The counter runs (R117). -/
  run : Bool := false
  /-- Counting up. -/
  up : Bool := true
  /-- The instant from which the edges of the present half period or period are counted. -/
  tEv : Int := 0
  /-- The counter of a sawtooth leg at that instant. -/
  cEv : Nat := 0
  /-- The instant of the last VALLEY. -/
  tVal : Int := 0
  /-- The next carrier event, none while a variable period waits for its event. -/
  next : Option Int := none
  /-- Whether that event is a PEAK. -/
  nextPeak : Bool := true
  /-- The configuration in use: CAR_CFG, LEG_LIM, SW_MAP, VP_SRC (R436). -/
  cfg : W := 0
  lim : W := 0xF0000000
  map : W := 0x333333
  vps : W := 0
  /-- The pending timing set, eleven words (R106). -/
  pend : Option (List W) := none
  /-- An IMMEDIATE set on its way to the running period, and the one that acts in it (R108). -/
  immWait : Option (List W) := none
  imm : Option (List W) := none
  /-- The levels of the three units, and the compares that have had their edge. -/
  u : List Bool := [false, false, false]
  doneA : List Bool := [false, false, false]
  doneB : List Bool := [false, false, false]
  /-- Turn-ons that wait for their DT_ON: the switch and its instant (R102). -/
  dt : List (Nat × Nat) := []
  /-- The requests of stage 1, before and after the bridge's permission. -/
  req1 : BitVec 6 := 0
  perm : Bool := false
  permEnds : Bool := false
  /-- The request after stage 2, the interlock output, the turn-ons waiting for a floor (R121), those withheld
  (R119), those of a pair requested on (R120). -/
  req : BitVec 6 := 0
  out : BitVec 6 := 0
  wait : List (Nat × Nat) := []
  held : BitVec 6 := 0
  shoot : BitVec 6 := 0
  /-- The last turn-off of each switch. -/
  offT : List Nat := [0, 0, 0, 0, 0, 0]
  /-- The levels at the gate balls, and the switches inside turn-on blanking with its end (R129). -/
  ball : BitVec 6 := 0
  blank : List (Nat × Nat) := []
  /-- The two-step turn-off (R133 to R137): 0 idle, 1 step 1, 2 inner switches pending, 3 complete; the levels that
  stage 4 holds; whether the sequence turns every switch off; the safe-level ON switches that wait for a floor; and
  that only the back-up delay line can end the plateau. -/
  step : Nat := 0
  frozen : BitVec 6 := 0
  allOff : Bool := false
  safeWait : List (Nat × Nat) := []
  clockDead : Bool := false
  /-- After an accepted CLR the leg waits for its next RELOAD (R112, R139). -/
  holdReload : Bool := false
  /-- Comparators not yet released to the good side (R132), and a failed or running self-test (R142, R143). -/
  nr1 : Bool := true
  nr2 : Bool := true
  /-- The filtered trip inputs (R110). -/
  trip : BitVec 4 := 0
  /-- A rising edge of the variable-period event input that the leg has not taken (R104). -/
  vpEdge : Bool := false
  /-- Bootstrap (R124 to R126): a low-side pulse runs, its end once the low side is on, the pulses of a precharge train
  still to be completed, a train is due, since when the high side has been on, from when the T_BS timer runs after a
  refresh pulse, and when the low side last conducted. -/
  bsPulse : Bool := false
  bsEnd : Option Nat := none
  train : Nat := 0
  trainDue : Bool := false
  hiSince : Option Nat := none
  bsFrom : Option Nat := none
  loLast : Nat := 0
  /-- The levels that gate removal by the safety block holds (R286). -/
  frozen5 : BitVec 6 := 0
  deriving DecidableEq, Repr

/-- Carrier alignment of a section beside its registers (R113 to R116): the grid start in 64-bit ns, the errors of the
last valleys, newest first, whether EN has been written 1 since the section boot, whether an offset jump was accepted
since then, and whether ALIGN_T0 has been written since that jump. -/
structure AlignState where
  base : Nat := 0
  errs : List Int := []
  begun : Bool := false
  jump : Bool := false
  t0New : Bool := false
  deriving DecidableEq, Repr

/-- A bridge of a section as its BRIDGE record declares it (R43): KIND 0 is no bridge. -/
structure BridgeCfg where
  kind : Nat := 0
  mask : BitVec 4 := 0
  sBase : Nat := 0
  vBase : Nat := 0
  iBase : Nat := 0
  vdcBase : Nat := 0
  scope : Nat := 0
  deriving DecidableEq, Repr

/-- A second-order generalised integrator of the observer (R199): in-phase and quadrature outputs and the last input,
in pu with 48 fraction bits. -/
structure Sogi where
  p : Int := 0
  q : Int := 0
  v : Int := 0
  deriving DecidableEq, Repr

/-- The grid angle tracking observer (R199 to R202). Angles are fractions of a turn and all other quantities pu, with
48 fraction bits. `mode` is 0 TRACK, 1 HOLD, 2 LOST, 3 off. `rel` is the last angle of the raw vector relative to
theta, `hist` the last frequencies with their step times, newest first, `clampT` how long w has lain at a limit,
`wrap` that theta has passed 0 in the last update, `turn` that a whole turn of theta is being measured, `turnOk` that
it qualifies so far. The results are words; `ev` marks entry to HOLD (bit 0), entry to LOST (bit 1), a re-seeded jump
(bit 2) and a completed turn (bit 3) of the last update. -/
structure Obs where
  mode : Nat := 3
  theta : Int := 0
  w : Int := 281474976710656
  wi : Int := 0
  sa : Sogi := {}
  sb : Sogi := {}
  rel : Option Int := none
  hist : List (Int × Int) := []
  clampT : Int := 0
  wrap : Bool := false
  turn : Bool := false
  turnOk : Bool := false
  resSum : Int := 0
  resCnt : Nat := 0
  qual : Nat := 0
  valid : Bool := false
  va : Int := 0
  vb : Int := 0
  cen : Int := 0
  oTheta : W := 0
  oW : W := 0
  oRocof : W := 0
  oPos : W := 0
  oNeg : W := 0
  oLo : W := 0
  oHi : W := 0
  oRes : W := 0
  oJump : W := 0
  oVs : W := 0
  ev : BitVec 4 := 0
  deriving DecidableEq, Repr

/-- The current-set, power and MPPT units of a bridge (R197, R211, R218 to R220). `rip` and `sumN` count windows, `po`
holds the sums of a turn (positive and negative sequence, squares of the phases) over `poN` ticks, `poRun` that the
bridge has been in RUN in all of them, `poCnt` the turns that looked open. `ev` marks CUR_RECON (bit 0), CUR_LOST (bit
1) and PHASE_OPEN (bit 2) of the last update, `newF` the phases it marked. The MPPT sums run over `mn` ticks of `mt`
triggers; `mrec` tells that the interval only records. -/
structure BrAst where
  failed : BitVec 3 := 0
  rip : List Nat := [0, 0, 0]
  sumN : Nat := 0
  cur : List Int := [0, 0, 0]
  cur1 : List Int := [0, 0, 0]
  p : W := 0
  q : W := 0
  p1 : W := 0
  q1 : W := 0
  vdc : W := 0
  ipre : W := 0
  po : List Int := [0, 0, 0, 0, 0, 0, 0]
  poN : Nat := 0
  poRun : Bool := true
  poCnt : Nat := 0
  ev : BitVec 3 := 0
  newF : Nat := 0
  mv : Int := 0
  mi : Int := 0
  mn : Nat := 0
  mt : Nat := 0
  mvPrev : Int := 0
  miPrev : Int := 0
  mrec : Bool := true
  vref : Int := 0
  flags : BitVec 3 := 1
  deriving DecidableEq, Repr

/-- The assist state that is committed with the engine state (R194). -/
structure Asst where
  obs : Obs := {}
  br : Quad BrAst := Quad.all {}
  deriving DecidableEq, Repr

/-- A bridge sequencer beside BR_STAT (R205, R206): the commands that wait for the next tick boundary, whether the
precharge has qualified, whether the conditions of SYNC and of the end of RIDE held at the last commit, that SYNC_T has
elapsed, and which of
the five ride-through timers run (bits 0 to 3 the segments, bit 4 HV_T). -/
structure BrSeq where
  cmds : List Nat := []
  preOk : Bool := false
  syncOk : Bool := false
  syncDone : Bool := false
  rideOk : Bool := false
  segs : BitVec 5 := 0
  deriving DecidableEq, Repr

/-- The angle record that a commit publishes to the SYS side (R203). -/
structure AngleRec where
  theta : W := 0
  w : W := 0
  ns : Nat := 0
  valid : Bool := false
  deriving DecidableEq, Repr

/-- The grid assist block of a section beside its registers: committed and pending state, the sequencers, VALID as the
sequencers saw it last, the last angle record, and the passive islanding timers that run (UV0, UV1, OV0, OV1, UF0, UF1,
OF0, OF1, ROCOF; R224). -/
structure AsstBlock where
  st : Asst := {}
  pend : Option Asst := none
  seq : Quad BrSeq := Quad.all {}
  validSeen : Bool := false
  angle : AngleRec := {}
  pasRun : BitVec 9 := 0
  deriving DecidableEq, Repr

/-- A response record of a section (R231): the chip index it used, the injected reactive current and the injection its
bridges were asked for in pu of the angle bridge, RIDE, and for the angle section |V+|, the angle step and VALID. -/
structure IslRec where
  sec : Nat
  chip : Nat
  i : Int
  areq : Int
  ride : Bool
  vpos : Int
  psi : Int
  valid : Bool
  deriving DecidableEq, Repr

/-- An included chip of the window (R231): the means of |V+|, the angle and the current, and the chip value. -/
structure IslChip where
  m : Int
  psi : Int
  i : Int
  c : Int
  deriving DecidableEq, Repr

/-- The islanding correlator of the device beside its registers, which are kept by window offset (R226 to R234): the
records of chips not yet evaluated, the window of included chips, newest first, the accumulated angle, the count
towards CONF, that FREE or ALIGNED begins at a coming chip boundary, the ticks of the angle section by chip index, the
T0 in force and an accepted one in 64-bit ns, the number of the open chip since the former, a closed chip that waits
for its last record, and whether the base image holds an ISLAND record. -/
structure Isl where
  regs : Tbl W := []
  recs : List IslRec := []
  win : List IslChip := []
  psi : Int := 0
  conf : Nat := 0
  toFree : Bool := false
  toAligned : Bool := false
  ticks : Tbl Nat := []
  base : Nat := 0
  toBase : Nat := 0
  n : Nat := 0
  closing : Option Nat := none
  present : Bool := false
  deriving DecidableEq, Repr

/-- A profile channel (R166): TGT in Q5.27, X in Q5.59, V and A in Q16.48, as signed integers. -/
structure Prof where
  tgt : Int := 0
  x : Int := 0
  v : Int := 0
  a : Int := 0
  deriving DecidableEq, Repr

/-- The engine state of a section (R161): working registers (register r of context c at 64 c + r), the 16 profile
channels, the eight selectors of each context in one word, and the limit block of each channel's last step (R167). -/
structure EngSt where
  wreg : Tbl W := []
  prof : Tbl Prof := []
  sel : Quad W := Quad.all 0xFAC688
  plim : Tbl (Option Nat) := []
  deriving DecidableEq, Repr

/-- What one engine of the pair has been loaded with (R49, R46, R163): its program, coefficients and tables, its input
map (0xFFFFFFFF for a slot without entry), and the words found uncorrectable, as memory and address. -/
structure EngImg where
  layout : W := 0
  count : Nat := 0
  worst : Nat := 0
  entry : Quad Nat := Quad.all 0
  prog : Tbl W := []
  coef : Tbl W := []
  lut : Tbl W := []
  imap : Tbl W := []
  bad : List (Nat × Nat) := []
  deriving DecidableEq, Repr

/-- The inputs of a tick as they are fixed at its start or at their first read (R154), with the duty buffer at run
start (R156), the network time of the tick start in ns, whether the tick's assist update is complete
(R195), the chip of the islanding code (R230), and CAR_CFG of the legs as the duty buffer takes it (R160). -/
structure TickIn where
  delta : Nat := 0
  first : Bool := true
  time : W := 0
  timeNs : Nat := 0
  inv : Bool := false
  derate : W := 0
  host : Tbl W := []
  items : Tbl (Option W) := []
  buf : Quad (List W) := Quad.all []
  assist : Bool := false
  chip : Nat := 0
  cfg : Quad W := Quad.all 0
  deriving DecidableEq, Repr

/-- A run of an engine (R152 to R160): the engine clock at which the next instruction issues, the clocks of execution,
the program counter and context, the flags, the call stack, the pending state, the groups that saturated, and why the
run waits: a stall on a result or an item, a WAIT and the clock that ends it, a rollback and the clock at which the
recompute starts. -/
structure EngRun where
  again : Bool := false
  clk : Nat := 0
  exe : Nat := 0
  pc : Nat := 0
  ctx : Nat := 0
  z : Bool := false
  n : Bool := false
  l : Bool := false
  w : Bool := false
  satf : Bool := false
  marks : BitVec 9 := 0
  stack : List Nat := []
  stepped : BitVec 16 := 0
  st : EngSt := {}
  buf : Quad (List W) := Quad.all []
  outs : Tbl (Option W) := []
  reqs : BitVec 16 := 0
  sends : List (Nat × List W) := []
  stall : Bool := false
  wait : Option Nat := none
  roll : Option Nat := none
  deriving DecidableEq, Repr

/-- The engine pair of a section (R150 to R174). `mode` is 0 LOCKSTEP, 1 SOLO_A, 2 SOLO_B. `init` is INITIAL_STATE
as loaded, `injMis` an injected mismatch that waits for its COMMIT (R401). During couching `prun` is engine B's proof
run, `pst` B's committed state, `pfirst` its FIRST and `pdead` its DEADLINE (R350). -/
structure EngPair where
  mode : Nat := 0
  imgA : EngImg := {}
  imgB : EngImg := {}
  st : EngSt := {}
  run : Option EngRun := none
  tin : TickIn := {}
  ctx : Nat := 0
  first : Bool := true
  lastTrig : W := 0
  stale : Nat := 0
  live : Tbl W := []
  outs : Tbl W := []
  seq : W := 0
  init : EngSt := {}
  injMis : Bool := false
  prun : Option EngRun := none
  pst : EngSt := {}
  pfirst : Bool := true
  pdead : Nat := 0
  deriving DecidableEq, Repr

/-- Couching of a section beside its registers (R346 to R353). `wraps` are the passes through zero still to come after
ARM, `due` that activation has come and the section's next tick start begins it. `loaded` tells that B holds the proof
sheet and waits for its first tick, `done` B's COMMIT mask in the present tick, `aDone` that A has committed in it,
`ready` that the engine outside lockstep is reloaded and checked and waits for a tick start, `fails` the failed checks
of A, `back` that B rejoins after an abandoned couching. `img`, `init` and `map` are the new sheet's engine image,
INITIAL_STATE and STATE_MAP words, `deadline` and `fcmap` the TICK_DEADLINE and the fault map that apply at takeover,
`builds` its SHEET_BUILD and PROG_BUILD, `arbs` its anti-rollback words, `place` where the copy lies in the active
bank with its size, `meas` its measurements (sheet and program). -/
structure Couch where
  passes : Nat := 0
  due : Bool := false
  loaded : Bool := false
  done : Option Nat := none
  aDone : Bool := false
  ready : Bool := false
  fails : Nat := 0
  back : Bool := false
  img : EngImg := {}
  init : EngSt := {}
  map : List W := []
  deadline : W := 0
  fcmap : List W := []
  builds : W × W := (0, 0)
  arbs : W × W := (0, 0)
  place : Nat × Nat := (0, 0)
  meas : List Byte × List Byte := ([], [])
  deriving DecidableEq, Repr

/-- A write to storage that keeps its content without power, ordered by the command that runs: bytes of an MRAM bank
at an offset of the MRAM windows, bytes of the FeRAM, the STATUS bits of a proof-directory entry (R328), an
anti-rollback counter raised (R336), an owner slot burned, vendor slots revoked, FIELD and RETURNED entered, the plate
key (R335, R334, R342, R337), a device boot counted. -/
inductive NvOp where
  | mram (off : Nat) (bytes : List Byte)
  | feram (off : Nat) (bytes : List Byte)
  | proofStatus (entry status : Nat)
  | arb (index : Nat) (value : W)
  | owner (ecdsa hss : List Byte)
  | revoke (slots : BitVec 8)
  | field
  | returned
  | plateKey (k : List Byte)
  | boot
  deriving DecidableEq, Repr

/-- The safety block beside its registers (R278 to R290). `fresh` holds until the first exit from TRIPPED after INIT,
`conf` the outputs that count as confirmed with FBK_MODE 1, `since` the trip causes since the block was last READY,
`ramp` the sources to raise when the category-1 ramp ends, `rampInj` those of them that an injection tripped,
`offPend` that SO0 to SO2 are still to be de-energised, `shunt` that an SO3 pulse is owed, `weld` that the check for a
welded main contactor runs, `win` the outputs inside the 100 ms in which their contactor may still follow, `step5` the
stage of gate removal (0 none, 1 plateau, 2 removed), and `self` that the SAFE domain itself has failed. -/
structure SafeState where
  fresh : Bool := true
  conf : BitVec 4 := 0
  since : BitVec 4 := 0
  ramp : BitVec 4 := 0
  rampInj : BitVec 4 := 0
  offPend : Bool := false
  shunt : Bool := false
  weld : Bool := false
  win : BitVec 4 := 0
  step5 : Nat := 2
  self : Bool := false
  deriving DecidableEq, Repr

/-- A delivered harmonic window (R250, R251): the result words of both windows by register index, whether it ended in
FREE or holds a saturated sample, and the time of its first sample. -/
structure HarmRes where
  harm : Tbl W
  supra : Tbl W
  free : Bool
  sat : Bool
  time : W
  deriving DecidableEq, Repr

/-- The harmonic window in progress (R250, R251): per channel the sums of the samples at each of the 256 angles and of
their squares, over `n` samples of `cycles` cycles; whether it is discarded; its start in 1/256 ns; the times of
saturated samples; and per channel the time from which the next block is cut, and the end and the band powers of each
block. -/
structure HarmWin where
  on : Bool := false
  cycles : Nat := 0
  n : Nat := 0
  sums : List (List Int) := []
  sqs : List Nat := []
  drop : Bool := false
  start : Int := 0
  sats : List Int := []
  next : List Int := List.replicate 7 0
  blks : List (List (Int × List Nat)) := List.replicate 7 []
  deriving DecidableEq, Repr

/-- The angle that a metering point extrapolates (R238): θ in 2^-32 turn at a time in 1/256 ns, and w in Q5.27. -/
structure AngBase where
  theta : Int := 0
  w : Int := 134217728
  t : Int := 0
  deriving DecidableEq, Repr

/-- A line cycle (R239), by instants in 1/256 ns: its start and end, its samples in order (newest first while it is
open), and the up to 64 samples before it; whether it ended in FREE, and whether a change of the angle source ended
it. -/
structure Cycle where
  start : Int := 0
  stop : Int := 0
  smp : List Int := []
  pre : List Int := []
  free : Bool := false
  changed : Bool := false
  deriving DecidableEq, Repr

/-- A metering point beside its registers (R236 to R252): its totals by 28 FUND + 7 PH + QTY in 2^-32 of a unit; its
angle once it has one, the time up to which the passes of the angle are known, the 1/256 turn that it passes next, the
last 64 sample instants, newest first, the open cycle, and the ended ones whose quantities are still to be computed;
the cycles and the live counts and tallies of the energy window, whether it is the first since start, the latched
window (counts, tallies, time), the harmonic window in progress, the last delivered one and how many were delivered.
-/
structure Point where
  tot : Tbl Nat := []
  ang : Option AngBase := none
  upto : Int := 0
  idx : Nat := 0
  past : List Int := []
  cyc : Option Cycle := none
  done : List Cycle := []
  cycles : Nat := 0
  live : List Nat := List.replicate 7 0
  tally : List Nat := List.replicate 7 0
  first : Bool := true
  latched : List W := List.replicate 7 0
  wrap : W := 0
  wtime : W := 0
  win : HarmWin := {}
  res : Option HarmRes := none
  hseq : Nat := 0
  deriving DecidableEq, Repr

/-- A pulse output beside its registers (R253): the accumulation since the last due pulse as a fraction acc / den of
2^-32 of a unit, and whether a pulse is driven. -/
structure PulseOut where
  acc : Nat := 0
  den : Nat := 1
  on : Bool := false
  deriving DecidableEq, Repr

/-- The network time counter (R294 to R301). `c` is the raw counter C, `tb` and `cb` the base pair, `tb` in 2^-28 ns.
`wraps` and `stepped` are what the next TIME_NS snapshot of each port will report (R297, R311). `passes` counts every
pass of T through 0 by counting. -/
structure TimeState where
  c : Nat := 0
  cb : Nat := 0
  tb : Nat := 0
  wraps : Quad Nat := Quad.all 0
  stepped : Quad Bool := Quad.all false
  passes : Nat := 0
  deriving DecidableEq, Repr

/-- A foreign-master entry beside its registers (R303): the arrival times of its Announces in ns, newest first, and
the announce interval in ns. -/
structure FmEntry where
  times : List Nat := []
  interval : Nat := 0
  deriving DecidableEq, Repr

/-- A launch slot in use (R305): its number, the queue and the ring index of its frame, and the launch time. -/
structure LaunchSlot where
  slot : Nat
  queue : Nat
  ring : Nat
  l : W
  deriving DecidableEq, Repr

/-- An Ethernet port beside its registers: the launch slots in use, the entries behind the head of a queue that are
already completed (queue and ring index), the foreign masters, the last frame that left at the balls, with its
frame check sequence, and the end of the last timed frame on the scale of `Dev.up`. -/
structure EthPort where
  busy : Nat := 0
  slots : List LaunchSlot := []
  done : List (Nat × Nat) := []
  fm : Quad FmEntry := Quad.all {}
  lastTx : List Byte := []
  deriving DecidableEq, Repr

/-- A CAN port beside its registers: the last frame sent, as the four descriptor words and its data. -/
structure CanPort where
  lastTx : List W × List Byte := ([], [])
  deriving DecidableEq, Repr

/-- A UART beside its registers: the last transmit entry sent. -/
structure UartPort where
  lastTx : List Byte := []
  deriving DecidableEq, Repr

/-- An I2C controller beside its registers: the transaction in progress (the I2C_CMD word and the bytes to write). -/
structure I2cPort where
  cmd : Option (W × List Byte) := none
  deriving DecidableEq, Repr

/-- A Dorlin link beside its registers (R324 to R326): the SEQ of the next downward frame, the twelve downward bytes
that every frame carries, the last downward frame, the identity bytes gathered with the SEQ of the last valid
frame, the time of the latest valid frame in 4 ns since device reset, and that DL_LOST has been raised since then. -/
structure DlLink where
  seq : Nat := 0
  down : List Byte := List.replicate 12 0
  lastDown : List Byte := []
  run : Nat := 0
  lastSeq : Option Nat := none
  idA : List Byte := List.replicate 16 0
  idB : List Byte := List.replicate 16 0
  stamp : Nat := 0
  lost : Bool := false
  deriving DecidableEq, Repr

/-- A port in compatibility mode (R355 to R369): the forerunner registers that the host writes and the ADC results, by
address; whether the claimed section has reached READY since it booted, so that the port answers; RUN; the bits ESD,
ADCOVR and SPIERR as the port keeps them (bits 6, 5 and 4 of FAULT); ADCSTAT.NEW and whether a sampling window is
open; the counts of EVCNT; the 24 bits that the next frame returns, and those that the last one returned. -/
structure CompatPort where
  regs : Tbl W := []
  live : Bool := false
  run : Bool := false
  esd : Bool := false
  adcOvr : Bool := false
  spiErr : Bool := false
  fresh : BitVec 8 := 0
  win : Bool := false
  tripEv : Nat := 0
  spiEv : Nat := 0
  reply : W := 0
  miso : W := 0
  deriving DecidableEq, Repr

/-- A host port beside its registers: the words that its last native frame returned, all bytes that it drove in that
frame (data, CRC, STATUS, NOT STATUS; R309), and its part in compatibility mode. -/
structure HostPort where
  data : List W := []
  answer : List Byte := []
  cp : CompatPort := {}
  deriving DecidableEq, Repr

/-- The fuses (R333, R78, R342): UID and device secret, the hashes of the vendor slots, the revoked slots (bit n the
ECDSA slot n, bit 4 + n the HSS slot n), the hashes of the owner slots that are burned, the security state
(0 DEVELOPMENT, 1 FIELD, 2 RETURNED), and the factory OFFSET and GAIN of each converter as an ADC_CAL word. -/
structure Fuses where
  uid : Quad W := Quad.all 0
  secret : List Byte := List.replicate 32 0
  ecdsa : Quad (List Byte) := Quad.all (List.replicate 48 0)
  hss : Quad (List Byte) := Quad.all (List.replicate 48 0)
  revoked : BitVec 8 := 0
  owners : List (List Byte × List Byte) := []
  lcs : Nat := 0
  adc : Tbl W := []
  deriving DecidableEq, Repr

/-- The keys region of the MRAM (R327, R336, R337): copy A of anti-rollback counter i at 2 i and copy B at 2 i + 1, the
counters in the order of R38, the plate key as it is wrapped once one is installed, and the device boots counted (an
internal restart counts too). -/
structure Keys where
  arb : Tbl W := []
  plateKey : Option (List Byte) := none
  boots : Nat := 0
  deriving DecidableEq, Repr

/-- What the auxiliary supply measured in one switching period (R379): VOUT and IOUT in 2^-16 mV and mA, and the die
temperature beside the controller in 1/16 °C. -/
structure AuxPer where
  v : Nat
  i : Nat
  t : Int
  deriving DecidableEq, Repr

/-- The auxiliary supply controller beside its registers (R371 to R380): the levels at the AXG balls, the phases that
turned on in this period, those that turned off since the last and since the last but one phase start, the last AXFB
code, the consecutive samples in RUN that lie UTH or more below VREF, ICMD and xi in 2^-16 steps, the position of the
VREF ramp (VREF times TSS times 250,000), the consecutive limited periods, whether a switching period runs, whether it
is a limited one, whether the undershoot response fired in it, the periods that the averages cover, newest first, and
the peak registers that restart with the next period. -/
structure Aux where
  on : BitVec 4 := 0
  fired : BitVec 4 := 0
  off0 : BitVec 4 := 0
  off1 : BitVec 4 := 0
  code : Nat := 0
  lows : Nat := 0
  icmd : Int := 0
  xi : Int := 0
  ramp : Nat := 0
  limited : Nat := 0
  per : Bool := false
  lim : Bool := false
  burst : Bool := false
  hist : List AuxPer := []
  pkNew : BitVec 3 := 7
  deriving DecidableEq, Repr

/-- A burst of the keep domain (R385): its kind (1 last-gasp commit, 2 HSS leaf, 3 SAFE history, 4 metering, 5 last-gasp
transmission), whether it is the rewrite of an old object (R430), and the payload of the object that a commit writes. -/
structure Burst where
  kind : Nat
  refresh : Bool := false
  payload : List Byte := []
  deriving DecidableEq, Repr

/-- The keep domain beside its registers, which device reset leaves alone (R381 to R395): the bursts that wait and the
one that runs, RTC_SEC of the last SAFE entries, newest first (R269), V_op of the harvest inputs in µV, whether the
chargers have stopped on a full store (R383), RTC_SEC and UART_CFG of UART1 at the last PFAIL, SEQ of the last-gasp
record, the last-gasp bytes sent, the hold of R393, the part of a clock that RTC_TRIM has gathered, and a tamper event
that SYS has not taken. -/
structure Keep where
  waiting : List Burst := []
  running : Option Burst := none
  hist : List W := []
  vop : Nat × Nat := (0, 0)
  full : Bool := false
  pfRtc : W := 0
  pfUart : W := 0
  lgSeq : W := 0
  lastTx : List Byte := []
  hold : Bool := false
  trim : Int := 0
  tamper : Bool := false
  deriving DecidableEq, Repr

/-- Fault injection beside its registers (R401 to R404): INJ_CFG of the injection that holds, whether it found its
detector active already, and the injections of KIND 5 to 7 that wait for their COMMIT or read, as kind, section (4 is
the device collector), memory and word. -/
structure Inj where
  act : Option W := none
  noEff : Bool := false
  pend : List (Nat × Nat × Nat × Nat) := []
  deriving DecidableEq, Repr

/-- One section: its register window by window offset, and the parts behind the registers. `bootStop` tells that a
stop cause came during a boot (R28); `mSheet`, `mProgA` and `mProgB` are its measurements (R344), `fixed` the fixed
digest of its sheet (R348). `drain` marks channels whose converter was stopped with samples in its pipeline (R76),
`lastClose` is the section time of the newest entry of the result FIFO while its boundary can still close more windows
(R89), `dec` holds the decimators (R93), `wmHists` the samples in the filters of monitor m's lower (2 m) and upper
(2 m + 1) comparator, newest first (R145), `trig` the instant of a carrier event that triggers a tick not yet
started (R12). -/
structure SecState where
  regs : Tbl W := []
  fc : Collector := {}
  accs : Tbl Acc := []
  fifo : List (List (Nat × AccRes)) := []
  satPair : BitVec 12 := 0
  drain : BitVec 12 := 0
  lastClose : Option Nat := none
  dec : Tbl Decim := []
  wmHists : Tbl (List Bool) := []
  trig : Option Nat := none
  now : Nat := 0
  legs : Quad LegState := Quad.all {}
  align : AlignState := {}
  bridges : Quad BridgeCfg := Quad.all {}
  safe5 : Nat := 2
  eng : EngPair := {}
  ast : AsstBlock := {}
  couch : Couch := {}
  bootStop : Bool := false
  mSheet : List Byte := []
  mProgA : List Byte := []
  mProgB : List Byte := []
  fixed : List Byte := []
  deriving DecidableEq, Repr

/-- Everything but non-volatile storage: the registers by address, the snapshots of the ports, and the parts behind
the registers. `mBase` is the measurement of the base image, `report` the report buffer, `rpt` the stage of a report
(0 none, 1 leaf commit, 2 signing) with a report that waits and whether the last one began less than 1.25 s ago
(R345); `crypto` holds the requests of the crypto engine in order of arrival (s for a boot of section s, 4 + s for its
couching, 8 for a token; R57), `cryptoOn` that the boot at its head is in progress; `policy` the SECTION_POLICY words,
`rwpBase` and `rwpSheet` the open ranges (R53), `held` the device reset, `up` the time since device reset in 4 ns,
which the age of a Dorlin frame is taken from (R326), `freeCount` the counter that the free values are applied to. -/
structure Dev where
  regs : Tbl W := []
  snap : Quad (Tbl W) := Quad.all []
  sec : Quad SecState := Quad.all {}
  fc : Collector := {}
  isl : Isl := {}
  safe : SafeState := {}
  points : Tbl Point := []
  pulses : Tbl PulseOut := []
  aux : Aux := {}
  inj : Inj := {}
  keep : Keep := {}
  mBase : List Byte := []
  report : List Byte := []
  rpt : Nat := 0
  rptWait : Bool := false
  rptRecent : Bool := false
  crypto : List Nat := []
  cryptoOn : Bool := false
  nvOut : List NvOp := []
  policy : Quad W := Quad.all 0
  plls : Tbl Pll := []
  rcPpm : Int := 0
  time : TimeState := {}
  eth : Quad EthPort := Quad.all {}
  pool : Tbl Byte := []
  can : Tbl CanPort := []
  uart : Tbl UartPort := []
  i2c : Tbl I2cPort := []
  dl : Tbl DlLink := []
  hp : Quad HostPort := Quad.all {}
  rwpBase : List (Nat × Nat) := []
  rwpSheet : Quad (List (Nat × Nat)) := Quad.all []
  held : Bool := false
  up : Nat := 0
  freeCount : Nat := 0
  deriving DecidableEq, Repr

/-- What keeps its content without power: the MRAM windows and the FeRAM, byte by byte, the fuses and the keys region.
-/
structure NonVol where
  mram : Tbl Byte := []
  feram : Tbl Byte := []
  fuses : Fuses := {}
  keys : Keys := {}
  deriving DecidableEq, Repr

/-- The state of the block. -/
structure State where
  dev : Dev
  nv : NonVol
  pending : List Instr
  deriving DecidableEq, Repr

/-- The state right after device reset has been released. -/
def State.reset : State := { dev := {}, nv := {}, pending := [] }

end Sys2Proof.Machine
end

