-- ==== Sys2Proof/Machine/Ops.lean ====
section
/-! DEFINITION. The named operations over registers and memories that every meaning uses: reading and writing
registers and fields, raising a fault source at its pair, network-time stamps, bus errors, the RWP locks. -/

namespace Sys2Proof.Machine

/-! ### Registers of a section window, by window offset -/

/-- A register of the section. -/
def SecState.rd (s : SecState) (a : Nat) : W := Tbl.get secReset s.regs a

/-- A register of the section replaced. -/
def SecState.wr (s : SecState) (a : Nat) (v : W) : SecState := { s with regs := Tbl.set secReset s.regs a v }

/-- A field of a section register. -/
def SecState.fld (s : SecState) (a : Nat) (f : Field) : Nat := fget f (s.rd a)

/-- A one-bit field of a section register. -/
def SecState.flag (s : SecState) (a : Nat) (f : Field) : Bool := fbit f (s.rd a)

/-- A field of a section register replaced. -/
def SecState.put (s : SecState) (a : Nat) (f : Field) (v : Nat) : SecState := s.wr a (fput f (s.rd a) v)

/-- A one-bit field of a section register replaced. -/
def SecState.putB (s : SecState) (a : Nat) (f : Field) (b : Bool) : SecState := s.put a f (b2n b)

/-- A counter field of a section register, saturating. -/
def SecState.bump (s : SecState) (a : Nat) (f : Field) : SecState :=
  s.put a f (satInc (2 ^ Field.width f - 1) (s.fld a f))

/-! ### Registers of the device blocks, by address -/

/-- A register of the device. -/
def Dev.rd (d : Dev) (a : Nat) : W := Tbl.get devReset d.regs a

/-- A register of the device replaced. -/
def Dev.wr (d : Dev) (a : Nat) (v : W) : Dev := { d with regs := Tbl.set devReset d.regs a v }

/-- A field of a device register. -/
def Dev.fld (d : Dev) (a : Nat) (f : Field) : Nat := fget f (d.rd a)

/-- A one-bit field of a device register. -/
def Dev.flag (d : Dev) (a : Nat) (f : Field) : Bool := fbit f (d.rd a)

/-- A field of a device register replaced. -/
def Dev.put (d : Dev) (a : Nat) (f : Field) (v : Nat) : Dev := d.wr a (fput f (d.rd a) v)

/-- A one-bit field of a device register replaced. -/
def Dev.putB (d : Dev) (a : Nat) (f : Field) (b : Bool) : Dev := d.put a f (b2n b)

/-- A counter field of a device register, saturating. -/
def Dev.bump (d : Dev) (a : Nat) (f : Field) : Dev := d.put a f (satInc (2 ^ Field.width f - 1) (d.fld a f))

/-- A section of the device. -/
def Dev.sc (d : Dev) (s : Sec) : SecState := d.sec.get s

/-- A section of the device changed. -/
def Dev.onSec (d : Dev) (s : Sec) (f : SecState → SecState) : Dev := { d with sec := d.sec.upd s f }

/-- Section register a of section s, changed by name. -/
def Dev.secPut (d : Dev) (s : Sec) (a : Nat) (f : Field) (v : Nat) : Dev := d.onSec s (·.put a f v)

/-- The base address of a section window (R21). -/
def secBase (s : Sec) : Nat := 0x100000 * (s.val + 1)

/-! ### Register write rules (R8) -/

/-- The value a software write leaves in a register: RW fields take it, RWP fields take it while the lock is open,
1 clears a W1C bit, every other bit stays. -/
def RegRow.merge (r : RegRow) (isOpen : Bool) (old v : W) : W :=
  let m : W := BitVec.ofNat 32 (if isOpen then r.rw ||| r.rwp else r.rw)
  ((old &&& ~~~m) ||| (v &&& m)) &&& ~~~(v &&& BitVec.ofNat 32 r.w1c)

/-- Whether a write gives a locked RWP field another value (R8): such a write is a bus error with CAUSE 0b10. -/
def RegRow.lockedHit (r : RegRow) (isOpen : Bool) (old v : W) : Bool :=
  !isOpen && decide ((old ^^^ v) &&& BitVec.ofNat 32 r.rwp ≠ 0)

/-! ### Fault pairs (R260) -/

/-- No pair is driven. -/
def pairReset (_ : Nat) : Pair := {}

/-- The pair of local source n. -/
def Collector.pair (c : Collector) (n : Nat) : Pair := Tbl.get pairReset c.pairs n

/-- The pair of local source n replaced. -/
def Collector.setPair (c : Collector) (n : Nat) (p : Pair) : Collector :=
  { c with pairs := Tbl.set pairReset c.pairs n p }

/-- A detector with an instantaneous condition asserts its pair for one event (R260). A pair already driven by a
held condition stays as it is. A real assertion takes an INJ mark away (R403). -/
def Collector.pulse (c : Collector) (n : Nat) (inj : Bool := false) : Collector :=
  let p := c.pair n
  if p.drive then c.setPair n { p with inj := p.inj && inj }
  else c.setPair n { p with drive := true, pulse := true, inj := inj }

/-- A detector with a lasting condition holds its pair asserted, or lets it go idle (R260). An assertion still on its
way to the collector is held long enough for its event. -/
def Collector.hold (c : Collector) (n : Nat) (b : Bool) (inj : Bool := false) : Collector :=
  let p := c.pair n
  if b then c.setPair n { p with drive := true, pulse := false, inj := (if p.drive then p.inj && inj else inj) }
  else if p.drive && !p.level then c.setPair n { p with pulse := true }
  else c.setPair n { p with drive := false, pulse := false, level := false, inj := false }

/-- A section source asserted for one event. -/
def SecState.pulse (s : SecState) (n : Nat) : SecState := { s with fc := s.fc.pulse n }

/-- A section source held or let go. -/
def SecState.hold (s : SecState) (n : Nat) (b : Bool) : SecState := { s with fc := s.fc.hold n b }

/-- A device source asserted for one event. -/
def Dev.pulse (d : Dev) (n : Nat) : Dev := { d with fc := d.fc.pulse n }

/-- A device source held or let go. -/
def Dev.hold (d : Dev) (n : Nat) (b : Bool) : Dev := { d with fc := d.fc.hold n b }

/-! ### Free values -/

/-- The state with the counter of free values advanced. -/
def Dev.tickFree (d : Dev) : Dev := { d with freeCount := d.freeCount + 1 }

/-! ### Network time (R294, R296) -/

/-- The increment, in 2^-28 ns per TIME clock. -/
def Dev.incr (d : Dev) : Nat := (d.rd Reg.TIME_INCR).toNat

/-- T in 2^-28 ns, modulo 2^64 ns (R294). -/
def Dev.time28 (d : Dev) : Nat := (d.time.tb + (d.time.c - d.time.cb) * d.incr) % 2 ^ 92

/-- T in 1/256 ns. -/
def Dev.time8 (d : Dev) : Nat := d.time28 / 2 ^ 20

/-- T in whole ns, 64 bits. -/
def Dev.timeNs (d : Dev) : Nat := d.time28 / 2 ^ 28

/-- A stamp: T in ns modulo 2^32. -/
def Dev.stamp (d : Dev) : W := natW d.timeNs

/-- TIMEINV: the counter is halted (R301). -/
def Dev.timeInv (d : Dev) : Bool := d.flag Reg.TIME_STAT Fld.TIME_STAT_HALTED

/-! ### States of the device and its sections -/

/-- DEV_STATE.STATE (R24). -/
def Dev.devState (d : Dev) : Nat := d.fld Reg.DEV_STATE Fld.DEV_STATE_STATE

/-- SEC_STATE.STATE (R26). -/
def SecState.state (s : SecState) : Nat := s.fld Reg.SEC_STATE Fld.SEC_STATE_STATE

/-- SEC_STATE.STATE of a section of the device. -/
def Dev.secSt (d : Dev) (s : Sec) : Nat := (d.sc s).state

/-! ### Snapshots of a port (R311) -/

/-- A snapshot register of a port: 0 until the port has taken it. -/
def Dev.snapRd (d : Dev) (k : Port) (a : Nat) : W := Tbl.get (fun _ => 0) (d.snap.get k) a

/-- A snapshot register of a port replaced. -/
def Dev.snapWr (d : Dev) (k : Port) (a : Nat) (v : W) : Dev :=
  { d with snap := d.snap.upd k (fun t => Tbl.set (fun _ => 0) t a v) }

/-! ### Bus errors and wrong keys (R22) -/

/-- An access is recorded in BUS_ERR_STAT and BUS_ERR_ADDR: the first since VALID was cleared with its address, every
one in COUNT. BUS_ERR (device source 40) is raised. -/
def Dev.busErr (d : Dev) (cause : Nat) (write : Bool) (addr : Nat) : Dev :=
  let d1 :=
    if d.flag Reg.BUS_ERR_STAT Fld.BUS_ERR_STAT_VALID then d
    else (((d.put Reg.BUS_ERR_STAT Fld.BUS_ERR_STAT_VALID 1).put Reg.BUS_ERR_STAT Fld.BUS_ERR_STAT_CAUSE cause).putB
      Reg.BUS_ERR_STAT Fld.BUS_ERR_STAT_WRITE write).wr Reg.BUS_ERR_ADDR (natW addr)
  (d1.bump Reg.BUS_ERR_STAT Fld.BUS_ERR_STAT_COUNT).pulse 40

/-- A command register written with a wrong key: CMD_STAT.BAD_KEY. -/
def Dev.badKey (d : Dev) : Dev := d.put Reg.CMD_STAT Fld.CMD_STAT_BAD_KEY 1

/-- The upper half of a command word is its key. -/
def keyIs (v : W) (key : Nat) : Bool := decide (bitsN v.toNat 31 16 = key)

/-! ### Memories -/

/-- What a byte that nothing has written reads as: 0 (notes/assumptions/2.md). -/
def byteReset (_ : Nat) : Byte := 0

/-- One byte of a memory. -/
def Memory.read (m : Tbl Byte) (a : Nat) : Byte := Tbl.get byteReset m a

/-- One byte of a memory replaced. -/
def Memory.write (m : Tbl Byte) (a : Nat) (b : Byte) : Tbl Byte := Tbl.set byteReset m a b

/-- n bytes of a memory from an address. -/
def Memory.readBytes (m : Tbl Byte) (a n : Nat) : List Byte := Tbl.getList byteReset m a n

/-- Bytes written to a memory from an address. -/
def Memory.writeBytes (m : Tbl Byte) (a : Nat) (bs : List Byte) : Tbl Byte := Tbl.setList byteReset m a bs

/-- A word of a memory, little-endian (R7). -/
def Memory.readWord (m : Tbl Byte) (a : Nat) : W :=
  le4 (Memory.read m a) (Memory.read m (a + 1)) (Memory.read m (a + 2)) (Memory.read m (a + 3))

/-- A word written to a memory, little-endian (R7). -/
def Memory.writeWord (m : Tbl Byte) (a : Nat) (w : W) : Tbl Byte := Memory.writeBytes m a (wordBytes w)

/-- The canonical form of a memory. -/
def Memory.wf (m : Tbl Byte) : Bool := Tbl.ok byteReset m

/-! ### The RWP locks (R8, R53) -/

/-- Whether an address lies in one of the open ranges. -/
def inRanges (rs : List (Nat × Nat)) (a : Nat) : Bool := rs.any (fun r => decide (r.1 ≤ a) && decide (a ≤ r.2))

/-- The global number of the converter channel whose ADC_CFGc or ADC_CALc register lies at a window offset. -/
def chanOfOff (s : Sec) (off : Nat) : Option Nat :=
  let c := (off - 0x20100) / 0x10
  if decide (0x20100 ≤ off) && decide (c < 12) && decide ((off - 0x20100) % 0x10 < 8) then some (12 * s.val + c) else none

/-- The channels of a metering point that is on: VA, VB, VC, IA, IB, IC and, where present, IN (R50). -/
def Dev.pointChannels (d : Dev) (p : Nat) : List Nat :=
  if d.flag (Reg.MP_STAT p) Fld.MP_STAT_ON then
    let w1 := (d.rd (Reg.MP_W p 1)).toNat
    let w2 := (d.rd (Reg.MP_W p 2)).toNat
    let ph := [bitsN w1 7 0, bitsN w1 15 8, bitsN w1 23 16, bitsN w2 7 0, bitsN w2 15 8, bitsN w2 23 16]
    if bitsN w2 31 24 = 0xFF then ph else ph ++ [bitsN w2 31 24]
  else []

/-- Whether a channel belongs to a metering point, and so to the base image (R52). -/
def Dev.metered (d : Dev) (ch : Nat) : Bool := (upTo 8).any (fun p => (d.pointChannels p).contains ch)

/-- Whether the RWP fields of the register at an address are open to software (R52, R53). -/
def Dev.rwpOpen (d : Dev) (a : Nat) : Bool :=
  let secOf : Option Sec :=
    if a / 0x100000 = 1 then some 0 else if a / 0x100000 = 2 then some 1
    else if a / 0x100000 = 3 then some 2 else if a / 0x100000 = 4 then some 3 else none
  match secOf with
  | none => inRanges d.rwpBase a
  | some s =>
    if decide (0x70800 ≤ a % 0x100000) && decide (a % 0x100000 < 0x70900) then false
    else
    match chanOfOff s (a % 0x100000) with
    | some ch => if d.metered ch then inRanges d.rwpBase a else inRanges (d.rwpSheet.get s) a
    | none => inRanges (d.rwpSheet.get s) a

end Sys2Proof.Machine
end

