-- ==== Sys2Proof/Machine/Queue.lean ====
section
/-! DEFINITION. The descriptor rings of the queue pool (R313 to R316), the event rings (R319), and the changes of the
device, section and safety states that they record. -/

namespace Sys2Proof.Machine

/-- LOG2_DESC of a queue; 0 is off (R313). -/
def Dev.qLog (d : Dev) (q : Nat) : Nat := d.fld (Reg.Q_CFG q) Fld.Q_CFG_LOG2_DESC

/-- The number of entries of a ring that is on. -/
def Dev.qLen (d : Dev) (q : Nat) : Nat := 2 ^ d.qLog q

/-- The bytes of one buffer of a ring. -/
def Dev.qBuf (d : Dev) (q : Nat) : Nat := 64 * d.fld (Reg.Q_CFG q) Fld.Q_CFG_BUF_UNITS

/-- The producer's index. -/
def Dev.qPut (d : Dev) (q : Nat) : Nat := d.fld (Reg.Q_PTR q) Fld.Q_PTR_PUT

/-- The consumer's index. -/
def Dev.qGet (d : Dev) (q : Nat) : Nat := d.fld (Reg.Q_PTR q) Fld.Q_PTR_GET

/-- How many entries belong to the consumer: PUT - GET modulo 2n (R315). -/
def Dev.qFill (d : Dev) (q : Nat) : Nat := (d.qPut q + 2 * d.qLen q - d.qGet q % (2 * d.qLen q)) % (2 * d.qLen q)

/-- The pool offset of descriptor i (R314). -/
def Dev.qDesc (d : Dev) (q i : Nat) : Nat := d.fld (Reg.Q_BASE q) Fld.Q_BASE_OFFSET + 16 * (i % d.qLen q)

/-- The pool offset of buffer i (R314). -/
def Dev.qData (d : Dev) (q i : Nat) : Nat :=
  d.fld (Reg.Q_BASE q) Fld.Q_BASE_OFFSET + 16 * d.qLen q + d.qBuf q * (i % d.qLen q)

/-- Word w of descriptor i. -/
def Dev.qWord (d : Dev) (q i w : Nat) : W := Memory.readWord d.pool (d.qDesc q i + 4 * w)

/-- Word w of descriptor i replaced. -/
def Dev.qSetWord (d : Dev) (q i w : Nat) (v : W) : Dev :=
  { d with pool := Memory.writeWord d.pool (d.qDesc q i + 4 * w) v }

/-- A queue with IRQ_EN raises QUEUE at the host port it names (R312). -/
def Dev.qIrq (d : Dev) (q : Nat) : Dev :=
  if d.flag (Reg.Q_CFG q) Fld.Q_CFG_IRQ_EN then
    let a := Reg.HP_IRQ_STAT (d.fld (Reg.Q_CFG q) Fld.Q_CFG_IRQ_PORT)
    d.wr a (d.rd a ||| 0x20)
  else d

/-- An entry that finds no room is dropped whole, counted, and raises QUEUE_DROP (R315). -/
def Dev.qDrop (d : Dev) (q : Nat) : Dev := (d.bump (Reg.Q_STAT q) Fld.Q_STAT_DROP).pulse 41

/-- A device producer writes a whole entry and advances PUT (R315). A queue that is off takes nothing (R313); an
entry longer than its buffer, or one that finds the ring full, is dropped. -/
def Dev.qPush (d : Dev) (q : Nat) (w0 w1 w2 w3 : W) (data : List Byte) : Dev :=
  if d.qLog q < 2 then d
  else if d.qFill q = d.qLen q ∨ d.qBuf q < data.length then d.qDrop q
  else
    let i := d.qPut q
    let p1 := Memory.writeBytes d.pool (d.qDesc q i) (wordBytes w0 ++ wordBytes w1 ++ wordBytes w2 ++ wordBytes w3)
    let d1 := { d with pool := Memory.writeBytes p1 (d.qData q i) data }
    (d1.put (Reg.Q_PTR q) Fld.Q_PTR_PUT ((i + 1) % (2 * d.qLen q))).qIrq q

/-- Whether a ring holds an entry for its consumer. -/
def Dev.qHas (d : Dev) (q : Nat) : Bool := decide (2 ≤ d.qLog q) && decide (0 < d.qFill q)

/-- The payload of the entry at the head of a ring. -/
def Dev.qPayload (d : Dev) (q : Nat) : List Byte :=
  Memory.readBytes d.pool (d.qData q (d.qGet q)) (bitsN (d.qWord q (d.qGet q) 0).toNat 15 0)

/-- A head descriptor of a transmit ring can be sent: its LEN is not 0 and fits its buffer (R316). -/
def Dev.qLenOk (d : Dev) (q : Nat) : Bool :=
  let n := bitsN (d.qWord q (d.qGet q) 0).toNat 15 0
  decide (0 < n) && decide (n ≤ d.qBuf q)

/-- A device consumer advances GET past the head entry. -/
def Dev.qAdvance (d : Dev) (q : Nat) : Dev :=
  (d.put (Reg.Q_PTR q) Fld.Q_PTR_GET ((d.qGet q + 1) % (2 * d.qLen q))).qIrq q

/-- The descriptor bits a device consumer writes back: DONE with ERR, MISSED, or a stamp (R316). -/
def Dev.qWriteBack (d : Dev) (q i : Nat) (bits : W) (stamp : Option Nat) (inv : Bool) : Dev :=
  let w0 := d.qWord q i 0 ||| 0x80000000 ||| bits
  match stamp with
  | none => d.qSetWord q i 0 w0
  | some t8 =>
    let w0' := (w0 &&& 0xFF00FFFF) ||| natW ((t8 % 256) <<< 16) ||| 0x04000000 ||| (if inv then 0x02000000 else 0)
    (d.qSetWord q i 0 w0').qSetWord q i 3 (natW (t8 / 256))

/-- A head entry of a transmit ring is completed and leaves the ring (R315). -/
def Dev.qComplete (d : Dev) (q : Nat) (bits : W) (stamp : Option Nat) (inv : Bool) : Dev :=
  (d.qWriteBack q (d.qGet q) bits stamp inv).qAdvance q

/-! ### The event rings (R319) -/

/-- Word 0 of an event record: DONE, TSV, TIMEINV while the counter is halted, and its KIND. -/
def Dev.evWord (d : Dev) (kind : Nat) : W :=
  0x84000000 ||| (if d.timeInv then 0x02000000 else 0) ||| natW (kind <<< 16)

/-- Whether a host port is strapped for the forerunner's personality (R308). -/
def Dev.portCompat (d : Dev) (k : Nat) : Bool := d.flag (Reg.HP_STAT k) Fld.HP_STAT_COMPAT

/-- A log entry copied to the fault ring of every native port whose EV_SEV it reaches (R319). -/
def Dev.faultEvent (d : Dev) (sev : Nat) (head time : W) : Dev :=
  (upTo 4).foldl (fun d k =>
    let ev := d.fld (Reg.HP_CFG k) Fld.HP_CFG_EV_SEV
    if ev = 0 ∨ sev < ev ∨ d.portCompat k then d else d.qPush (32 + 2 * k) (d.evWord 1) head 0 time []) d

/-- A change of state recorded in the state ring of every native port with EV_STATE set (R319). -/
def Dev.stateEvent (d : Dev) (kind : Nat) (detail value : W) : Dev :=
  (upTo 4).foldl (fun d k =>
    if d.flag (Reg.HP_CFG k) Fld.HP_CFG_EV_STATE && !d.portCompat k then
      d.qPush (33 + 2 * k) (d.evWord kind) detail value d.stamp [] else d) d

/-- SEC_STATES: the states of the four sections (R22's status file). -/
def Dev.secStates (d : Dev) : W :=
  natW (d.secSt 0 + d.secSt 1 * 16 + d.secSt 2 * 256 + d.secSt 3 * 4096)

/-- The device enters a state (R24): PREV takes the old one, and the change is recorded. -/
def Dev.setState (d : Dev) (st : Nat) : Dev :=
  let d1 := (d.put Reg.DEV_STATE Fld.DEV_STATE_PREV d.devState).put Reg.DEV_STATE Fld.DEV_STATE_STATE st
  d1.stateEvent 2 0 (d1.rd Reg.DEV_STATE)

/-- A section enters a state (R26): PREV takes the old one, and the change is recorded. -/
def Dev.setSec (d : Dev) (s : Sec) (st : Nat) : Dev :=
  let d1 := (d.secPut s Reg.SEC_STATE Fld.SEC_STATE_PREV (d.secSt s)).secPut s Reg.SEC_STATE Fld.SEC_STATE_STATE st
  d1.stateEvent 3 0 d1.secStates

end Sys2Proof.Machine
end

