-- ==== Sys2Proof/Machine/Faults.lean ====
section
/-! DEFINITION. The fault collectors (R256 to R277): applying one event at its severity, escalation, capture, log, the
views of a collector's status, and its software writes. What a severity does to the device or a section is in
Machine/Reactions.lean. -/

namespace Sys2Proof.Machine

/-- A collector with its registers: the register file of its section or of the device, the base offset of its block,
and the global number of its local source 0 (R256). -/
structure FcIO where
  regs : Tbl W
  fc : Collector
  base : Nat
  gbase : Nat
  dev : Bool
  deriving DecidableEq, Repr

/-- The reset values of the register file a collector lies in. -/
def FcIO.dflt (io : FcIO) : Nat → W := if io.dev then devReset else secReset

/-- A register of the collector, by offset in its block. -/
def FcIO.rd (io : FcIO) (o : Nat) : W := Tbl.get io.dflt io.regs (io.base + o)

/-- A register of the collector replaced. -/
def FcIO.wr (io : FcIO) (o : Nat) (v : W) : FcIO := { io with regs := Tbl.set io.dflt io.regs (io.base + o) v }

/-- A counter field of a collector register, saturating at 255. -/
def FcIO.bump8 (io : FcIO) (o : Nat) (f : Field) : FcIO :=
  io.wr o (fput f (io.rd o) (satInc 255 (fget f (io.rd o))))

/-- The number of local sources (R256). -/
def FcIO.count (io : FcIO) : Nat := if io.dev then 64 else 128

/-- The collector of the device. -/
def Dev.fcIO (d : Dev) : FcIO := ⟨d.regs, d.fc, 0x20000, 0, true⟩

/-- The device with its collector replaced. -/
def Dev.setFcIO (d : Dev) (io : FcIO) : Dev := { d with regs := io.regs, fc := io.fc }

/-- The collector of a section. -/
def SecState.fcIO (x : SecState) (s : Sec) : FcIO := ⟨x.regs, x.fc, 0x50000, 64 + 128 * s.val, false⟩

/-- The section with its collector replaced. -/
def SecState.setFcIO (x : SecState) (io : FcIO) : SecState := { x with regs := io.regs, fc := io.fc }

/-- A bit of FC_PEND, FC_LEVEL or FC_BROKEN, by source. -/
def FcIO.bit (io : FcIO) (o n : Nat) : Bool := wbit (io.rd (o + 4 * (n / 32))) (n % 32)

/-- A bit of FC_PEND or FC_BROKEN set. -/
def FcIO.setBit (io : FcIO) (o n : Nat) : FcIO :=
  let a := o + 4 * (n / 32)
  io.wr a (io.rd a ||| natW (2 ^ (n % 32)))

/-- The pair of a source is asserted or broken: its FC_LEVEL bit (R261). -/
def FcIO.asserted (io : FcIO) (n : Nat) : Bool := (io.fc.pair n).level || (io.fc.pair n).broken

/-- The severity applied to a source: to its last event, or the highest since it became active (R268). The table holds
it with a mark that DERATE is presented. -/
def FcIO.appliedSev (io : FcIO) (n : Nat) : Nat := Tbl.get (fun _ => 0) io.fc.applied n % 8

/-- A source has had an event of severity 3 since it became active. -/
def FcIO.derates (io : FcIO) (n : Nat) : Bool := decide (8 ≤ Tbl.get (fun _ => 0) io.fc.applied n)

/-- A source is active while its pair is asserted, and with applied severity 2 or more until its PEND bit is
cleared (R265). -/
def FcIO.active (io : FcIO) (n : Nat) : Bool :=
  io.asserted n || (decide (2 ≤ io.appliedSev n) && io.bit 0x40 n)

/-- An event of a source at a severity: while the source is still active through an earlier one, no reaction to that is
withdrawn (R265, R268). -/
def FcIO.applySev (io : FcIO) (n sev : Nat) : FcIO :=
  let on := decide (2 ≤ io.appliedSev n) && io.bit 0x40 n
  let v := (if on then max (io.appliedSev n) sev else sev) + (if decide (sev = 3) || (on && io.derates n) then 8 else 0)
  { io with fc := { io.fc with applied := Tbl.set (fun _ => 0) io.fc.applied n v } }

/-- A severity-3 source is active: FC_STAT.DERATE (R262). -/
def FcIO.derate (io : FcIO) : Bool := (upTo io.count).any (fun n => io.derates n && io.active n)

/-- The highest applied severity among active sources: FC_STAT.MAX_ACTIVE. -/
def FcIO.maxActive (io : FcIO) : Nat :=
  (upTo io.count).foldl (fun m n => if io.active n then max m (io.appliedSev n) else m) 0

/-- At least one PEND bit is set: FC_STAT.IRQ. -/
def FcIO.irq (io : FcIO) : Bool := (upTo (io.count / 32)).any (fun i => decide (io.rd (0x40 + 4 * i) ≠ 0))

/-- One event of local source n applied (R262, R263, R270 to R273): escalation, PEND, FC_FIRST, the log. It answers the
collector, the applied severity, and the log entry that was written. -/
def FcIO.apply (io : FcIO) (n : Nat) (inj brk : Bool) (stamp : W) (tinv : Bool) : FcIO × Nat × Option LogEntry :=
  let e := (io.rd (0x200 + 4 * n)).toNat
  let escN := bitsN e 13 6
  let o := 0x400 + 4 * n
  let w := io.rd o
  let cnt := if fbit Fld.FC_ESC_OPEN w then satInc 255 (fget Fld.FC_ESC_COUNT w) else 1
  let esc := decide (escN ≠ 0) && decide (escN ≤ cnt)
  let io1 := if escN = 0 then io else io.wr o (natW (0x80000000 + cnt))
  let sev := if esc then bitsN e 5 3 else bitsN e 2 0
  let io2 := io1.applySev n sev
  let sticky := fbit Fld.FC_CFG_STICKY (io2.rd 0) && !io.dev
  let io3 := if sticky || decide (2 ≤ sev) then io2.setBit 0x40 n else io2
  let io4 := if 1 ≤ sev then io3.bump8 4 Fld.FC_STAT_EVT_CNT else io3
  let capMin := max 1 (fget Fld.FC_CFG_CAP_MIN (io4.rd 0))
  let src := io.gbase + n
  let io5 :=
    if sticky || decide (sev < capMin) then io4
    else if fbit Fld.FC_FIRST_VALID (io4.rd 8) then io4.wr 8 (io4.rd 8 ||| 0x40000000)
    else (io4.wr 8 (natW (0x80000000 + b2n inj * 0x20000000 + b2n brk * 0x10000000 + sev * 0x2000000 +
      b2n esc * 0x1000000 + b2n tinv * 0x800000 + src))).wr 0xc stamp
  let head := natW (0x80000000 + b2n inj * 0x40000000 + b2n brk * 0x20000000 + b2n esc * 0x10000000 + sev * 0x2000000 +
    b2n tinv * 0x1000000 + src)
  if sticky || decide (sev = 0) then (io5, sev, none)
  else if io5.fc.log.length < 32 then
    let en : LogEntry := ⟨head, stamp⟩
    ({ io5 with fc := { io5.fc with log := io5.fc.log ++ [en] } }, sev, some en)
  else (io5.bump8 0x10 Fld.FC_LOG_STAT_LOST, sev, none)

/-- The pair of local source n arrives asserted (R260): an event if it was idle and no broken pair already counts as
asserted. A pair held for one event only is idle again afterwards. It answers whether an event came about. -/
def FcIO.arrive (io : FcIO) (n : Nat) : FcIO × Bool :=
  let p := io.fc.pair n
  if p.drive && !p.level then
    let p' : Pair := if p.pulse then { p with drive := false, pulse := false, inj := false } else { p with level := true }
    ({ io with fc := io.fc.setPair n p' }, !p.broken)
  else (io, false)

/-- A software write to FC_PENDi: 1 clears a bit unless the source's pair is still asserted (R265). -/
def FcIO.writePend (io : FcIO) (i : Nat) (v : W) : FcIO :=
  let held := (upTo 32).foldl (fun (m : W) j => if io.asserted (32 * i + j) then m ||| natW (2 ^ j) else m) 0
  io.wr (0x40 + 4 * i) (io.rd (0x40 + 4 * i) &&& ~~~(v &&& ~~~held))

/-- FC_FIRST.VALID written with 1 clears FC_FIRST and FC_FIRST_TIME. -/
def FcIO.writeFirst (io : FcIO) (v : W) : FcIO := if wbit v 31 then (io.wr 8 0).wr 0xc 0 else io

/-- FC_RAIL.VALID written with 1 clears the record of the first broken pair. -/
def FcIO.writeRail (io : FcIO) (v : W) : FcIO := if wbit v 31 then io.wr 0x20 0 else io

/-- FC_LOG_CMD.POP removes the oldest log entry (R271). -/
def FcIO.pop (io : FcIO) : FcIO := { io with fc := { io.fc with log := io.fc.log.tail } }

/-- What the collector's status registers read as: FC_STAT, FC_LOG_STAT, FC_LOG_HEAD, FC_LOG_TIME and FC_LEVELi are
views of the collector; every other register is held. -/
def FcIO.view (io : FcIO) (o : Nat) : W :=
  let w := io.rd o
  if o = 4 then
    fput Fld.FC_STAT_MAX_ACTIVE (fput Fld.FC_STAT_DERATE (fput Fld.FC_STAT_IRQ w (b2n io.irq)) (b2n io.derate)) io.maxActive
  else if o = 0x10 then fput Fld.FC_LOG_STAT_FILL w io.fc.log.length
  else if o = 0x14 then (match io.fc.log with | e :: _ => e.head | [] => 0)
  else if o = 0x18 then (match io.fc.log with | e :: _ => e.time | [] => 0)
  else if 0x60 ≤ o ∧ o < 0x60 + io.count / 8 ∧ o % 4 = 0 then
    let i := (o - 0x60) / 4
    (upTo 32).foldl (fun (m : W) j => if io.asserted (32 * i + j) then m ||| natW (2 ^ j) else m) 0
  else w

/-- A detector that a FAULT_ROUTE entry names drives the ROUTEr sources it feeds (R259). -/
def SecState.route (x : SecState) (det : Nat) (on : Bool) : SecState :=
  (upTo 8).foldl (fun x r =>
    if det ≠ 0 ∧ x.fld (Reg.FC_ROUTE r) Fld.FC_ROUTE_DETECTOR = det then x.hold (120 + r) on else x) x

/-- The section derates while a severity-3 source of its collector is active (R217, R262). -/
def SecState.derate (x : SecState) : Bool := (x.fcIO 0).derate

/-- The device collector holds DEV_DERATE at each section in the scope of an active severity-3 device source (R266). -/
def devScope (n : Nat) (s : Sec) : Bool :=
  if 6 ≤ n ∧ n ≤ 13 then decide ((n - 6) % 4 = s.val)
  else if 44 ≤ n ∧ n ≤ 47 then decide (n - 44 = s.val)
  else true

/-- DEV_DERATE (section source 3) follows the active severity-3 sources of the device collector (R266). -/
def Dev.syncDerate (d : Dev) : Dev :=
  let io := d.fcIO
  let want (s : Sec) : Bool := (upTo 64).any (fun n => io.derates n && io.active n && devScope n s)
  { d with sec := d.sec.mapIdx (fun s x => if want s then (if (x.fc.pair 3).drive then x else x.hold 3 true) else x.hold 3 false) }

end Sys2Proof.Machine
end

