-- ==== Sys2Proof/Machine/Clocks.lean ====
section
/-! DEFINITION. Clock domains and synthesis (R61 to R73): the PLLs in lock, relocks, spread, phase steps, loss of the
reference with holdover, fall-back and return, the clock outputs, and the reactions to a lost clock that need no
section or device stop (those are in Machine/Reactions.lean). -/

namespace Sys2Proof.Machine

/-- No PLL has locked. -/
def pllReset (_ : Nat) : Pll := {}

/-- The PLL p beside its registers. -/
def Dev.pll (d : Dev) (p : Nat) : Pll := Tbl.get pllReset d.plls p

/-- The PLL p replaced. -/
def Dev.setPll (d : Dev) (p : Nat) (x : Pll) : Dev := { d with plls := Tbl.set pllReset d.plls p x }

/-- PLL_FREQ values that R63 allows: N_INT 160 to 199 with any FRAC, or 200 with FRAC 0. -/
def freqValid (v : W) : Bool :=
  let n := fget Fld.PLL_FREQ_N_INT v
  (decide (160 ≤ n) && decide (n ≤ 199)) || (decide (n = 200) && decide (fget Fld.PLL_FREQ_FRAC v = 0))

/-- The range the VCO covers with a frequency and a spread setting, as numerators over 2^24 · 1000 of 25 MHz (R67):
downward spread from nominal to −DEPTH, centred spread ±DEPTH/2, DEPTH in 0.1 %. -/
def vcoRange (freq ss : W) : Nat × Nat :=
  let f := freq.toNat * 2000
  let dep := fget Fld.PLL_SS_DEPTH ss
  if !fbit Fld.PLL_SS_EN ss then (f, f)
  else if fbit Fld.PLL_SS_CENTRE ss then (f - freq.toNat * dep, f + freq.toNat * dep)
  else (f - 2 * freq.toNat * dep, f)

/-- Whether a VCO range lies in a band entry: limits in MHz above 4,000 (R65). -/
def inBand (r : Nat × Nat) (lo hi : Nat) : Bool :=
  let unit := 2 ^ 24 * 2000
  decide ((4000 + lo) * unit ≤ r.1 * 25) && decide (r.2 * 25 ≤ (4000 + hi) * unit)

/-- The lowest-numbered valid band entry that contains the whole VCO range (R65). -/
def Dev.findBand (d : Dev) (p : Nat) : Option (Nat × Nat) :=
  let r := vcoRange (d.rd (Reg.PLL_FREQ p)) (d.rd (Reg.PLL_SS p))
  ((upTo 16).find? (fun i =>
    let b := d.rd (Reg.BAND p i)
    fbit Fld.BAND_VALID b && inBand r (fget Fld.BAND_F_LO b) (fget Fld.BAND_F_HI b))).map (fun i =>
      let b := d.rd (Reg.BAND p i)
      (fget Fld.BAND_F_LO b, fget Fld.BAND_F_HI b))

/-- PLL_STAT.LOCK of PLL p. -/
def Dev.locked (d : Dev) (p : Nat) : Bool := d.flag (Reg.PLL_STAT p) Fld.PLL_STAT_LOCK

/-- PLL_CTRL.EN of PLL p. -/
def Dev.pllOn (d : Dev) (p : Nat) : Bool := d.flag (Reg.PLL_CTRL p) Fld.PLL_CTRL_EN

/-- A section's clock runs: its PLL is locked and its OUT0 divider is not 0 (R55, R63). -/
def Dev.secClock (d : Dev) (s : Sec) : Bool :=
  d.locked (1 + s.val) && decide (d.fld (Reg.PLL_DIV (1 + s.val)) Fld.PLL_DIV_OUT0 ≠ 0)

/-- ADCK runs. -/
def Dev.adcClock (d : Dev) : Bool := d.locked 5 && decide (d.fld (Reg.PLL_DIV 5) Fld.PLL_DIV_OUT0 ≠ 0)

/-- NET runs (R63, R64). -/
def Dev.netClock (d : Dev) : Bool := d.locked 6 && decide (d.fld (Reg.PLL_DIV 6) Fld.PLL_DIV_OUT0 ≠ 0)

/-- TIME runs. -/
def Dev.timeClock (d : Dev) : Bool := d.locked 6 && decide (d.fld (Reg.PLL_DIV 6) Fld.PLL_DIV_OUT1 ≠ 0)

/-- MET runs: PLL_SYS is locked, its OUT1 divider is not 0, and DOM_EN.MET_EN is set. -/
def Dev.metClock (d : Dev) : Bool :=
  d.locked 0 && decide (d.fld (Reg.PLL_DIV 0) Fld.PLL_DIV_OUT1 ≠ 0) && wbit (d.rd Reg.DOM_EN) 0

/-- A PLL that is on starts or restarts: with a valid frequency and a band entry it will lock, else NO_BAND sets and
it does not start (R63, R65). -/
def Dev.pllStart (d : Dev) (p : Nat) : Dev :=
  let d1 := d.put (Reg.PLL_STAT p) Fld.PLL_STAT_LOCK 0
  if freqValid (d1.rd (Reg.PLL_FREQ p)) && (d1.findBand p).isSome then d1
  else d1.put (Reg.PLL_STAT p) Fld.PLL_STAT_NO_BAND 1

/-- The counter is halted (R301): HALTED sets, RUNNING clears; T and C hold. The correlator enters FREE at its next chip
boundary (R229). -/
def Dev.timeHalt (d : Dev) : Dev :=
  ({ d with isl := { d.isl with toFree := true, toAligned := false } } : Dev).put Reg.TIME_STAT Fld.TIME_STAT_HALTED 1
    |>.put Reg.TIME_STAT Fld.TIME_STAT_RUNNING 0

/-- The counter starts or resumes from its held value, and SET clears (R295, R301). -/
def Dev.timeResume (d : Dev) : Dev :=
  ((d.put Reg.TIME_STAT Fld.TIME_STAT_HALTED 0).put Reg.TIME_STAT Fld.TIME_STAT_RUNNING 1).put
    Reg.TIME_STAT Fld.TIME_STAT_SET 0

/-- The counter follows its clock (R295, R301): without TIME it halts, with it it runs. -/
def Dev.timeFollow (d : Dev) : Dev :=
  if d.timeClock then (if d.flag Reg.TIME_STAT Fld.TIME_STAT_RUNNING then d else d.timeResume)
  else if d.flag Reg.TIME_STAT Fld.TIME_STAT_RUNNING then d.timeHalt else d

/-- A PLL completes lock or relock (R65): it takes its band entry and sets LOCK. PLL_NET starts or resumes the time
counter. A PLL that is off or already locked, or that finds no band, does not lock. -/
def Dev.pllLock (d : Dev) (p : Nat) : Dev :=
  if !d.pllOn p || d.locked p then d
  else if !freqValid (d.rd (Reg.PLL_FREQ p)) then d.put (Reg.PLL_STAT p) Fld.PLL_STAT_NO_BAND 1
  else
    match d.findBand p with
    | none => d.put (Reg.PLL_STAT p) Fld.PLL_STAT_NO_BAND 1
    | some b =>
      let d1 := d.setPll p { d.pll p with band := some b, relock := false, ssOn := d.rd (Reg.PLL_SS p), ssPend := false }
      let d2 := (d1.put (Reg.PLL_STAT p) Fld.PLL_STAT_LOCK 1).put (Reg.PLL_STAT p) Fld.PLL_STAT_SETTLING 0
      if p = 6 then d2.timeFollow else d2

/-- PLL_LOCK (R65). -/
def pllLockDev (p : Fin 7) (d : Dev) : Dev := d.pllLock p.val

/-- Whether the domain of PLL p runs (R66): its PLL is enabled and, for a section, the section is in a state other than
OFF, REJECTED and STOPPED. -/
def Dev.domainRuns (d : Dev) (p : Nat) : Bool :=
  d.pllOn p &&
    (if h : 1 ≤ p ∧ p ≤ 4 then
      let st := d.secSt ⟨p - 1, by omega⟩
      !(decide (st = 0) || decide (st = 2) || decide (st = 6))
    else true)

/-- A frequency change of at most 1,000 ppm that stays inside the selected band entry (R66). -/
def Dev.smallStep (d : Dev) (p : Nat) (v : W) : Bool :=
  let old := (d.rd (Reg.PLL_FREQ p)).toNat
  let diff := if old ≤ v.toNat then v.toNat - old else old - v.toNat
  d.locked p && decide (diff * 1000 ≤ old) &&
    (match (d.pll p).band with
     | some (lo, hi) => inBand (vcoRange v (d.rd (Reg.PLL_SS p))) lo hi
     | none => false)

/-- PLL_FREQ_WRITE (R63, R66): refused outside the range, while SETTLING, and for a large step while the domain runs;
a small step in lock is applied with SETTLING; every other write relocks the PLL, or waits for its EN. DESIGN CHOICE: a
step of at most 1,000 ppm to a PLL that is on and not in lock is refused too while the domain runs
(notes/assumptions/26.md). -/
def Dev.writeFreq (d : Dev) (p : Nat) (v : W) : Dev :=
  let refuse := d.put (Reg.PLL_STAT p) Fld.PLL_STAT_FREQ_REF 1
  if !freqValid v || d.flag (Reg.PLL_STAT p) Fld.PLL_STAT_SETTLING then refuse
  else if d.smallStep p v then
    (d.wr (Reg.PLL_FREQ p) v).put (Reg.PLL_STAT p) Fld.PLL_STAT_SETTLING 1
  else if d.domainRuns p then refuse
  else
    let d1 := d.wr (Reg.PLL_FREQ p) v
    if d1.pllOn p then (d1.setPll p { d1.pll p with relock := true }).pllStart p else d1

/-- FREQ_STEP_SETTLED (R66): SETTLING clears. -/
def freqStepSettled (p : Fin 7) (d : Dev) : Dev := d.put (Reg.PLL_STAT p) Fld.PLL_STAT_SETTLING 0

/-- Spread settings that R67 allows for PLL p. A setting without EN asks for no spread. -/
def ssAllowed (p : Nat) (v : W) : Bool :=
  !fbit Fld.PLL_SS_EN v ||
    (decide (p < 5) && !(fbit Fld.PLL_SS_CENTRE v && decide (1 ≤ p)) && decide (fget Fld.PLL_SS_DEPTH v ≤ 20) &&
      decide (3000 ≤ fget Fld.PLL_SS_RATE v) && decide (fget Fld.PLL_SS_RATE v ≤ 3300))

/-- The spread range stays inside the selected band entry (R67). -/
def Dev.ssInBand (d : Dev) (p : Nat) (v : W) : Bool :=
  match (d.pll p).band with
  | some (lo, hi) => !d.locked p || inBand (vcoRange (d.rd (Reg.PLL_FREQ p)) v) lo hi
  | none => true

/-- PLL_SS_WRITE (R67) with the register's lock open: accepted, to be applied at the next triangle minimum, or refused
with SS_REF. -/
def Dev.writeSs (d : Dev) (p : Nat) (v : W) : Dev :=
  if ssAllowed p v && d.ssInBand p v then
    (d.wr (Reg.PLL_SS p) (v &&& 0xC01F0FFF)).setPll p { d.pll p with ssPend := true }
  else d.put (Reg.PLL_STAT p) Fld.PLL_STAT_SS_REF 1

/-- SPREAD_CHANGE_APPLY (R67): the accepted setting takes effect at the triangle minimum. -/
def spreadChangeApply (p : Fin 7) (d : Dev) : Dev :=
  if (d.pll p).ssPend then d.setPll p { d.pll p with ssOn := d.rd (Reg.PLL_SS p), ssPend := false } else d

/-- A write of n phase steps to PLL p (R68): refused while PH_BUSY and always by PLL_NET. -/
def Dev.phaseSteps (d : Dev) (p : Nat) (n : Int) : Dev :=
  if p = 6 ∨ d.flag (Reg.PLL_STAT p) Fld.PLL_STAT_PH_BUSY then d.put (Reg.PLL_STAT p) Fld.PLL_STAT_PH_REF 1
  else if n = 0 then d
  else (d.put (Reg.PLL_STAT p) Fld.PLL_STAT_PH_REMAIN (uns 16 n)).put (Reg.PLL_STAT p) Fld.PLL_STAT_PH_BUSY 1

/-- The alignment of the section that PLL p serves owns its phase steps (R115). -/
def Dev.phaseOwned (d : Dev) (p : Nat) : Bool :=
  if h : 1 ≤ p ∧ p ≤ 4 then (d.sc ⟨p - 1, by omega⟩).flag Reg.ALIGN_CFG Fld.ALIGN_CFG_AUTO else false

/-- PLL_PHASE_WRITE (R68, R115): STEPS is a signed count; refused while the alignment owns the steps. -/
def Dev.writePhase (d : Dev) (p : Nat) (v : W) : Dev :=
  if d.phaseOwned p then d.put (Reg.PLL_STAT p) Fld.PLL_STAT_PH_REF 1
  else d.phaseSteps p (sgn 16 (fget Fld.PLL_PHASE_STEPS v))

/-- PHASE_STEP_APPLY (R68): one step of the sequence; PH_BUSY clears with the last. -/
def phaseStepApply (p : Fin 7) (d : Dev) : Dev :=
  if d.flag (Reg.PLL_STAT p) Fld.PLL_STAT_PH_BUSY then
    let r := sgn 16 (d.fld (Reg.PLL_STAT p) Fld.PLL_STAT_PH_REMAIN)
    let one : Int := if r < 0 then -1 else 1
    let d1 := (d.put (Reg.PLL_STAT p) Fld.PLL_STAT_PH_REMAIN (uns 16 (r - one))).setPll p
      { d.pll p with phase := (d.pll p).phase + one }
    d1.putB (Reg.PLL_STAT p) Fld.PLL_STAT_PH_BUSY (decide (r - one ≠ 0))
  else d

/-! ### The reference (R70) -/

/-- REFCLK_LOST (R70): REF_OK clears, every running PLL enters holdover, and REF_LOST is raised. A return in progress
ends. -/
def refclkLost (d : Dev) : Dev :=
  (((d.put Reg.REF_STAT Fld.REF_STAT_REF_OK 0).put Reg.REF_STAT Fld.REF_STAT_RETURNING 0).put
    Reg.REF_STAT Fld.REF_STAT_HOLDOVER 1).pulse 2

/-- HOLDOVER_EXPIRY (R70): with REFCLK still lost, every PLL locks to BOOT RC / 2 at its held frequency; FALLBACK sets
and REF_FALLBACK is raised. -/
def holdoverExpiry (rcPpm : Int) (d : Dev) : Dev :=
  if d.flag Reg.REF_STAT Fld.REF_STAT_HOLDOVER && !d.flag Reg.REF_STAT Fld.REF_STAT_REF_OK then
    let d1 := (d.put Reg.REF_STAT Fld.REF_STAT_HOLDOVER 0).put Reg.REF_STAT Fld.REF_STAT_FALLBACK 1
    { d1.pulse 3 with rcPpm := rcPpm }
  else d

/-- The return from fall-back starts (R70): every PLL that is on lies `drift` ppm from its programmed frequency. -/
def Dev.startReturn (d : Dev) (drift : Int) : Dev :=
  (upTo 7).foldl (fun d p => if d.pllOn p then d.setPll p { d.pll p with off := drift } else d)
    (d.put Reg.REF_STAT Fld.REF_STAT_RETURNING 1)

/-- REFCLK_ACCEPTED (R70): in holdover the loops re-close; in fall-back the return begins where AUTO_RETURN is 1. -/
def refclkAccepted (drift : Int) (d : Dev) : Dev :=
  let d1 := (d.put Reg.REF_STAT Fld.REF_STAT_REF_OK 1).put Reg.REF_STAT Fld.REF_STAT_HOLDOVER 0
  if d.flag Reg.REF_STAT Fld.REF_STAT_FALLBACK && d.flag Reg.REF_CFG Fld.REF_CFG_AUTO_RETURN &&
      !d.flag Reg.REF_STAT Fld.REF_STAT_RETURNING then d1.startReturn drift else d1

/-- REF_CMD_RETURN (R70): with the key and REF_OK 1, the return from fall-back starts. -/
def refCmdReturn (val : W) (drift : Int) (d : Dev) : Dev :=
  if d.devState = 1 then d
  else if !keyIs val 0x5AC3 then d.badKey
  else if wbit val 0 && d.flag Reg.REF_STAT Fld.REF_STAT_REF_OK && d.flag Reg.REF_STAT Fld.REF_STAT_FALLBACK &&
      !d.flag Reg.REF_STAT Fld.REF_STAT_RETURNING then d.startReturn drift else d

/-- RETURN_STEP (R70): a PLL steps at most 1,000 ppm towards its programmed frequency; when every PLL is back,
RETURNING and FALLBACK clear. -/
def returnStep (p : Fin 7) (d : Dev) : Dev :=
  if d.flag Reg.REF_STAT Fld.REF_STAT_RETURNING then
    let o := (d.pll p).off
    let d1 := d.setPll p { d.pll p with off := o - clampI (-1000) 1000 o }
    if (upTo 7).all (fun q => !d1.pllOn q || decide ((d1.pll q).off = 0)) then
      (d1.put Reg.REF_STAT Fld.REF_STAT_RETURNING 0).put Reg.REF_STAT Fld.REF_STAT_FALLBACK 0
    else d1
  else d

/-- A PLL loses lock (R71): LOCK clears and LOST sets. -/
def Dev.pllLose (d : Dev) (p : Nat) (unlock : Bool) : Dev :=
  if unlock then (d.put (Reg.PLL_STAT p) Fld.PLL_STAT_LOCK 0).put (Reg.PLL_STAT p) Fld.PLL_STAT_LOST 1 else d

/-- The detectors of PLL p report (R71): it is in lock, or software has switched it off while a plan runs. A PLL that
starts or relocks reports nothing. -/
def Dev.clockWatched (d : Dev) (p : Nat) : Bool :=
  d.locked p || (!d.pllOn p && decide (d.devState ≠ 1) && decide (d.devState ≠ 2))

/-- SEC_PLL_UNLOCK (R71): a section PLL loses lock and SEC_CLK_LOST of the section is raised. -/
def secPllUnlock (s : Sec) (d : Dev) : Dev :=
  if d.clockWatched (1 + s.val) then (d.pllLose (1 + s.val) true).pulse (6 + s.val) else d

/-- ADC_CLOCK_LOST (R71): ADC_CLK_LOST is raised. -/
def adcClockLost (unlock : Bool) (d : Dev) : Dev := if d.clockWatched 5 then (d.pllLose 5 unlock).pulse 4 else d

/-- NET_CLOCK_LOST (R71, R301): the time counter halts and NET_CLK_LOST is raised. -/
def netClockLost (unlock : Bool) (d : Dev) : Dev :=
  if d.clockWatched 6 then ((d.pllLose 6 unlock).timeHalt).pulse 5 else d

/-! ### Software writes to the clocks block -/

/-- The frequency a clock output divides, in units of 25 MHz / 2^24 (R72): REFCLK, the VCO of a PLL, or the BOOT RC. -/
def Dev.clkoSource (d : Dev) (src : Nat) : Option Nat :=
  if src = 0 then some (2 ^ 24) else if src ≤ 7 then some (d.rd (Reg.PLL_FREQ (src - 1))).toNat
  else if src = 8 then some (2 ^ 25) else none

/-- The limits of a clock output (R72): 500 MHz for LVDS and HCSL, 200 MHz for LVCMOS 1.8 V, 125 MHz for LVCMOS 3.3 V;
a reserved SRC or FORMAT, and DIV 0, keep it off. -/
def Dev.clkoOk (d : Dev) (v : W) : Bool :=
  let fmt := fget Fld.CLKO_CFG_FORMAT v
  let dv := fget Fld.CLKO_CFG_DIV v
  let lim := if fmt ≤ 3 then 500 else if fmt = 4 then 200 else 125
  match d.clkoSource (fget Fld.CLKO_CFG_SRC v) with
  | some f => decide (dv ≠ 0) && decide (fmt ≤ 5) && decide (f * 25 ≤ lim * 2 ^ 24 * dv)
  | none => false

/-- What clock output n drives (R72): the frequency it divides, in units of 25 MHz / 2^24, with its DIV; none while its
ball is low, or both balls of LVDS and HCSL are. No PLL output toggles before LOCK (R65). -/
def Dev.clkoDrive (d : Dev) (n : Nat) : Option (Nat × Nat) :=
  let v := d.rd (Reg.CLKO_CFG n)
  let src := fget Fld.CLKO_CFG_SRC v
  if fbit Fld.CLKO_CFG_EN v && (decide (src = 0 ∨ 8 ≤ src) || d.locked (src - 1)) then
    (d.clkoSource src).map (fun f => (f, fget Fld.CLKO_CFG_DIV v))
  else none

/-- A metering point is on. -/
def Dev.anyPoint (d : Dev) : Bool := (upTo 8).any (fun p => d.flag (Reg.MP_STAT p) Fld.MP_STAT_ON)

/-- A software write to the clocks block, the RWP lock of the register being open or not. -/
def Dev.clkWrite (d : Dev) (a : Nat) (r : RegRow) (isOpen : Bool) (v : W) : Dev :=
  let m := r.merge isOpen (d.rd a) v
  let p := (a - 0x10100) / 0x100
  let o := (a - 0x10100) % 0x100
  if a = Reg.REF_CMD then (refCmdReturn v (clampI (-1000000) 1000000 (Config.freeDev d.freeCount)) d).tickFree
  else if a = Reg.DOM_EN then
    if !wbit m 0 && d.anyPoint then d else d.wr a m
  else if a < 0x10100 then
    if decide (0x10020 ≤ a) && isOpen && !d.clkoOk m then d.wr a (m &&& 0x7FFFFFFF) else d.wr a m
  else if o = 0 then
    let d1 := d.wr a m
    if wbit m 0 && !d.pllOn p then d1.pllStart p
    else if !wbit m 0 && d.pllOn p then
      let d2 := d1.put (Reg.PLL_STAT p) Fld.PLL_STAT_LOCK 0
      if p = 6 then d2.timeHalt else d2
    else d1
  else if o = 4 then d.writeFreq p v
  else if o = 8 then
    let d1 := d.wr a (if p = 0 ∨ p = 6 then m else m &&& 0xFF)
    if p = 6 then d1.timeFollow else d1
  else if o = 0xc then (if isOpen then d.writeSs p v else d)
  else if o = 0x10 then d.writePhase p v
  else d.wr a m

end Sys2Proof.Machine
end

