-- ==== Sys2Proof/Machine/Measure.lean ====
section
/-! DEFINITION. Period-exact measurement (R74 to R95): calibration, the windows of the accumulators in their three
modes, results and their way to the section, saturation, and the writes of the ADC block. The converter codes are
operands of the commands, in the order in which the converter produced them. -/

namespace Sys2Proof.Machine

/-- An accumulator that was never armed. -/
def accReset (_ : Nat) : Acc := {}

/-- Accumulator k of a section. -/
def SecState.acc (x : SecState) (k : Nat) : Acc := Tbl.get accReset x.accs k

/-- Accumulator k replaced. -/
def SecState.setAcc (x : SecState) (k : Nat) (a : Acc) : SecState := { x with accs := Tbl.set accReset x.accs k a }

/-- ADC_STAT.CFG_REF: a configuration write was refused or ignored. -/
def SecState.adcRef (x : SecState) : SecState := x.put Reg.ADC_STAT Fld.ADC_STAT_CFG_REF 1

/-- sat14 limits a result to −8,192 to 8,191 (R78). -/
def sat14 (i : Int) : Int := clampI (-8192) 8191 i

/-- The calibration in use for a channel: signed OFFSET and GAIN, from ADC_CAL with OVR, else from the fuses (R78). -/
def SecState.cal (x : SecState) (c : Nat) : Int × Nat :=
  let w := if x.flag (Reg.ADC_CAL c) Fld.ADC_CAL_OVR then x.rd (Reg.ADC_CAL c) else x.rd (Reg.ADC_FUSE c)
  (sgn 12 (fget Fld.ADC_CAL_OFFSET w), fget Fld.ADC_CAL_GAIN w)

/-- A code corrected, before its limit: round_half_even((8 x − OFFSET) · GAIN / 2^18) (R78). -/
def correctRaw (cal : Int × Nat) (x : Int) : Int := roundHalfEven ((8 * x - cal.1) * cal.2) 18

/-- A code corrected (R78), and whether the sample is saturated: its raw code is at a limit, or sat14 limits it (R79).
-/
def correct (cal : Int × Nat) (code : BitVec 14) : Int × Bool :=
  let x := code.toInt
  let r := correctRaw cal x
  (sat14 r, decide (x = -8192) || decide (x = 8191) || decide (sat14 r ≠ r))

/-- Converter c converts. -/
def SecState.running (x : SecState) (c : Nat) : Bool := x.flag (Reg.ADC_CFG c) Fld.ADC_CFG_ADC_RUN

/-- Codes of converter c reach the section: it converts, or it was stopped with samples in its pipeline, which are still
delivered (R76). -/
def SecState.delivers (x : SecState) (c : Nat) : Bool := x.running c || x.drain.getLsbD c

/-- Converter c is in low-power mode (R77). -/
def SecState.lowPower (x : SecState) (c : Nat) : Bool := x.flag (Reg.ADC_CFG c) Fld.ADC_CFG_LP

/-- Accumulator k is armed. -/
def SecState.armed (x : SecState) (k : Nat) : Bool := x.flag (Reg.ACC_CFG k) Fld.ACC_CFG_ARM

/-- MODE of accumulator k: 0 EVENT, 1 COUNT, 2 TIME. -/
def SecState.accMode (x : SecState) (k : Nat) : Nat := x.fld (Reg.ACC_CFG k) Fld.ACC_CFG_MODE

/-! ### Decimators (R93) -/

/-- A decimator that is empty. -/
def decimReset (_ : Nat) : Decim := {}

/-- The decimator of channel c. -/
def SecState.decim (x : SecState) (c : Nat) : Decim := Tbl.get decimReset x.dec c

/-- The decimator of channel c replaced. -/
def SecState.setDecim (x : SecState) (c : Nat) (m : Decim) : SecState := { x with dec := Tbl.set decimReset x.dec c m }

/-- Running sums of a CIC stage: each integrator adds the one before it. -/
def integrate (y : Int) : List Int → List Int
  | [] => []
  | i :: t => (i + y) :: integrate (i + y) t

/-- The differences of a CIC stage: the output, and the delayed inputs of the combs. -/
def combStep (y : Int) : List Int → Int × List Int
  | [] => (y, [])
  | c :: t => let (o, t') := combStep (y - c) t; (o, y :: t')

/-- One corrected sample taken at a time in 1/256 ns: the CIC stage passes one of `r` samples (32 at 40 MS/s, 8 at
10 MS/s), the half-band stage one of two CIC outputs, as a 24-bit word on the scale of y · 2^10. The word stands for the
time 24.0 µs earlier. The coefficients of the FIR stage are not in the spec: the word is a free value of the CIC outputs
that the stage holds (notes/assumptions/28.md). -/
def Decim.push (m : Decim) (r : Nat) (y : Int) (t8 : Int) : Decim :=
  let ints := integrate y m.int
  if m.cnt + 1 < r then { m with int := ints, cnt := m.cnt + 1 }
  else
    let (o, combs) := combStep (ints.getLastD 0) m.comb
    let o1 := if r = 8 then o * 256 else o
    let fir := (o1 :: m.fir).take 64
    let m1 := { m with int := ints, comb := combs, cnt := 0, fir := fir, half := !m.half }
    if m.half then
      let w := clampI (-8388608) 8388607 (Config.halfBand fir)
      { m1 with outs := m.outs + 1, out := ((t8 - 24000 * 256, w) :: m.out).take 32768 }
    else m1

/-! ### Windows -/

/-- Whether two events of a section fall in one sample period of 25 ns (R81, R82): `dt` sixteenths of a PWM clock apart,
with no code between them. Where the converter runs every sample instant between them gives a code; where it does
not, the phase between ADCK and the section clock, which the state does not hold, decides below 25 ns. -/
def samePeriod (run : Bool) (dt : Nat) (free : Bool) : Bool :=
  decide (dt = 0) || (decide (dt < 161) && (run || free))

/-- An accumulator with a window open and empty (R82 to R85). The first window after arming carries CHG (R87). -/
def Acc.openWin (a : Acc) : Acc :=
  { a with isOpen := true, sum := 0, cnt := 0, mn := 8191, mx := -8192, sat := false, chg := a.first, closes := 0 }

/-- One corrected sample taken into an open window (R88). -/
def Acc.take (a : Acc) (y : Int) (sat : Bool) : Acc :=
  { a with
    sum := a.sum + y, cnt := a.cnt + 1, mn := min a.mn y, mx := max a.mx y, sat := a.sat || sat, fresh := false }

/-- The result of a closed window (R88): an EMPTY window reports SUM 0, MIN 8,191 and MAX −8,192. -/
def Acc.result (a : Acc) (forced : Bool) (ts : W) (inv : Bool) : AccRes :=
  let stat := 0x80000000 + b2n (decide (a.cnt = 0)) * 0x40000000 + b2n forced * 0x20000000 + b2n a.chg * 0x10000000 +
    b2n a.sat * 0x8000000 + b2n inv * 0x4000000 + ((a.seq + 1) % 256) * 0x10000 + a.cnt
  ⟨natW stat, intW a.sum, natW (uns 14 a.mn * 0x10000 + uns 14 a.mx), ts⟩

/-- The result carries FORCED. -/
def AccRes.forced (r : AccRes) : Bool := wbit r.stat 29

/-- The saturation pair of channel c asserted or let go (R79): the routed detector follows it, and ADC_SAT (source 5)
is asserted while the pair of any channel is. -/
def SecState.setSat (x : SecState) (c : Nat) (on : Bool) : SecState :=
  let bit : BitVec 12 := BitVec.ofNat 12 (2 ^ c)
  let old := x.satPair
  let m := if on then old ||| bit else old &&& ~~~bit
  if m = old then x
  else
    let x1 := ({ x with satPair := m } : SecState).route (0x20 + c) on
    if m = 0 then x1.hold 5 false else if old = 0 then x1.hold 5 true else x1

/-- A saturated code of channel c (R79): its bit in ADC_SAT sets and its pair asserts. -/
def SecState.saturated (x : SecState) (c : Nat) : SecState :=
  (x.wr Reg.ADC_SAT (x.rd Reg.ADC_SAT ||| natW (2 ^ c))).setSat c true

/-- The lowest-lettered armed accumulator of a channel. -/
def SecState.lowestArmed (x : SecState) (c : Nat) : Option Nat :=
  ([4 * c, 4 * c + 1, 4 * c + 2, 4 * c + 3]).find? (fun k => x.armed k)

/-- A window of accumulator k closes (R88): its result is latched in the registers and SEQ advances. Where it is the
window of the channel's lowest-lettered armed accumulator that holds the last saturated sample, the saturation pair
is let go (R79). `reopen` opens the next window at the same boundary. -/
def SecState.closeWin (x : SecState) (k : Nat) (forced reopen : Bool) (ts : W) (inv : Bool) :
    SecState × (Nat × AccRes) :=
  let a := x.acc k
  let r := a.result forced ts inv
  let a1 := { a with isOpen := false, first := false, seq := (a.seq + 1) % 256, fresh := true, tB := x.now }
  let x1 := x.setAcc k (if reopen then a1.openWin else a1)
  let x2 := (((x1.wr (Reg.ACC_STAT k) r.stat).wr (Reg.ACC_SUM k) r.sum).wr (Reg.ACC_MINMAX k) r.minmax).wr
    (Reg.ACC_TSTAMP k) r.tstamp
  let x3 := if a.sat && decide (x.lowestArmed (k / 4) = some k) then x2.setSat (k / 4) false else x2
  (x3, (k, r))

/-- The window of accumulator k that has reached 65,535 samples without a close of its own mode closes with FORCED and
the next one opens (R85). -/
def SecState.forceClose (x : SecState) (k : Nat) (ts : W) (inv : Bool) : SecState × List (Nat × AccRes) :=
  let a := x.acc k
  if x.armed k && a.isOpen && decide (65535 ≤ a.cnt) then
    let (x1, e) := x.closeWin k true true ts inv
    (x1.setAcc k { x1.acc k with fresh := false }, [e])
  else (x, [])

/-- One corrected sample reaches accumulator k (R81, R83, R85). A window that held 65,535 samples before it closes
with FORCED at this boundary, because its own mode did not close it; an open window takes the sample; a COUNT window
closes at its N-th and opens again. The first list closes before the sample, the second after it. -/
def SecState.feedAcc (x : SecState) (k : Nat) (y : Int) (sat : Bool) (ts : W) (inv : Bool) :
    SecState × List (Nat × AccRes) × List (Nat × AccRes) :=
  if !x.armed k then (x, [], [])
  else
    let (x0, es) := x.forceClose k ts inv
    let a := x0.acc k
    if !a.isOpen then ((if a.fresh then x0.setAcc k { a with fresh := false } else x0), es, [])
    else
      let x1 := x0.setAcc k (a.take y sat)
      let n := (x.rd (Reg.ACC_PARAM k)).toNat % 65536
      if x.accMode k = 1 ∧ a.cnt + 1 = n then
        let (x2, e) := x1.closeWin k false true ts inv
        (x2, es, [e])
      else (x1, es, [])

/-- One code of channel c, taken at a time in 1/256 ns, reaches the decimator and the four accumulators (R80, R93). A
saturated one asserts the channel's pair first (R79). -/
def SecState.feedSample (x : SecState) (c : Nat) (code : BitVec 14) (t8 : Int) (ts : W) (inv : Bool) :
    SecState × List (Nat × AccRes) × List (Nat × AccRes) :=
  let (y, sat) := correct (x.cal c) code
  let x0 := x.setDecim c ((x.decim c).push (if x.lowPower c then 8 else 32) y t8)
  let x1 := if sat then x0.saturated c else x0
  ([0, 1, 2, 3]).foldl (fun (p : SecState × List (Nat × AccRes) × List (Nat × AccRes)) a =>
    let (x2, e1, e2) := p.1.feedAcc (4 * c + a) y sat ts inv
    (x2, p.2.1 ++ e1, p.2.2 ++ e2)) (x1, [], [])

/-- The results of one boundary, kept by the number of sample instants up to the end of the batch. -/
abbrev Closes := Tbl (List (Nat × AccRes))

/-- Results that close at the boundary n sample instants before the end of a batch. -/
def Closes.add (t : Closes) (n : Nat) (es : List (Nat × AccRes)) : Closes :=
  Tbl.set (fun _ => []) t n (Tbl.get (fun _ => []) t n ++ es)

/-- The codes of one channel in order, the last taken just before the event at `now8`. The boundaries are numbered from
the end of the batch, 2 n for full rate and 2 n + 1 for low power: at one sample instant the two do not share an entry
(notes/assumptions/28.md). -/
def SecState.feedCodes (x : SecState) (c : Nat) (now8 : Int) (ts : W) (inv : Bool) :
    List (BitVec 14) → Closes → SecState × Closes
  | [], t => (x, t)
  | code :: rest, t =>
    let lp := x.lowPower c
    let n := rest.length
    let (x1, e1, e2) := x.feedSample c code (now8 - n * (if lp then 25600 else 6400)) ts inv
    x1.feedCodes c now8 ts inv rest ((t.add (2 * (n + 1) + b2n lp) e1).add (2 * n + b2n lp) e2)

/-- The codes of one channel; one that delivers none takes none. What a stopped converter had in its pipeline has then
been delivered (R76). -/
def SecState.feedChan (x : SecState) (c : Nat) (codes : List (BitVec 14)) (now8 : Int) (ts : W) (inv : Bool) (t : Closes) :
    SecState × Closes :=
  if x.delivers c && !codes.isEmpty then
    let (x1, t1) := x.feedCodes c now8 ts inv codes t
    ({ x1 with drain := x1.drain &&& ~~~(BitVec.ofNat 12 (2 ^ c)), lastClose := none }, t1)
  else (x, t)

/-- Results of one boundary cross as one FIFO entry (R89): where `join` holds they belong to the newest entry. -/
def SecState.cross (x : SecState) (es : List (Nat × AccRes)) (join : Bool) : SecState :=
  if es.isEmpty then x
  else if join then { x with fifo := x.fifo.dropLast ++ [x.fifo.getLastD [] ++ es] }
  else { x with fifo := x.fifo ++ [es] }

/-- The codes of several channels, in one batch that ends at an event at `now8` (R80, R89): the results cross in the
order of their boundaries, and windows that later events close at the last one still join its entry. -/
def SecState.feed (x : SecState) (smp : Samples) (now8 : Int) (ts : W) (inv : Bool) : SecState :=
  let (x1, t) := smp.foldl (fun (p : SecState × Closes) e => p.1.feedChan e.1.val e.2 now8 ts inv p.2) (x, [])
  let x2 := t.reverse.foldl (fun x e => x.cross e.2 false) x1
  if (Tbl.get (fun _ => []) t 0).isEmpty then x2 else { x2 with lastClose := some x2.now }

/-- Results that an event closes at the boundary after the last code. -/
def SecState.crossNow (x : SecState) (es : List (Nat × AccRes)) (free : Bool) : SecState :=
  if es.isEmpty then x
  else
    let join := match x.lastClose with
      | some t => !x.fifo.isEmpty && samePeriod ((upTo 12).any x.running) (x.now - t) free
      | none => false
    { x.cross es join with lastClose := some x.now }

/-- The carrier events an accumulator can name (R82). -/
structure CarrierEv where
  leg : Nat
  peak : Bool
  valley : Bool
  reload : Bool
  deriving DecidableEq, Repr

/-- Whether a carrier event is the one that an EV field and a LEG field name (R82). -/
def CarrierEv.is (e : CarrierEv) (leg ev : Nat) : Bool :=
  decide (e.leg = leg) &&
    (match ev with | 0 => e.peak | 1 => e.valley | 2 => e.peak || e.valley | _ => e.reload)

/-- A carrier event at an armed EVENT accumulator (R82, R90). A closing event closes the window at its
(STOP_SKIP + 1)-th occurrence after the opening, unless it falls in the sample period of the opening, and marks the
accumulator pending. An opening event opens a window, but not at the boundary at which the last one closed. -/
def SecState.accEvent (x : SecState) (k : Nat) (e : CarrierEv) (ts : W) (inv free : Bool) :
    SecState × List (Nat × AccRes) :=
  let cfg := x.rd (Reg.ACC_CFG k)
  if !x.armed k || decide (x.accMode k ≠ 0) then (x, [])
  else
    let a := x.acc k
    let same := a.fresh && samePeriod (x.running (k / 4)) (x.now - a.tB) free
    let starts := e.is (fget Fld.ACC_CFG_START_LEG cfg) (fget Fld.ACC_CFG_START_EV cfg)
    let stops := e.is (fget Fld.ACC_CFG_STOP_LEG cfg) (fget Fld.ACC_CFG_STOP_EV cfg)
    if a.isOpen then
      if stops && !same then
        if a.closes = fget Fld.ACC_CFG_STOP_SKIP cfg then
          let (x1, r) := x.closeWin k false (fbit Fld.ACC_CFG_CONTIG cfg) ts inv
          (x1.setAcc k { x1.acc k with pend := true }, [r])
        else (x.setAcc k { a with closes := a.closes + 1 }, [])
      else (x, [])
    else if starts && !same then (x.setAcc k { a.openWin with fresh := true, tB := x.now }, [])
    else (x, [])

/-- A carrier event at every accumulator of the section (EVENT_WINDOW_CLOSE, R82); results cross as one entry. -/
def SecState.carrierEvent (x : SecState) (e : CarrierEv) (ts : W) (inv free : Bool) : SecState :=
  let (x', es) := (upTo 48).foldl (fun (p : SecState × List (Nat × AccRes)) k =>
    let (x1, e1) := p.1.accEvent k e ts inv free
    (x1, p.2 ++ e1)) (x, [])
  x'.crossNow es free

/-- Arming is refused for MODE 0b11, an EVENT window on a low-power channel, and a COUNT window with N = 0 or a value
above 65,535 (R77, R83, R86). -/
def SecState.armOk (x : SecState) (k : Nat) (cfg : W) : Bool :=
  let p := x.rd (Reg.ACC_PARAM k)
  match fget Fld.ACC_CFG_MODE cfg with
  | 0 => !x.lowPower (k / 4)
  | 1 => decide (1 ≤ p.toNat) && decide (p.toNat < 65536)
  | 2 => true
  | _ => false

/-- The first boundary T0 + n · PERIOD after an instant (R84). With PERIOD 0, which the spec leaves out, T0 is the only
one. -/
def boundaryAfter (t0 per : Nat) (t : Nat) : Option Nat :=
  if t < t0 then some t0 else if per = 0 then none else some (t0 + per * ((t - t0) / per + 1))

/-- ACC_T0 as a network time of 64 bits: the instant nearest to the present with these 32 bits
(notes/assumptions/28.md). -/
def nearTime (w : W) (now : Nat) : Nat := ((now : Int) + wint (w - natW now)).toNat

/-- An accumulator armed at network time `now` (R86, R88): its result registers return to 0, SEQ starts again, a COUNT
window opens, and a TIME window waits for its first boundary. A result of an earlier window on its way stays pending. -/
def SecState.arm (x : SecState) (k now : Nat) : SecState :=
  let x1 := (((x.wr (Reg.ACC_STAT k) 0).wr (Reg.ACC_SUM k) 0).wr (Reg.ACC_MINMAX k) 0).wr (Reg.ACC_TSTAMP k) 0
  let x2 := x1.put (Reg.ACC_CFG k) Fld.ACC_CFG_ARM 1
  let a : Acc := { first := true, fixed := (x.acc k).fixed, pend := (x.acc k).pend }
  x2.setAcc k
    (match x2.accMode k with
     | 1 => a.openWin
     | 2 => { a with due := boundaryAfter (nearTime (x.rd (Reg.ACC_T0 k)) now) (x.rd (Reg.ACC_PARAM k)).toNat now }
     | _ => a)

/-- An accumulator disarmed: an open window is discarded, and the results of earlier ones are still delivered (R86). A
window that has reached 65,535 samples has closed by then. -/
def SecState.disarm (x : SecState) (k : Nat) (ts : W) (inv : Bool) : SecState :=
  let (x1, es) := x.forceClose k ts inv
  ((x1.put (Reg.ACC_CFG k) Fld.ACC_CFG_ARM 0).setAcc k { x1.acc k with isOpen := false, due := none }).cross es false

/-- What a write that arms or disarms needs of the device: the network time in ns, and the stamp of a close with its
TIMEINV. -/
structure Instant where
  ns : Nat
  ts : W
  inv : Bool
  deriving DecidableEq, Repr

/-- ACC_CFG_WRITE (R86), the RWP lock of the register being open or not. -/
def SecState.accCfgWrite (x : SecState) (k : Nat) (isOpen : Bool) (v : W) (t : Instant) : SecState :=
  let old := x.rd (Reg.ACC_CFG k)
  let cfgMask : W := 0x7F0F0F00
  let differs := decide ((old ^^^ v) &&& cfgMask ≠ 0)
  if wbit old 31 then
    let x1 := if differs then x.adcRef else x
    if wbit v 31 then x1 else x1.disarm k t.ts t.inv
  else
    let held := if isOpen then v &&& cfgMask else old
    let x1 := x.wr (Reg.ACC_CFG k) held
    if wbit v 31 then (if x1.armOk k held then x1.arm k t.ns else x1.adcRef) else x1

/-- A 1 in ACC_ARM0 or ACC_ARM1 arms an accumulator with the fields it holds; for one already armed it does
nothing (R86). -/
def SecState.armBit (x : SecState) (k now : Nat) : SecState :=
  if x.armed k then x else if x.armOk k (x.rd (Reg.ACC_CFG k)) then x.arm k now else x.adcRef

/-- ACC_ARM (R86): the accumulators selected by one write. -/
def SecState.armWrite (x : SecState) (hi : Bool) (v : W) (now : Nat) : SecState :=
  (upTo (if hi then 16 else 32)).foldl
    (fun x j => if wbit v j then x.armBit (j + (if hi then 32 else 0)) now else x) x

/-- Every open window of a channel carries CHG (R87). -/
def SecState.markChg (x : SecState) (c : Nat) : SecState :=
  ([0, 1, 2, 3]).foldl (fun x a =>
    let k := 4 * c + a
    if (x.acc k).isOpen then x.setAcc k { x.acc k with chg := true } else x) x

/-- A channel feeds an armed accumulator in EVENT mode (R77). -/
def SecState.feedsEvent (x : SecState) (c : Nat) : Bool :=
  ([0, 1, 2, 3]).any (fun a => x.armed (4 * c + a) && decide (x.accMode (4 * c + a) = 0))

/-- Converter c as a change of ADC_RUN leaves it: a start empties the decimator (R93); a stop leaves samples in the
pipeline (R76). -/
def SecState.adcRun (x : SecState) (c : Nat) (was now : Bool) : SecState :=
  let bit : BitVec 12 := BitVec.ofNat 12 (2 ^ c)
  if was == now then x
  else if now then { x.setDecim c {} with drain := x.drain &&& ~~~bit }
  else { x with drain := x.drain ||| bit }

/-- A write to ADC_CFGc (R75, R76, R77): CALV 0b11 leaves CALV; a change of LP while ADC_RUN is 1, and LP = 1 on a
channel with an armed EVENT accumulator, leave LP; each sets CFG_REF. -/
def SecState.adcCfgWrite (x : SecState) (c : Nat) (isOpen : Bool) (v : W) : SecState :=
  let a := Reg.ADC_CFG c
  let old := x.rd a
  let calBad := decide (fget Fld.ADC_CFG_CALV v = 3)
  let lp := if isOpen then wbit v 1 else wbit old 1
  let lpBad := decide (lp ≠ wbit old 1) && (wbit old 0 || (lp && x.feedsEvent c))
  let n1 := fput Fld.ADC_CFG_CALV (v &&& 0x0D) (if calBad then fget Fld.ADC_CFG_CALV old else fget Fld.ADC_CFG_CALV v)
  let n2 := fput Fld.ADC_CFG_LP n1 (b2n (if lpBad then wbit old 1 else lp))
  let x1 := (x.wr a n2).adcRun c (wbit old 0) (wbit n2 0)
  let x2 := if (n2 ^^^ old) &&& 0x3D ≠ 0 then x1.markChg c else x1
  if calBad || lpBad then x2.adcRef else x2

/-- A write to ADC_CALc (R78): with OVR at 1 and GAIN outside its range it is refused whole. -/
def SecState.adcCalWrite (x : SecState) (c : Nat) (v : W) : SecState :=
  let g := fget Fld.ADC_CAL_GAIN v
  if wbit v 31 && (decide (g < 0x7000) || decide (0x8FFF < g)) then x.adcRef
  else
    let x1 := x.wr (Reg.ADC_CAL c) (v &&& 0x8FFFFFFF)
    if x1.cal c = x.cal c then x1 else x1.markChg c

/-- A software write to the ADC block. Writes to the two registers of a metered channel are ignored and set
CFG_REF (R94); so are ACC_PARAM and ACC_T0 of an armed accumulator, where the value differs from the one held (R86). -/
def SecState.adcWrite (x : SecState) (o : Nat) (r : RegRow) (isOpen metered : Bool) (v : W) (t : Instant) : SecState :=
  if o = Reg.ACC_ARM0 then x.armWrite false v t.ns
  else if o = Reg.ACC_ARM1 then x.armWrite true v t.ns
  else if o < 0x21000 ∧ 0x20100 ≤ o then
    let c := (o - 0x20100) / 0x10
    if metered then x.adcRef
    else if o % 0x10 = 0 then x.adcCfgWrite c isOpen v
    else if o % 0x10 = 4 then (if isOpen then x.adcCalWrite c v else x)
    else x
  else if 0x21000 ≤ o then
    let k := (o - 0x21000) / 0x20
    if o % 0x20 = 0 then x.accCfgWrite k isOpen v t
    else if x.armed k ∧ (o % 0x20 = 4 ∨ o % 0x20 = 8) then (if v = x.rd o then x else x.adcRef)
    else x.wr o (r.merge isOpen (x.rd o) v)
  else x.wr o (r.merge isOpen (x.rd o) v)

/-! ### The commands -/

/-- The stamp of a window close: T within ±4 ns, exact while the counter is halted (R88). -/
def Dev.closeStamp (d : Dev) : W :=
  if d.timeInv then d.stamp else intW ((d.timeNs : Int) + clampI (-4) 4 (Config.freeDev d.freeCount))

/-- The present instant as an arming or disarming write sees it. -/
def Dev.instant (d : Dev) : Instant := ⟨d.timeNs, d.closeStamp, d.timeInv⟩

/-- SATURATION_RELEASE (R79): with no accumulator of the channel armed, the pair deasserts. -/
def SecState.satRelease (x : SecState) (c : Nat) : SecState :=
  if (x.lowestArmed c).isNone then x.setSat c false else x

/-- A metering point that has not run. -/
def pointReset (_ : Nat) : Point := {}

/-- Metering point p beside its registers. -/
def Dev.point (d : Dev) (p : Nat) : Point := Tbl.get pointReset d.points p

/-- Metering point p replaced. -/
def Dev.setPoint (d : Dev) (p : Nat) (x : Point) : Dev := { d with points := Tbl.set pointReset d.points p x }

/-- A saturated sample on a channel (R79, R250, R255): every point that it serves is marked, and METER_SAT is raised. -/
def Dev.meterSat (d : Dev) (ch : Nat) : Dev :=
  if d.metered ch then
    ((upTo 8).foldl (fun d p =>
      if (d.pointChannels p).contains ch then
        let x := d.point p
        (d.put (Reg.MP_STAT p) Fld.MP_STAT_SAT 1).setPoint p { x with win := { x.win with sats := d.time8 :: x.win.sats } }
      else d) d).pulse 22
  else d

/-- The decimator of a channel of the device. -/
def Dev.stream (d : Dev) (ch : Nat) : Decim := (d.sc ⟨ch / 12 % 4, by omega⟩).decim (ch % 12)

/-- A point starts when the first 16 stream words of every one of its channels have passed (R93, R254). The passes of
its angle count from here. -/
def Dev.pointStart (d : Dev) (p : Nat) : Dev :=
  if d.flag (Reg.MP_STAT p) Fld.MP_STAT_ON && !d.flag (Reg.MP_STAT p) Fld.MP_STAT_RUN &&
      (d.pointChannels p).all (fun ch => decide (16 ≤ (d.stream ch).outs)) then
    (d.put (Reg.MP_STAT p) Fld.MP_STAT_RUN 1).setPoint p { d.point p with ang := none, upto := d.time8, cyc := none, done := [] }
  else d

/-- The codes of a batch that are saturated on a channel that delivers (R79). -/
def SecState.satChannels (x : SecState) (smp : Samples) : List Nat :=
  (smp.filter (fun e => x.delivers e.1.val && e.2.any (fun c => (correct (x.cal e.1.val) c).2))).map (fun e => e.1.val)

/-- The codes that left the converters of section s since its last event, given with an event at the present instant:
windows, saturation, streams and the points that they start. -/
def Dev.feed (d : Dev) (s : Sec) (smp : Samples) : Dev :=
  let d1 := d.onSec s (·.feed smp d.time8 d.closeStamp d.timeInv)
  let d2 := ((d.sc s).satChannels smp).foldl (fun d c => d.meterSat (12 * s.val + c)) d1
  ((upTo 8).foldl (fun d p => d.pointStart p) d2).tickFree

/-- ADC_SATURATION (R79): the codes of a channel up to a saturated one. -/
def adcSaturation (s : Sec) (c : Fin 12) (codes : List (BitVec 14)) (d : Dev) : Dev := d.feed s [(c, codes)]

/-- COUNT_WINDOW_CLOSE (R83): the samples that bring COUNT windows to N. -/
def countWindowClose (s : Sec) (smp : Samples) (d : Dev) : Dev := d.feed s smp

/-- FORCED_CLOSE (R85): the samples that bring a window to 65,535, where its own mode does not close it. -/
def forcedClose (s : Sec) (k : Fin 48) (smp : Samples) (d : Dev) : Dev :=
  (d.feed s smp).onSec s (fun x =>
    let (x1, es) := x.forceClose k.val d.closeStamp d.timeInv
    x1.crossNow es (Config.freeBit d.freeCount))

/-- A network-time boundary at an armed TIME accumulator whose boundary has come (R84): the open window closes once and
the next opens, or the first window opens. The next boundary is the first after the present time. -/
def SecState.timeBoundary (x : SecState) (k : Nat) (t : Instant) : SecState × List (Nat × AccRes) :=
  let a := x.acc k
  match a.due with
  | some b =>
    if x.armed k && decide (x.accMode k = 2) && decide (b ≤ t.ns) then
      let (x1, es) :=
        if a.isOpen then (let (x1, e) := x.closeWin k false true t.ts false; (x1, [e])) else (x.setAcc k a.openWin, [])
      (x1.setAcc k { x1.acc k with due := boundaryAfter b (x.rd (Reg.ACC_PARAM k)).toNat t.ns }, es)
    else (x, [])
  | none => (x, [])

/-- TIME_WINDOW_BOUNDARY (R84): every TIME accumulator of the section whose boundary has come. None comes while the
counter halts. -/
def timeWindowBoundary (s : Sec) (smp : Samples) (d : Dev) : Dev :=
  if d.timeInv then d
  else
    (d.feed s smp).onSec s (fun x =>
      let (x1, es) := (upTo 48).foldl (fun (p : SecState × List (Nat × AccRes)) k =>
        let (x1, e) := p.1.timeBoundary k d.instant
        (x1, p.2 ++ e)) (x, [])
      x1.crossNow es (Config.freeBit d.freeCount))

/-- An accepted jump of T to `now` (R84): a TIME window not yet open waits for the first boundary after the jumped time;
an open one keeps the boundary it waits for. -/
def SecState.timeJump (x : SecState) (now : Nat) : SecState :=
  (upTo 48).foldl (fun x k =>
    let a := x.acc k
    match a.due with
    | some b =>
      if a.isOpen || decide (now < b) then x
      else x.setAcc k { a with due := boundaryAfter b (x.rd (Reg.ACC_PARAM k)).toNat now }
    | none => x) x

/-- ACC_STAT_READ (R92): SUM, MINMAX and TSTAMP are copied into the port's snapshot with the value returned. -/
def accStatRead (p : Port) (s : Sec) (k : Fin 48) (d : Dev) : Dev :=
  let x := d.sc s
  let b := secBase s
  (((d.snapWr p (b + Reg.ACC_STAT k.val) (x.rd (Reg.ACC_STAT k.val))).snapWr p (b + Reg.ACC_SUM k.val)
    (x.rd (Reg.ACC_SUM k.val))).snapWr p (b + Reg.ACC_MINMAX k.val) (x.rd (Reg.ACC_MINMAX k.val))).snapWr p
      (b + Reg.ACC_TSTAMP k.val) (x.rd (Reg.ACC_TSTAMP k.val))

/-- The oldest FIFO entry reaches the section (R89): its results are there for the engines, and the pending mark of an
accumulator clears with the last result on its way that a closing event closed (R90). -/
def SecState.resultArrival (x : SecState) : SecState :=
  match x.fifo with
  | [] => x
  | es :: t =>
    let later (k : Nat) : Bool := t.any (fun l => l.any (fun e => decide (e.1 = k) && !e.2.forced))
    es.foldl (fun x e =>
      let a := x.acc e.1
      x.setAcc e.1 { a with got := e.2, pend := a.pend && later e.1 })
      { x with fifo := t, lastClose := if t.isEmpty then none else x.lastClose }

/-- What an engine window read finds (R90): none while the accumulator is pending; otherwise the result fixed by the
tick's first read, which this read fixes if it is the first. -/
def SecState.readAcc (x : SecState) (k : Nat) : Option (AccRes × SecState) :=
  let a := x.acc k
  match a.fixed with
  | some r => some (r, x)
  | none =>
    if a.pend && decide (x.accMode k = 0) then none
    else some (a.got, x.setAcc k { a with fixed := some a.got })

/-- A tick start forgets the results that the last tick fixed. -/
def SecState.clearFixed (x : SecState) : SecState :=
  (upTo 48).foldl (fun x k => if (x.acc k).fixed.isSome then x.setAcc k { x.acc k with fixed := none } else x) x

end Sys2Proof.Machine
end

