-- ==== Sys2Proof/Machine/Gate.lean ====
section
/-! DEFINITION. The gate interface (R118 to R127) and the protection half of stage 4 (R128 to R143) with the window
monitors (R144 to R149): the stages of R19 from the request to the gate balls. Times count sixteenths of a PWM clock
in the section's time. -/

namespace Sys2Proof.Machine

/-- A leg of the section. -/
def SecState.lg (x : SecState) (l : Fin 4) : LegState := x.legs.get l

/-- A leg of the section replaced. -/
def SecState.setLeg (x : SecState) (l : Fin 4) (L : LegState) : SecState := { x with legs := x.legs.set l L }

/-- The section's time moves on to t. -/
def SecState.at (x : SecState) (t : Nat) : SecState := { x with now := max x.now t }

/-- Word n of the leg's LEG record (R42). -/
def SecState.legW (x : SecState) (l : Fin 4) (n : Nat) : Nat := (x.rd (Reg.LEG_W l.val n)).toNat

/-- TYPE of the leg (R42): 0 unused, 1 2L, 2 NPC3, 3 ANPC3, 4 FC3, 5 BOOST. -/
def SecState.legType (x : SecState) (l : Fin 4) : Nat := bitsN (x.legW l 0) 15 8

/-- The positions that a leg type uses (R3, R42). -/
def typePos (ty : Nat) (rect : Bool) : BitVec 6 :=
  match ty with
  | 1 => 0x03 | 2 => 0x0F | 3 => 0x3F | 4 => 0x0F | 5 => if rect then 0x03 else 0x01 | _ => 0

/-- The positions the leg uses. -/
def SecState.legPos (x : SecState) (l : Fin 4) : BitVec 6 := typePos (x.legType l) (Nat.testBit (x.legW l 0) 1)

/-- Whether a switch-state vector is in the leg's allowed table (R42). -/
def SecState.allowed (x : SecState) (l : Fin 4) (v : BitVec 6) : Bool :=
  if v.toNat < 32 then Nat.testBit (x.legW l 1) v.toNat else Nat.testBit (x.legW l 2) (v.toNat - 32)

/-- The valid pairs of the leg with their floors in PWM clocks (R42). -/
def SecState.pairs (x : SecState) (l : Fin 4) : List (Nat × Nat × Nat) :=
  (upTo 4).filterMap (fun i =>
    let b := bitsN (x.legW l 3) (8 * i + 7) (8 * i)
    let f := bitsN (x.legW l (4 + i / 2)) (16 * (i % 2) + 15) (16 * (i % 2))
    if b ≥ 128 then some (bitsN b 5 3, bitsN b 2 0, f) else none)

/-- The pairs with which switch n forms a pair: the partner and the floor. -/
def SecState.partners (x : SecState) (l : Fin 4) (n : Nat) : List (Nat × Nat) :=
  (x.pairs l).filterMap (fun p => if p.1 = n then some (p.2.1, p.2.2) else if p.2.1 = n then some (p.1, p.2.2) else none)

/-- One switch of a vector. -/
def bit6 (n : Nat) : BitVec 6 := BitVec.ofNat 6 (2 ^ n)

/-- The safe level of each switch (R42). -/
def SecState.safeLevel (x : SecState) (l : Fin 4) : BitVec 6 := BitVec.ofNat 6 (x.legW l 6)

/-- The leg has bootstrap supplies (R123). -/
def SecState.bsOn (x : SecState) (l : Fin 4) : Bool := Nat.testBit (x.legW l 0) 0

/-- The high-side switch of a bootstrap leg (R123). -/
def SecState.bsHi (x : SecState) (l : Fin 4) : Nat := if x.legType l = 5 then 1 else 0

/-- The low-side switch of a bootstrap leg (R123). -/
def SecState.bsLo (x : SecState) (l : Fin 4) : Nat := if x.legType l = 5 then 0 else 1

/-- T_BS in sixteenths. -/
def SecState.bsLimit (x : SecState) (l : Fin 4) : Nat := bitsN (x.legW l 7) 31 16 * 6400

/-- T_REF in sixteenths. -/
def SecState.bsRef (x : SecState) (l : Fin 4) : Nat := bitsN (x.legW l 7) 15 0 * 16

/-- Precharge pulses (R126). -/
def SecState.bsTrain (x : SecState) (l : Fin 4) : Nat := bitsN (x.legW l 8) 15 8

/-- DT_ON of switch n in the active set, in sixteenths (R102). -/
def SecState.dtOn (x : SecState) (l : Fin 4) (n : Nat) : Nat :=
  bitsN (x.rd (Reg.ACT_DT l.val (n / 2))).toNat (16 * (n % 2) + 15) (16 * (n % 2))

/-- The bridge that holds a leg (R43). -/
def SecState.bridgeOf (x : SecState) (l : Fin 4) : Option Bridge :=
  ([0, 1, 2, 3] : List Bridge).find? (fun b =>
    decide ((x.bridges.get b).kind ≠ 0) && (x.bridges.get b).mask.getLsbD l.val)

/-- The legs in the protection scope of a leg, itself among them (R43). -/
def SecState.scopeLegs (x : SecState) (l : Fin 4) : List (Fin 4) :=
  match x.bridgeOf l with
  | none => [l]
  | some b =>
    let B := x.bridges.get b
    if B.scope = 2 then [0, 1, 2, 3]
    else if B.scope = 1 then ([0, 1, 2, 3] : List (Fin 4)).filter (fun k => B.mask.getLsbD k.val)
    else [l]

/-- The section may drive gates: ENABLED, or COUCHING after entering from ENABLED (R26, R204). -/
def SecState.enabled (x : SecState) : Bool :=
  decide (x.state = 4) || (decide (x.state = 7) && decide (x.fld Reg.SEC_STATE Fld.SEC_STATE_PREV = 4))

/-- The section is held off by a stop (R26). -/
def SecState.stopping (x : SecState) : Bool := decide (x.state = 5) || decide (x.state = 6)

/-- The leg's bridge lets it drive gates (R204, R208). -/
def SecState.mayDrive (x : SecState) (l : Fin 4) : Bool := x.enabled && (x.lg l).perm

/-- FORCE_STAT.FORCED: any cause bit is set. -/
def SecState.forced (x : SecState) (l : Fin 4) : Bool :=
  decide (x.fld (Reg.FORCE_STAT l.val) Fld.FORCE_STAT_FORCED_BITS ≠ 0)

/-- PROT_STAT.LATCH. -/
def SecState.latched (x : SecState) (l : Fin 4) : Bool := x.flag (Reg.PROT_STAT l.val) Fld.PROT_STAT_LATCH

/-- PROT_STAT.TEST_HOLD. -/
def SecState.testHold (x : SecState) (l : Fin 4) : Bool := x.flag (Reg.PROT_STAT l.val) Fld.PROT_STAT_TEST_HOLD

/-- Stage 4 holds the leg. -/
def SecState.held4 (x : SecState) (l : Fin 4) : Bool :=
  let L := x.lg l
  decide (L.step ≠ 0) || L.holdReload || L.nr1 || L.nr2 || x.testHold l

/-- Stage 4 or stage 5 holds the leg. -/
def SecState.heldOff (x : SecState) (l : Fin 4) : Bool := x.held4 l || decide (x.safe5 ≠ 0)

/-- SOFT of the leg (R134, R138, R286): while a latch of the leg holds, during the turn-off of a stopping section, which
sets no latch, and while stage 5 holds. -/
def SecState.soft (x : SecState) (l : Fin 4) : Bool :=
  x.latched l || x.forced l || (x.stopping && (decide ((x.lg l).step = 1) || decide ((x.lg l).step = 2))) ||
    decide (x.safe5 ≠ 0)

/-- The gate-ball levels that stages 3 to 6 give (R19). -/
def SecState.ballOf (x : SecState) (l : Fin 4) : BitVec 6 :=
  let L := x.lg l
  let b4 := if x.testHold l then 0 else if decide (L.step ≠ 0) || L.holdReload then L.frozen
    else if L.nr1 || L.nr2 then 0 else L.out
  let b5 := if x.safe5 = 0 then b4 else L.frozen5 &&& (if L.step ≠ 0 then L.frozen else 0x3F)
  b5 &&& x.legPos l

/-- The balls follow the stages at t: each turn-on starts its blanking (R129), and the conduction times of a bootstrap
leg are noted (R124, R126). -/
def SecState.drive (x : SecState) (l : Fin 4) (t : Nat) : SecState :=
  let L := x.lg l
  let b := x.ballOf l
  let rise := b &&& ~~~L.ball
  let bl := (upTo 6).foldl (fun bl n =>
    if rise.getLsbD n then (n, t + bitsN (x.legW l 9) 31 16 * 32) :: bl.filter (fun e => e.1 ≠ n) else bl) L.blank
  let hi := b.getLsbD (x.bsHi l)
  let lo := b.getLsbD (x.bsLo l)
  let hs := if hi && !lo then some (L.hiSince.getD (L.bsFrom.getD t)) else none
  let ll := if L.ball.getLsbD (x.bsLo l) then t else L.loLast
  x.setLeg l { L with ball := b, blank := bl, hiSince := hs, bsFrom := if hi then none else L.bsFrom, loLast := ll }

/-- A pair of the leg has both its switches in a vector (R120). -/
def SecState.shootMask (x : SecState) (l : Fin 4) (r : BitVec 6) : BitVec 6 :=
  (x.pairs l).foldl (fun m p => if r.getLsbD p.1 && r.getLsbD p.2.1 then m ||| bit6 p.1 ||| bit6 p.2.1 else m) 0

/-- The instant from which the floors let switch n turn on (R121). -/
def SecState.floorOf (x : SecState) (l : Fin 4) (n : Nat) : Nat :=
  (x.partners l n).foldl (fun m p =>
    let o := (x.lg l).offT.getD p.1 0
    if o = 0 then m else max m (o + p.2 * 16)) 0

/-- The instant from which the DT_ON of switch n lets it turn on at an edge of a bootstrap pulse: counted from the
turn-off of the other switch of the supply, whether or not the two form a pair (R124). -/
def SecState.bsDelay (x : SecState) (l : Fin 4) (n : Nat) : Nat :=
  let o := (x.lg l).offT.getD (if n = x.bsHi l then x.bsLo l else x.bsHi l) 0
  if o = 0 then 0 else o + x.dtOn l n

/-- A turn-on that has passed the interlock: at once, or delayed to its floor, which DT_CLAMP counts (R121). At the
edges of a bootstrap pulse the switch's own DT_ON delays it as well, and a DT_ON no shorter than the floor is not
clamped. -/
def SecState.turnOn (x : SecState) (l : Fin 4) (n t : Nat) (bs : Bool) : SecState :=
  let f := x.floorOf l n
  let dt := if bs then x.bsDelay l n else 0
  let d := max f dt
  let L := x.lg l
  if t < d then
    let x1 := if t < f ∧ dt < f then x.bump (Reg.GATE_EVCNT l.val) Fld.GATE_EVCNT_DT_CLAMP else x
    x1.setLeg l { L with wait := L.wait ++ [(n, d)] }
  else
    let e := if L.bsPulse && n == x.bsLo l then some (t + x.bsRef l) else L.bsEnd
    x.setLeg l { L with out := L.out ||| bit6 n, bsEnd := e }

/-- The interlock on a changed request r at t (R119 to R121): every switch requested on but off is tested, whether its
request changed now or was withheld before, and a failed test raises STATE_REJ each time. -/
def SecState.interlock (x : SecState) (l : Fin 4) (r : BitVec 6) (t : Nat) (bs : Bool) : SecState :=
  let L := x.lg l
  let sh := x.shootMask l r
  let x1 := if sh &&& ~~~L.shoot ≠ 0 then
      ((x.put (Reg.GATE_STAT l.val) Fld.GATE_STAT_SHOOT 1).bump (Reg.GATE_EVCNT l.val) Fld.GATE_EVCNT_SHOOT_CNT).pulse
        (8 + 8 * l.val + 5) else x
  let rr := r &&& ~~~sh
  let gone := L.wait.filter (fun e => !rr.getLsbD e.1)
  let x2 := gone.foldl (fun x e =>
    if r.getLsbD e.1 then x else x.bump (Reg.GATE_EVCNT l.val) Fld.GATE_EVCNT_FLOOR_ABS) x1
  let off := L.out &&& ~~~rr
  let offT := (upTo 6).map (fun n => if off.getLsbD n then t else L.offT.getD n 0)
  let wait := L.wait.filter (fun e => rr.getLsbD e.1)
  let wm := wait.foldl (fun m e => m ||| bit6 e.1) 0
  let out := L.out &&& rr
  let x3 := x2.setLeg l { L with req := r, shoot := sh, offT := offT, wait := wait, out := out, held := 0 }
  let cand := rr &&& ~~~out &&& ~~~wm
  if cand = 0 then x3
  else if x.allowed l (out ||| wm ||| cand) then
    (upTo 6).foldl (fun x n => if cand.getLsbD n then x.turnOn l n t bs else x) x3
  else
    let x4 := ((x3.put (Reg.GATE_STAT l.val) Fld.GATE_STAT_STATE_REJ 1).bump (Reg.GATE_EVCNT l.val)
      Fld.GATE_EVCNT_REJ_CNT).pulse (8 + 8 * l.val + 6)
    x4.setLeg l { x4.lg l with held := cand }

/-- The stage-1 request with the bridge's permission and the positions of the type (R3, R102, R208). -/
def SecState.stage1 (x : SecState) (l : Fin 4) : BitVec 6 :=
  if x.mayDrive l then (x.lg l).req1 &&& x.legPos l else 0

/-- A precharge train is due before the next high-side turn-on (R126). -/
def SecState.trainIsDue (x : SecState) (l : Fin 4) (t : Nat) : Bool :=
  let L := x.lg l
  x.bsOn l && decide (x.bsTrain l ≠ 0) && decide (L.train = 0) &&
    (L.trainDue || (!L.ball.getLsbD (x.bsLo l) && !L.out.getLsbD (x.bsHi l) && decide (L.loLast + x.bsLimit l < t)))

/-- The request after stage 2 (R124 to R126): a running pulse or train replaces it, and a train that is due withholds
the high side. A leg that may no longer drive gates requests nothing. -/
def SecState.stage2 (x : SecState) (l : Fin 4) (t : Nat) : BitVec 6 × Bool :=
  let r := x.stage1 l
  let L := x.lg l
  if x.mayDrive l && L.bsPulse then (bit6 (x.bsLo l), L.trainDue)
  else if x.mayDrive l && decide (L.train ≠ 0) then (0, L.trainDue)
  else if r.getLsbD (x.bsHi l) && x.trainIsDue l t then (r &&& ~~~(bit6 (x.bsHi l)), true)
  else (r, L.trainDue)

/-- Stages 1 to 6 evaluated at t. A request vector that has not changed is tested again only where `again` asks it. -/
def SecState.evalLeg (x : SecState) (l : Fin 4) (t : Nat) (again : Bool := false) (bs : Bool := false) : SecState :=
  let (r, due) := x.stage2 l t
  let L := x.lg l
  let x1 := x.setLeg l (if x.mayDrive l then { L with trainDue := due }
    else { L with trainDue := due, bsPulse := false, bsEnd := none, train := 0 })
  if r = L.req ∧ again = false then x1.drive l t else (x1.interlock l r t bs).drive l t

/-- The leg may drive gates from now on: a precharge train runs before its first high-side turn-on (R126). -/
def SecState.startsDriving (x : SecState) (l : Fin 4) : SecState :=
  if x.mayDrive l && x.bsOn l && decide (x.bsTrain l ≠ 0) then x.setLeg l { x.lg l with trainDue := true } else x

/-- Stage 4 and stage 5 let the leg go at t: what is not on at its ball is off, every switch requested on is tested as
if its request had just changed, and a precharge train is due (R119, R126). -/
def SecState.release (x : SecState) (l : Fin 4) (t : Nat) : SecState :=
  let L := x.lg l
  let out := L.out &&& L.ball
  let offT := (upTo 6).map (fun n => if L.ball.getLsbD n && !out.getLsbD n then t else L.offT.getD n 0)
  (x.setLeg l { L with out := out, offT := offT, trainDue := x.bsOn l && decide (x.bsTrain l ≠ 0), frozen := 0 }).evalLeg
    l t true

/-- Where nothing holds the leg any more, it is let go; else its balls follow. -/
def SecState.tryRelease (x : SecState) (l : Fin 4) (was : Bool) (t : Nat) : SecState :=
  if was && !x.heldOff l then x.release l t else x.drive l t

/-! ### The two-step turn-off (R133 to R138) -/

/-- Step 1 begins at t (R134): SOFT, frozen levels, waiting turn-ons cancelled, a bootstrap pulse or train stopped. -/
def SecState.step1 (x : SecState) (l : Fin 4) (allOff : Bool) : SecState :=
  let L := x.lg l
  x.setLeg l { L with
    step := 1, frozen := L.ball, allOff := allOff, wait := [], safeWait := [], bsPulse := false, bsEnd := none, train := 0,
    holdReload := false, clockDead := false }

/-- A latch that sets starts a sequence or joins the one that runs (R137). -/
def SecState.startSeq (x : SecState) (l : Fin 4) (allOff : Bool) : SecState :=
  let L := x.lg l
  if L.step = 1 ∨ L.step = 2 then (if allOff then x.setLeg l { L with allOff := true } else x)
  else if L.step = 0 then x.step1 l allOff
  else if allOff then
    if L.frozen = 0 then x.setLeg l { L with allOff := true, safeWait := [] } else x.step1 l true
  else x

/-- The switches that a sequence removes: all, or those whose safe level is OFF (R111, R137). -/
def SecState.removes (x : SecState) (l : Fin 4) : BitVec 6 := if (x.lg l).allOff then 0x3F else ~~~(x.safeLevel l)

/-- The safe-level ON switches turn on after their pairs' floors (R111). -/
def SecState.safeOn (x : SecState) (l : Fin 4) (t : Nat) : SecState :=
  let L := x.lg l
  let todo := (upTo 6).filter (fun n => (x.safeLevel l).getLsbD n && !L.frozen.getLsbD n)
  let ds := todo.map (fun n => (n, t + (x.partners l n).foldl (fun m p => max m (p.2 * 16)) 0))
  x.setLeg l { L with
    safeWait := ds.filter (fun e => decide (t < e.2))
    frozen := (ds.filter (fun e => decide (e.2 ≤ t))).foldl (fun m e => m ||| bit6 e.1) L.frozen }

/-- Step 2 is complete at t (R136). With every latch clear by then, the levels hold to the next RELOAD (R112). -/
def SecState.finish (x : SecState) (l : Fin 4) (t : Nat) : SecState :=
  let L := x.lg l
  let x1 := x.setLeg l { L with step := 3, frozen := L.frozen &&& ~~~(x.removes l) }
  let x2 :=
    if x.latched l || x.forced l || x.stopping then (if L.allOff then x1 else x1.safeOn l t)
    else x1.setLeg l { x1.lg l with step := 0, holdReload := true }
  x2.drive l t

/-- Step 2 begins at t (R136): NPC3 and ANPC3 legs with STEP2_INNER remove the outer switches first. -/
def SecState.step2 (x : SecState) (l : Fin 4) (t : Nat) : SecState :=
  let L := x.lg l
  if (x.legType l = 2 ∨ x.legType l = 3) ∧ x.fld (Reg.OC_CFG l.val) Fld.OC_CFG_STEP2_INNER ≠ 0 then
    (x.setLeg l { L with step := 2, frozen := L.frozen &&& ~~~(x.removes l &&& 0x09) }).drive l t
  else x.finish l t

/-! ### Protection events and forcing (R111, R133, R140) -/

/-- The protection latch of a leg sets with a cause (R133). -/
def SecState.latchProt (x : SecState) (l : Fin 4) (cause : W) : SecState :=
  ((x.wr (Reg.PROT_STAT l.val) (x.rd (Reg.PROT_STAT l.val) ||| 0x80000000 ||| cause)).startSeq l true).drive l x.now

/-- A protection event of a leg (R133): its fault source, asserted while the fault lasts (R260), its latch, and BY_SCOPE
in the rest of its scope. -/
def SecState.protEvent (x : SecState) (l : Fin 4) (cause : W) (src : Nat) : SecState :=
  (x.scopeLegs l).foldl (fun x k => if k = l then x else x.latchProt k 0x800)
    ((x.hold (8 + 8 * l.val + src) true).latchProt l cause)

/-- The forcing latch of one leg takes a cause (R111). LEG_FORCED is raised when the latch sets. -/
def SecState.latchForce (x : SecState) (l : Fin 4) (cause : Nat) : SecState :=
  let x1 := x.wr (Reg.FORCE_STAT l.val) (x.rd (Reg.FORCE_STAT l.val) ||| natW (2 ^ cause))
  if x.forced l then x1
  else ((x1.pulse (8 + 8 * l.val + 7)).startSeq l false).drive l x.now

/-- A leg is forced: bits 0 to 3 by a trip, bit 4 by software; the rest of its scope takes BY_SCOPE (R111). -/
def SecState.force (x : SecState) (l : Fin 4) (cause : Nat) : SecState :=
  (x.scopeLegs l).foldl (fun x k => if k = l then x else x.latchForce k 5) (x.latchForce l cause)

/-- The source that a trip input names is high (R110): a latched monitor output, or FORCED of a local leg. -/
def SecState.tripSource (x : SecState) (l : Fin 4) (n : Nat) : Bool :=
  let c := bitsN (x.rd (Reg.TRIP_SRC l.val)).toNat (4 * n + 3) (4 * n)
  if 1 ≤ c ∧ c ≤ 8 then wbit (x.rd Reg.WM_LATCH) (c - 1)
  else if h : 9 ≤ c ∧ c ≤ 12 then x.forced ⟨c - 9, by omega⟩ else false

/-- TRIP_ACTIVE (R110, R111): the filter of a trip input whose source is high becomes active and forces the scope. -/
def SecState.tripActive (x : SecState) (l : Fin 4) (n : Fin 4) : SecState :=
  let L := x.lg l
  if L.run && x.tripSource l n.val && !L.trip.getLsbD n.val then
    (x.setLeg l { L with trip := L.trip ||| BitVec.ofNat 4 (2 ^ n.val) }).force l n.val
  else x

/-- TRIP_INACTIVE (R110). -/
def SecState.tripInactive (x : SecState) (l : Fin 4) (n : Fin 4) : SecState :=
  let L := x.lg l
  if x.tripSource l n.val then x else x.setLeg l { L with trip := L.trip &&& ~~~(BitVec.ofNat 4 (2 ^ n.val)) }

/-- FORCE_CLR (R112): refused while a trip input of the leg is active. The safe levels stay to the next RELOAD. -/
def SecState.forceClr (x : SecState) (l : Fin 4) : SecState :=
  if (x.lg l).trip ≠ 0 then x.put (Reg.FORCE_STAT l.val) Fld.FORCE_STAT_CLR_REF 1
  else if !x.forced l then x
  else
    let x1 := x.put (Reg.FORCE_STAT l.val) Fld.FORCE_STAT_FORCED_BITS 0
    let L := x1.lg l
    if x.latched l || x.stopping || decide (L.step ≠ 3) then x1
    else (x1.setLeg l { L with step := 0, holdReload := true, safeWait := [] }).drive l x.now

/-- A driver fault of a leg is live and enabled (R128). -/
def SecState.fltLive (x : SecState) (l : Fin 4) : BitVec 6 :=
  BitVec.ofNat 6 (x.fld (Reg.OC_LIVE l.val) Fld.OC_LIVE_FLT) &&&
    BitVec.ofNat 6 (x.fld (Reg.OC_CFG l.val) Fld.OC_CFG_FLT_EN) &&& x.legPos l

/-- The pairs of OC1_TRIP, OC2_TRIP and DRV_FLT of a leg go idle with their conditions (R260). -/
def SecState.protRelease (x : SecState) (l : Fin 4) : SecState :=
  let x1 := if x.flag (Reg.OC_LIVE l.val) Fld.OC_LIVE_OC1 then x else x.hold (8 + 8 * l.val) false
  let x2 := if x.flag (Reg.OC_LIVE l.val) Fld.OC_LIVE_OC2 then x1 else x1.hold (8 + 8 * l.val + 1) false
  if x.fltLive l = 0 then x2.hold (8 + 8 * l.val + 2) false else x2

/-- A switch of the leg is inside its turn-on blanking (R129). -/
def SecState.blanked (x : SecState) (l : Fin 4) (n : Nat) : Bool := (x.lg l).blank.any (fun e => e.1 == n)

/-- A self-test of the leg's comparators runs (R142). -/
def SecState.testing (x : SecState) (l : Fin 4) : Bool := x.flag (Reg.SELFTEST l.val) Fld.SELFTEST_BUSY

/-- DRIVER_FAULT (R128, R129): a return is asserted after the glitch rejector; an event where it is enabled, its
position used and its switch not blanked. With `low` false the return is high again. -/
def SecState.driverFault (x : SecState) (l : Fin 4) (n : Fin 6) (low : Bool) : SecState :=
  let a := Reg.OC_LIVE l.val
  let bit := natW (2 ^ (8 + n.val))
  if low then
    let x1 := x.wr a (x.rd a ||| bit)
    if (x1.fltLive l).getLsbD n.val && !x1.blanked l n.val then x1.protEvent l (natW (2 ^ n.val)) 2 else x1
  else (x.wr a (x.rd a &&& ~~~bit)).protRelease l

/-- OC_CFG written (R128): a return that is asserted and becomes enabled is a driver fault at that instant. -/
def SecState.ocCfgWrite (x : SecState) (l : Fin 4) (m : W) : SecState :=
  let x1 := x.wr (Reg.OC_CFG l.val) m
  let new := x1.fltLive l &&& ~~~(x.fltLive l)
  (upTo 6).foldl (fun x n =>
    if new.getLsbD n && !x.blanked l n then x.protEvent l (natW (2 ^ n)) 2 else x) (x1.protRelease l)

/-- OC1_CROSSING (R130, R131, R142): an event unless a switch of the leg is inside its blanking. -/
def SecState.oc1 (x : SecState) (l : Fin 4) : SecState :=
  if x.testing l || x.flag (Reg.OC_LIVE l.val) Fld.OC_LIVE_OC1 then x
  else
    let x1 := x.put (Reg.OC_LIVE l.val) Fld.OC_LIVE_OC1 1
    if (x.lg l).blank.isEmpty then x1.protEvent l 0x100 0 else x1

/-- OC2_CROSSING (R130, R133, R142): never blanked. -/
def SecState.oc2 (x : SecState) (l : Fin 4) : SecState :=
  if x.testing l || x.flag (Reg.OC_LIVE l.val) Fld.OC_LIVE_OC2 then x
  else (x.put (Reg.OC_LIVE l.val) Fld.OC_LIVE_OC2 1).protEvent l 0x200 1

/-- COMPARATOR_GOOD_SIDE (R130, R132): the comparator is on the good side, and its NOT_READY hold ends. -/
def SecState.goodSide (x : SecState) (l : Fin 4) (second : Bool) : SecState :=
  if x.testing l then x
  else
    let was := x.heldOff l
    let x1 := x.put (Reg.OC_LIVE l.val) (if second then Fld.OC_LIVE_OC2 else Fld.OC_LIVE_OC1) 0
    let L := x1.lg l
    let x2 := x1.setLeg l (if second then { L with nr2 := false } else { L with nr1 := false })
    (x2.protRelease l).tryRelease l was x.now

/-- BLANKING_END (R129, R131): the blanking of switch n that ends at t; a return still low acts at that instant, and so
does a fault-side OC1 when it was the last. -/
def SecState.blankingEnd (x : SecState) (l : Fin 4) (n : Fin 6) (t : Nat) (low : Bool) : SecState :=
  let L := x.lg l
  if L.blank.contains (n.val, t) then
    let a := Reg.OC_LIVE l.val
    let bit := natW (2 ^ (8 + n.val))
    let x1 := (x.at t).setLeg l { L with blank := L.blank.filter (fun e => e.1 ≠ n.val) }
    let x2 := (x1.wr a (if low then x1.rd a ||| bit else x1.rd a &&& ~~~bit)).protRelease l
    let x3 := if (x2.fltLive l).getLsbD n.val then x2.protEvent l (natW (2 ^ n.val)) 2 else x2
    if (x3.lg l).blank.isEmpty && x3.flag a Fld.OC_LIVE_OC1 && !(x3.lg l).nr1 && !x3.testing l then x3.protEvent l 0x100 0
    else x3
  else x

/-- PLATEAU_END (R134): the clocked timer ends; it never does where the section clock is dead. -/
def SecState.plateauEnd (x : SecState) (l : Fin 4) (t : Nat) : SecState :=
  if (x.lg l).step = 1 ∧ (x.lg l).clockDead = false then (x.at t).step2 l t else x

/-- DELAY_LINE_END (R135): the delay line ends before the timer and starts step 2; BACKUP sets and PROT_BACKUP is
raised. -/
def SecState.delayLineEnd (x : SecState) (l : Fin 4) (t : Nat) : SecState :=
  if (x.lg l).step = 1 then
    (((x.at t).put (Reg.PROT_STAT l.val) Fld.PROT_STAT_BACKUP 1).pulse (8 + 8 * l.val + 3)).step2 l t
  else x

/-- STEP2_INNER_END (R136, R286): the inner switches and clamps are removed. -/
def SecState.step2InnerEnd (x : SecState) (l : Fin 4) (t : Nat) : SecState :=
  let x1 := if x.safe5 = 2 then (x.setLeg l { x.lg l with frozen5 := 0 }).drive l t else x
  if (x.lg l).step = 2 then (x1.at t).finish l t else x1

/-- PROT_CLR (R139), with the driver returns that are asserted at that instant. Where the forcing latch still holds, the
safe levels come with the next RELOAD. -/
def SecState.protClr (x0 : SecState) (l : Fin 4) (flt : BitVec 6) : SecState :=
  let x := x0.put (Reg.OC_LIVE l.val) Fld.OC_LIVE_FLT flt.toNat
  let L := x.lg l
  if L.step = 1 ∨ L.step = 2 ∨ x.fld (Reg.OC_LIVE l.val) ⟨1, 0⟩ ≠ 0 ∨ x.fltLive l ≠ 0 ∨ x.testHold l = true then
    x.put (Reg.PROT_STAT l.val) Fld.PROT_STAT_CLR_REF 1
  else if !x.latched l then x
  else
    let x1 := x.wr (Reg.PROT_STAT l.val) (x.rd (Reg.PROT_STAT l.val) &&& 0x6FFFF4C0)
    if x.stopping then x1
    else if x.forced l then x1.setLeg l { L with holdReload := true }
    else (x1.setLeg l { L with step := 0, frozen := 0, allOff := false, holdReload := true }).drive l x.now

/-- SELFTEST_START (R142): accepted with the interlock output 0 on a leg that is held off. A START while a test runs is
refused, and an accepted START clears FAILMAP and leaves PASS and DONE (DESIGN CHOICE, notes/assumptions/32.md). -/
def SecState.selftestStart (x : SecState) (l : Fin 4) : SecState :=
  let a := Reg.SELFTEST l.val
  let off := decide (x.state ≠ 4) || !(x.lg l).perm || x.latched l || x.forced l
  if x.testing l || decide ((x.lg l).out ≠ 0) || !off then x.put a Fld.SELFTEST_REF 1
  else (((x.put a Fld.SELFTEST_BUSY 1).put a Fld.SELFTEST_FAILMAP 0).put (Reg.PROT_STAT l.val)
    Fld.PROT_STAT_TEST_HOLD 1).drive l x.now

/-- SELFTEST_DONE (R143): the comparators come back on the fault side; a failed step raises SELFTEST_FAIL and keeps
TEST_HOLD. -/
def SecState.selftestDone (x : SecState) (l : Fin 4) (fail : BitVec 8) : SecState :=
  let a := Reg.SELFTEST l.val
  if x.testing l then
    let x1 := (((x.put a Fld.SELFTEST_BUSY 0).put a Fld.SELFTEST_DONE 1).put a Fld.SELFTEST_FAILMAP fail.toNat).putB a
      Fld.SELFTEST_PASS (decide (fail = 0))
    let x2 := (x1.putB (Reg.PROT_STAT l.val) Fld.PROT_STAT_TEST_HOLD (decide (fail ≠ 0))).put (Reg.OC_LIVE l.val) ⟨1, 0⟩ 3
    let x3 := x2.setLeg l { x2.lg l with nr1 := true, nr2 := true }
    (if fail = 0 then x3 else x3.pulse (8 + 8 * l.val + 4)).drive l x.now
  else x

/-! ### Bootstrap pulses (R124 to R126) -/

/-- A refresh pulse begins at t. -/
def SecState.bsStart (x : SecState) (l : Fin 4) (t : Nat) : SecState :=
  ((x.bump (Reg.BS_EVCNT l.val) Fld.BS_EVCNT_REFRESH).setLeg l { x.lg l with bsPulse := true, bsEnd := none }).evalLeg
    l t false true

/-- BOOTSTRAP_REFRESH (R124, R127), at a VALLEY of the leg; none while stage 4 or stage 5 holds it. -/
def SecState.refreshAt (x : SecState) (l : Fin 4) (t : Nat) : SecState :=
  match (x.lg l).hiSince with
  | some t0 =>
    if x.bsOn l && decide (t0 + x.bsLimit l ≤ t) && x.mayDrive l && !x.heldOff l && !(x.lg l).bsPulse then x.bsStart l t
    else x
  | none => x

/-- IDLE_REFRESH (R125): a leg that may drive gates, with a stage-1 request of 0 and held by neither stage. -/
def SecState.idleRefresh (x : SecState) (l : Fin 4) (t : Nat) : SecState :=
  if x.bsOn l && decide (bitsN (x.legW l 8) 31 16 ≠ 0) && x.mayDrive l && !x.heldOff l && decide (x.stage1 l = 0) &&
      !(x.lg l).bsPulse && decide ((x.lg l).train = 0) then (x.at t).bsStart l t
  else x

/-- The gap between two pulses of a train (R126): T_REF or the pair's floor, whichever is longer. -/
def SecState.trainGap (x : SecState) (l : Fin 4) : Nat :=
  max (x.bsRef l) ((x.partners l (x.bsLo l)).foldl (fun m p => max m (p.2 * 16)) 0)

/-- REFRESH_PULSE_END (R124, R126): T_REF after the low side turned on. In a train the next pulse waits for its gap,
and the last one completes the train; the high side follows after its floor. After a refresh pulse the T_BS timer
restarts. -/
def SecState.refreshEnd (x : SecState) (l : Fin 4) (t : Nat) : SecState :=
  let L := x.lg l
  if L.bsPulse ∧ L.bsEnd = some t then
    if 2 ≤ L.train then
      let x1 := ((x.at t).setLeg l { L with bsPulse := false, bsEnd := none, train := L.train - 1 }).evalLeg l t
      let M := x1.lg l
      x1.setLeg l { M with
        bsPulse := true, req := bit6 (x.bsLo l), wait := M.wait ++ [(x.bsLo l, t + x.trainGap l)] }
    else if L.train = 1 then
      (((x.at t).bump (Reg.BS_EVCNT l.val) Fld.BS_EVCNT_TRAINS).setLeg l { L with
        bsPulse := false, bsEnd := none, train := 0, trainDue := false, loLast := t }).evalLeg l t
    else
      let x1 := ((x.at t).setLeg l { L with bsPulse := false, bsEnd := none, bsFrom := some t }).evalLeg l t false true
      let M := x1.lg l
      if M.ball.getLsbD (x.bsHi l) || M.wait.any (fun e => e.1 == x.bsHi l) then x1
      else x1.setLeg l { M with bsFrom := none }
  else x

/-- PRECHARGE_TRAIN (R126, R127): a train that is due begins at t with its first pulse, which passes stage 3 like any
request. -/
def SecState.prechargeTrain (x : SecState) (l : Fin 4) (t : Nat) : SecState :=
  if (x.stage1 l).getLsbD (x.bsHi l) && x.trainIsDue l t && !x.heldOff l && !(x.lg l).bsPulse then
    ((x.at t).setLeg l { x.lg l with train := x.bsTrain l, bsPulse := true, bsEnd := none, trainDue := false }).evalLeg l t
  else x

/-- FLOOR_EXPIRY (R121, R111): a turn-on that waits for its floor at t, or a safe-level ON switch. -/
def SecState.floorExpiry (x : SecState) (l : Fin 4) (n : Fin 6) (t : Nat) : SecState :=
  let L := x.lg l
  if L.wait.contains (n.val, t) then
    let e := if L.bsPulse && n.val == x.bsLo l then some (t + x.bsRef l) else L.bsEnd
    ((x.at t).setLeg l { L with wait := L.wait.filter (fun w => w.1 ≠ n.val), out := L.out ||| bit6 n.val, bsEnd := e }).drive
      l t
  else if L.safeWait.contains (n.val, t) then
    ((x.at t).setLeg l { L with
      safeWait := L.safeWait.filter (fun w => w.1 ≠ n.val), frozen := L.frozen ||| bit6 n.val }).drive l t
  else x

/-! ### Window monitors (R144 to R148) -/

/-- A filtered state of monitor m. -/
def SecState.filt (x : SecState) (m : Nat) (hi : Bool) : Bool :=
  x.flag (Reg.WM_LIVE m) (if hi then Fld.WM_LIVE_FILT_HI else Fld.WM_LIVE_FILT_LO)

/-- The monitor output (R144, R145, R148). With DIG = 1 and USE = 0b11, which R148 does not name, it is always active
(DESIGN CHOICE, notes/assumptions/34.md). -/
def SecState.wmOut (x : SecState) (m : Nat) : Bool :=
  let c := x.rd (Reg.WM_CFG m)
  let use := fget Fld.WM_CFG_USE c
  if fbit Fld.WM_CFG_DIG c then
    match use with | 1 => x.filt m true | 2 => !x.filt m true | 3 => true | _ => false
  else
    match use with | 1 => x.filt m true | 2 => x.filt m false | 3 => x.filt m true || x.filt m false | _ => false

/-- The output register, the latch and the detectors that FAULT_ROUTE can name follow the monitor (R146, R259). -/
def SecState.wmSync (x : SecState) (m : Nat) : SecState :=
  let o := x.wmOut m
  let was := wbit (x.rd Reg.WM_LATCH) (8 + m)
  let bit := natW (2 ^ (8 + m))
  let x1 := x.wr Reg.WM_LATCH (if o then x.rd Reg.WM_LATCH ||| bit else x.rd Reg.WM_LATCH &&& ~~~bit)
  let x2 := x1.route (0x18 + m) o
  if o && !was then
    let x3 := x2.wr Reg.WM_LATCH (x2.rd Reg.WM_LATCH ||| natW (2 ^ m))
    x3.route (0x10 + m) true
  else x2

/-- The last samples of a comparator, newest first (R145). -/
def SecState.wmHist (x : SecState) (m : Nat) (hi : Bool) : List Bool :=
  Tbl.get (fun _ => []) x.wmHists (2 * m + b2n hi)

/-- The samples of a comparator replaced. -/
def SecState.setWmHist (x : SecState) (m : Nat) (hi : Bool) (h : List Bool) : SecState :=
  { x with wmHists := Tbl.set (fun _ => []) x.wmHists (2 * m + b2n hi) h }

/-- The majority filter (R145): active with at least K of the last N samples active, inactive with at least K of them
inactive, otherwise held. -/
def majority (n k : Nat) (h : List Bool) (old : Bool) : Bool :=
  let a := ((h.take n).filter id).length
  let i := ((h.take n).filter (fun b => !b)).length
  if k ≤ a then true else if k ≤ i then false else old

/-- The variable-period event inputs that take a filtered state (R104): a rising edge waits for the leg, a falling one
takes it back. -/
def SecState.vpNotice (x : SecState) (m : Nat) (hi was now : Bool) : SecState :=
  if was = now then x
  else
    ([0, 1, 2, 3] : List (Fin 4)).foldl (fun x l =>
      let v := (x.lg l).vps
      if fbit Fld.VP_SRC_EN v && decide (fget Fld.VP_SRC_MON v = m) && (fbit Fld.VP_SRC_CMP v != hi) then
        x.setLeg l { x.lg l with vpEdge := now }
      else x) x

/-- One sample of a comparator (R144, R145): the comparator's state, its filter, and what follows from it. -/
def SecState.wmSample (x : SecState) (m : Nat) (hi : Bool) (b : Bool) : SecState :=
  let a := Reg.WM_LIVE m
  let c := x.rd (Reg.WM_CFG m)
  let h := (b :: x.wmHist m hi).take 15
  let was := x.filt m hi
  let now := majority (fget Fld.WM_CFG_N c) (fget Fld.WM_CFG_K c) h was
  ((((x.setWmHist m hi h).putB a (if hi then Fld.WM_LIVE_CMP_HI else Fld.WM_LIVE_CMP_LO) b).putB a
    (if hi then Fld.WM_LIVE_FILT_HI else Fld.WM_LIVE_FILT_LO) now).vpNotice m hi was now).wmSync m

/-- MONITOR_FILTER_CHANGE (R145): the samples of a comparator up to one that changes its filtered state. The lower
comparator of a logic input is off (R148). -/
def SecState.monitorChange (x : SecState) (m : Nat) (hi : Bool) (smp : List Bool) : SecState :=
  if fbit Fld.WM_CFG_DIG (x.rd (Reg.WM_CFG m)) && !hi then x else smp.foldl (fun x b => x.wmSample m hi b) x

/-- A comparator in a state with a filter full of it (R147). -/
def SecState.wmAssume (x : SecState) (m : Nat) (hi b : Bool) : SecState :=
  let a := Reg.WM_LIVE m
  (((x.setWmHist m hi (List.replicate 15 b)).putB a (if hi then Fld.WM_LIVE_CMP_HI else Fld.WM_LIVE_CMP_LO) b).putB a
    (if hi then Fld.WM_LIVE_FILT_HI else Fld.WM_LIVE_FILT_LO) b)

/-- WM_CFG written: with DIG the lower comparator goes off (R148). -/
def SecState.wmCfgWrite (x : SecState) (m : Nat) (v : W) : SecState :=
  let x1 := x.wr (Reg.WM_CFG m) v
  (if fbit Fld.WM_CFG_DIG v then (x1.wmAssume m false false).vpNotice m false (x.filt m false) false else x1).wmSync m

/-- A latched output is cleared while the monitor output is inactive (R146). -/
def SecState.wmClear (x : SecState) (m : Nat) : SecState :=
  if wbit (x.rd Reg.WM_LATCH) (8 + m) then x
  else (x.wr Reg.WM_LATCH (x.rd Reg.WM_LATCH &&& ~~~(natW (2 ^ m)))).route (0x10 + m) false

/-- WM_AUTO_CLEAR (R146): at a VALLEY of a leg, the monitors that name it. -/
def SecState.wmAutoClear (x : SecState) (l : Fin 4) : SecState :=
  (upTo 8).foldl (fun x m =>
    let c := x.rd (Reg.WM_CFG m)
    if fbit Fld.WM_CFG_AUTO_CLR c && decide (fget Fld.WM_CFG_CLR_LEG c = l.val) then x.wmClear m else x) x

/-- The comparators and monitors take the states their ASSUME bits declare, the filters full of them (R132, R147). -/
def SecState.monitorsStart (x : SecState) : SecState :=
  let x1 := ([0, 1, 2, 3] : List (Fin 4)).foldl (fun x l =>
    let c := x.rd (Reg.OC_CFG l.val)
    x.put (Reg.OC_LIVE l.val) ⟨1, 0⟩ (b2n (!fbit Fld.OC_CFG_ASSUME1 c) + 2 * b2n (!fbit Fld.OC_CFG_ASSUME2 c))) x
  (upTo 8).foldl (fun x m =>
    let c := x.rd (Reg.WM_CFG m)
    ((x.wmAssume m true (fbit Fld.WM_CFG_ASSUME_HI c)).wmAssume m false
      (!fbit Fld.WM_CFG_DIG c && fbit Fld.WM_CFG_ASSUME_LO c)).wmSync m) x1

/-- The rule of OC_TH (R130). -/
def ocThOk (v : W) : Bool := decide (fget Fld.OC_TH_OC1_TH v < fget Fld.OC_TH_OC2_TH v)

/-- The rule of WM_CFG (R145). -/
def wmCfgOk (v : W) : Bool :=
  let n := fget Fld.WM_CFG_N v
  let k := fget Fld.WM_CFG_K v
  decide (1 ≤ n) && decide (k ≤ n) && decide (n < 2 * k)

/-- CMP_STAT.CFG_REF: a write was refused. -/
def SecState.cmpRef (x : SecState) : SecState := x.put Reg.CMP_STAT Fld.CMP_STAT_CFG_REF 1

/-- A software write to the comparators and windows block. -/
def SecState.cmpWrite (x : SecState) (o : Nat) (r : RegRow) (isOpen : Bool) (v : W) : SecState :=
  let m := r.merge isOpen (x.rd o) v
  if o = Reg.WM_LATCH then (upTo 8).foldl (fun x k => if wbit v k then x.wmClear k else x) x
  else if 0x40100 ≤ o ∧ o < 0x40200 then
    if o % 0x20 = 0 then (if isOpen = true ∧ ocThOk m = false then x.cmpRef else x.wr o m)
    else if o % 0x20 = 4 then x.ocCfgWrite ⟨(o - 0x40100) / 0x20 % 4, by omega⟩ m
    else x.wr o m
  else if 0x40200 ≤ o ∧ o % 0x20 = 4 then
    if isOpen = true ∧ wmCfgOk m = false then x.cmpRef else x.wmCfgWrite ((o - 0x40200) / 0x20) m
  else x.wr o m

/-- A software write to the leg block: the commands PROT_CMD and SELFTEST, and the flags that a 1 clears. -/
def SecState.legWrite (x : SecState) (o : Nat) (r : RegRow) (v : W) : SecState :=
  let l : Fin 4 := ⟨(o - 0x10000) / 0x1000 % 4, by omega⟩
  let e := o % 0x1000
  if e = 0x54 then (if wbit v 0 then x.protClr l (BitVec.ofNat 6 (x.fld (Reg.OC_LIVE l.val) Fld.OC_LIVE_FLT)) else x)
  else if e = 0x58 then
    let x1 := x.wr o (r.merge false (x.rd o) v)
    if wbit v 0 then x1.selftestStart l else x1
  else x.wr o (r.merge false (x.rd o) v)

/-- What the status registers of a leg read as: GATE_VEC, GATE_STAT and PROT_STAT show the stages. -/
def SecState.legView (x : SecState) (o : Nat) : W :=
  let l : Fin 4 := ⟨(o - 0x10000) / 0x1000 % 4, by omega⟩
  let L := x.lg l
  let w := x.rd o
  if o % 0x1000 = 0x40 then
    natW (L.ball.toNat * 0x1000000 + (L.held ||| L.shoot).toNat * 0x10000 + L.out.toNat * 0x100 + L.req.toNat)
  else if o % 0x1000 = 0x44 then
    fput Fld.GATE_STAT_PRECHG_PEND (fput Fld.GATE_STAT_BS_BUSY w (b2n (L.bsPulse || decide (L.train ≠ 0)))) (b2n (x.trainIsDue l x.now))
  else if o % 0x1000 = 0x50 then
    fput Fld.PROT_STAT_NOT_READY (fput Fld.PROT_STAT_STEP w L.step)
      (b2n (L.nr1 || L.nr2 || decide (x.fld (Reg.OC_LIVE l.val) ⟨1, 0⟩ ≠ 0)))
  else w

end Sys2Proof.Machine
end

