-- ==== Sys2Proof/Machine/Pwm.lean ====
section
/-! DEFINITION. Pulse-width modulation (R96 to R117, R436): the carriers of the legs, compares and switch requests,
timing sets and their commits, IMMEDIATE sets, variable periods, synchronised legs and carrier alignment. Times count
sixteenths of a PWM clock in the section's time. -/

namespace Sys2Proof.Machine

/-! ### Geometry of a leg's carrier -/

/-- The prescaler p of a configuration (R96). -/
def presc (cfg : W) : Nat := 2 ^ fget Fld.CAR_CFG_PRESC cfg

/-- The carrier mode of a configuration (R97): 0 triangle, 1 sawtooth, 2 COT, 3 COFF. -/
def carMode (cfg : W) : Nat := fget Fld.CAR_CFG_MODE cfg

/-- The local index of the master leg (R12, R99). -/
def SecState.master (x : SecState) : Fin 4 := ⟨x.fld Reg.TICK_CFG Fld.TICK_CFG_MASTER % 4, by omega⟩

/-- The active period in counts (R97): a value below 16 is applied as 16. -/
def SecState.prd (x : SecState) (l : Fin 4) : Nat := max 16 ((x.rd (Reg.ACT_PRD l.val)).toNat % 65536)

/-- The length of PRD counts in sixteenths: 16 · p · PRD. -/
def SecState.full (x : SecState) (l : Fin 4) : Nat := 16 * presc (x.lg l).cfg * x.prd l

/-- A compare resolved to its edge offset (R101): X, whether it was clamped to X_max, whether it was adjusted. -/
def resolveX (cfg lim w : W) (prd : Nat) : Nat × Bool × Bool :=
  let k := 16 * presc cfg
  let (x, adj) :=
    if fbit Fld.CAR_CFG_RATIO cfg then
      ((roundHalfEven ((w.toNat % 65536 * (k * prd) : Nat) : Int) 16).toNat, decide (bitsN w.toNat 22 16 ≠ 0))
    else
      let fine := w.toNat % 128
      (k * bitsN w.toNat 22 7 + min fine (k - 1), decide (k ≤ fine))
  let xm := (roundHalfEven ((fget Fld.LEG_LIM_DMAX lim * (k * prd) : Nat) : Int) 16).toNat
  if xm < x then (xm, true, adj) else (x, false, adj)

/-- The words of the shadow set: PRD, the six compares, FORCE, the three dead-time words (R105). -/
def SecState.shadow (x : SecState) (l : Fin 4) : List W :=
  x.rd (Reg.SH_PRD l.val) :: ((upTo 6).map (fun j => x.rd (Reg.SH_CMP l.val j)) ++ [x.rd (Reg.SH_FORCE l.val)] ++
    (upTo 3).map (fun j => x.rd (Reg.SH_DT l.val j)))

/-- The set as it applies (R103): DIRECT = 0 unless DIRECT_EN allows it. -/
def SecState.applied (x : SecState) (l : Fin 4) (w : List W) : List W :=
  if fbit Fld.CAR_CFG_DIRECT_EN (x.lg l).cfg then w else w.set 7 (fput Fld.SH_FORCE_DIRECT (w.getD 7 0) 0)

/-- A set becomes the active set (R106). -/
def SecState.setActive (x : SecState) (l : Fin 4) (w0 : List W) : SecState :=
  let w := x.applied l w0
  let x1 := x.wr (Reg.ACT_PRD l.val) (w.getD 0 0)
  let x2 := (upTo 6).foldl (fun x j => x.wr (Reg.ACT_CMP l.val j) (w.getD (1 + j) 0)) x1
  let x3 := x2.wr (Reg.ACT_FORCE l.val) (w.getD 7 0)
  (upTo 3).foldl (fun x j => x.wr (Reg.ACT_DT l.val j) (w.getD (8 + j) 0)) x3

/-- Compare j (A0, B0, A1, B1, A2, B2) that acts in the running period: of an IMMEDIATE set that has arrived, else of
the active set (R108). -/
def SecState.cmpNow (x : SecState) (l : Fin 4) (j : Nat) : W :=
  match (x.lg l).imm with | some w => w.getD (1 + j) 0 | none => x.rd (Reg.ACT_CMP l.val j)

/-- SH_FORCE that acts in the running period. -/
def SecState.forceNow (x : SecState) (l : Fin 4) : W :=
  match (x.lg l).imm with | some w => w.getD 7 0 | none => x.rd (Reg.ACT_FORCE l.val)

/-- The edge offset of compare j in the running period. -/
def SecState.xNow (x : SecState) (l : Fin 4) (j : Nat) : Nat :=
  (resolveX (x.lg l).cfg (x.lg l).lim (x.cmpNow l j) (x.prd l)).1

/-- The forced level of unit u: 0 follow, 1 low, 2 high, 3 applied as low (R103). -/
def levelOf (f : W) (u : Nat) : Nat := bitsN f.toNat (2 * u + 1) (2 * u)

/-- DIRECT acts: it is set and allowed (R103). -/
def SecState.direct (x : SecState) (l : Fin 4) : Bool :=
  fbit Fld.SH_FORCE_DIRECT (x.forceNow l) && fbit Fld.CAR_CFG_DIRECT_EN (x.lg l).cfg

/-- The flags of a set at the moment it becomes active or an IMMEDIATE set arrives (R97, R101, R103). An adjusted
compare is reported whether or not its unit follows it; DMAX does not apply to a forced unit or to DIRECT. -/
def SecState.setFlags (x : SecState) (l : Fin 4) (w : List W) (prd : Nat) : SecState :=
  let a := Reg.LEG_STAT l.val
  let cfg := (x.lg l).cfg
  let f := w.getD 7 0
  let x1 := if (w.getD 0 0).toNat % 65536 < 16 then x.put a Fld.LEG_STAT_PRD_LOW 1 else x
  let dir := fbit Fld.SH_FORCE_DIRECT f
  let en := fbit Fld.CAR_CFG_DIRECT_EN cfg
  let x2 := if dir && !en then x1.put a Fld.LEG_STAT_DIRECT_REF 1 else x1
  (upTo 6).foldl (fun x j =>
    let (_, clip, adj) := resolveX cfg (x.lg l).lim (w.getD (1 + j) 0) prd
    let x3 := if clip && !(dir && en) && decide (levelOf f (j / 2) = 0) then x.put a Fld.LEG_STAT_DUTY_CLIP 1 else x
    if adj then x3.put a Fld.LEG_STAT_CFG_REF 1 else x3) x2

/-! ### Switch requests (R102, R103) -/

/-- The request of switch n before its DT_ON (R102): off where the leg type does not use the position. In COT and COFF
only U0 runs (R104). -/
def SecState.rawReq (x : SecState) (l : Fin 4) (n : Nat) : Bool :=
  let L := x.lg l
  let nib := bitsN L.map.toNat (4 * n + 3) (4 * n)
  let u := nib % 4
  if u = 3 || !(x.legPos l).getLsbD n then false
  else
    let lev := if 2 ≤ carMode L.cfg ∧ u ≠ 0 then false else L.u.getD u false
    lev != Nat.testBit nib 2

/-- The switch requests follow the units at t: a turn-off at once, a turn-on after its DT_ON; a request that falls
before is absorbed and counted (R102). DIRECT gives the requests as VECTOR (R103). -/
def SecState.requests (x : SecState) (l : Fin 4) (t : Nat) : SecState :=
  let L := x.lg l
  if x.direct l then
    (x.setLeg l { L with req1 := BitVec.ofNat 6 (fget Fld.SH_FORCE_VECTOR (x.forceNow l)), dt := [] }).evalLeg l t
  else
    let x1 := (upTo 6).foldl (fun x n =>
      let L := x.lg l
      let pendDt := L.dt.any (fun e => e.1 == n)
      if x.rawReq l n then
        if L.req1.getLsbD n || pendDt then x
        else if x.dtOn l n = 0 then x.setLeg l { L with req1 := L.req1 ||| bit6 n }
        else x.setLeg l { L with dt := L.dt ++ [(n, t + x.dtOn l n)] }
      else
        let x1 := if pendDt then x.bump (Reg.LEG_EVCNT l.val) Fld.LEG_EVCNT_ABSORBED else x
        x1.setLeg l { L with dt := L.dt.filter (fun e => e.1 ≠ n), req1 := L.req1 &&& ~~~(bit6 n) }) x
    x1.evalLeg l t

/-- The levels that SH_FORCE gives take effect (R103, R109). A unit that is forced no more keeps its level to its next
edge (DESIGN CHOICE, notes/assumptions/29.md). -/
def SecState.levels (x : SecState) (l : Fin 4) : SecState :=
  let L := x.lg l
  let f := x.forceNow l
  x.setLeg l { L with u := (upTo 3).map (fun n =>
    match levelOf f n with | 0 => L.u.getD n false | 2 => true | _ => false) }

/-- A unit that follows its compares takes a level. -/
def SecState.setUnit (x : SecState) (l : Fin 4) (u : Nat) (b : Bool) : SecState :=
  if levelOf (x.forceNow l) u = 0 then x.setLeg l { x.lg l with u := (x.lg l).u.set u b } else x

/-- The instant of an edge of unit u in the present half period or period, none where it has none (R100). -/
def SecState.edgeAt (x : SecState) (l : Fin 4) (u : Nat) (b : Bool) : Option Int :=
  let L := x.lg l
  let xa := x.xNow l (2 * u)
  let xb := x.xNow l (2 * u + 1)
  let full := x.full l
  match carMode L.cfg with
  | 0 =>
    if b then (if !L.up && decide (0 < xb) && decide (xb ≤ full) then some (L.tEv + full - xb) else none)
    else (if L.up && decide (xa < full) then some (L.tEv + xa) else none)
  | 1 =>
    if b then (if xb < xa ∧ xb < full then some (L.tVal + xb) else none)
    else (if xa < full ∧ (xb < xa ∨ L.u.getD u false = true) then some (L.tVal + xa) else none)
  | _ => none

/-- An edge has occurred. -/
def SecState.markDone (x : SecState) (l : Fin 4) (u : Nat) (b : Bool) : SecState :=
  let L := x.lg l
  x.setLeg l (if b then { L with doneB := L.doneB.set u true } else { L with doneA := L.doneA.set u true })

/-- COMPARE_EDGE (R100): the edge of a unit that follows its compares, at its instant. -/
def SecState.compareEdge (x : SecState) (l : Fin 4) (u : Fin 3) (b : Bool) (t : Nat) : SecState :=
  let L := x.lg l
  let done := (if b then L.doneB else L.doneA).getD u.val false
  if L.run && !done && decide (levelOf (x.forceNow l) u.val = 0) && decide (x.edgeAt l u.val b = some (t : Int)) then
    (((x.at t).markDone l u.val b).setUnit l u.val b).requests l t
  else x

/-- DT_ON_EXPIRY (R102): the turn-on request of switch n that waited to t passes on. -/
def SecState.dtExpiry (x : SecState) (l : Fin 4) (n : Fin 6) (t : Nat) : SecState :=
  let L := x.lg l
  if L.dt.contains (n.val, t) then
    ((x.at t).setLeg l { L with dt := L.dt.filter (fun e => e.1 ≠ n.val), req1 := L.req1 ||| bit6 n.val }).evalLeg l t
  else x

/-! ### Carrier events (R97, R98, R104, R106) -/

/-- T_A of a variable period (R104). -/
def SecState.tA (x : SecState) (l : Fin 4) : Nat := x.xNow l 0

/-- T_MIN of a variable period. -/
def SecState.tMin (x : SecState) (l : Fin 4) : Nat :=
  16 * presc (x.lg l).cfg * fget Fld.LEG_LIM_PRD_MIN (x.lg l).lim

/-- The next carrier event of a leg after an event at t with the counter at c (R97, R104). -/
def SecState.schedule (x : SecState) (l : Fin 4) (t : Nat) (c : Nat) (peak : Bool) : SecState :=
  let L := x.lg l
  let k := 16 * presc L.cfg
  let prd := x.prd l
  match carMode L.cfg with
  | 0 =>
    if L.up then x.setLeg l { L with next := some ((t + k * (if c < prd then prd - c else 1) : Nat) : Int), nextPeak := true }
    else x.setLeg l { L with next := some ((t + k * (if 0 < c then c else 1) : Nat) : Int), nextPeak := false }
  | 1 =>
    if c < prd / 2 then x.setLeg l { L with next := some ((t + k * (prd / 2 - c) : Nat) : Int), nextPeak := true }
    else x.setLeg l { L with next := some ((t + k * (if c < prd then prd - c else 1) : Nat) : Int), nextPeak := false }
  | 2 =>
    if peak then x.setLeg l { L with next := none, nextPeak := false }
    else x.setLeg l { L with next := some ((t + x.tA l : Nat) : Int), nextPeak := true }
  | _ =>
    if peak then x.setLeg l { L with next := some ((t + x.tA l : Nat) : Int), nextPeak := false }
    else x.setLeg l { L with next := none, nextPeak := true }

/-- Whether a carrier event is a RELOAD of a leg (R98). -/
def isReload (cfg : W) (peak : Bool) : Bool :=
  if 2 ≤ carMode cfg then !peak
  else match fget Fld.CAR_CFG_RELOAD cfg with | 0 => !peak | 1 => peak | _ => true

/-- RELOAD (R98, R106, R436): PERIOD_CNT counts, the configuration registers take effect, and a pending set that is old
enough becomes active whole; one that is not sets DEFERRED. -/
def SecState.reload (x : SecState) (l : Fin 4) (old : Bool) : SecState :=
  let p := Reg.LEG_PERIOD l.val
  let x1 := x.put p Fld.LEG_PERIOD_PERIOD_CNT (x.fld p Fld.LEG_PERIOD_PERIOD_CNT + 1)
  let L := x1.lg l
  let x2 := x1.setLeg l { L with
    cfg := x1.rd (Reg.CAR_CFG l.val), lim := x1.rd (Reg.LEG_LIM l.val), map := x1.rd (Reg.SW_MAP l.val)
    vps := x1.rd (Reg.VP_SRC l.val) }
  match L.pend with
  | none => x2
  | some w =>
    if old then
      let x3 := (x2.setActive l w).setLeg l { x2.lg l with pend := none, imm := none }
      (x3.put p Fld.LEG_PERIOD_COMMIT_PERIOD (x3.fld p Fld.LEG_PERIOD_PERIOD_CNT)).setFlags l w (x3.prd l)
    else x2.put (Reg.LEG_STAT l.val) Fld.LEG_STAT_DEFERRED 1

/-- The compares begin a new half period or period at t with the counter at c (R100). -/
def SecState.beginHalf (x : SecState) (l : Fin 4) (t c : Nat) (peak : Bool) : SecState :=
  let L := x.lg l
  let x1 := x.levels l
  let L1 := x1.lg l
  match carMode L.cfg with
  | 0 => x1.setLeg l { L1 with tEv := t, doneA := [false, false, false], doneB := [false, false, false] }
  | 1 =>
    if peak then x1.setLeg l { L1 with tEv := t, cEv := c }
    else
      let x2 := x1.setLeg l { L1 with tEv := t, cEv := 0, doneA := [false, false, false], doneB := [false, false, false] }
      (upTo 3).foldl (fun x u => if x.xNow l (2 * u) ≤ x.xNow l (2 * u + 1) then x.setUnit l u false else x) x2
  | _ => (x1.setLeg l { L1 with tEv := t }).setUnit l 0 (!peak)

/-- A PEAK or VALLEY of leg l at t with its consequences in the leg: RELOAD, the new half period, the end of the holds
that last to a RELOAD (after a cleared protection latch under a forcing latch the safe levels come back), bootstrap
refresh and the monitors' automatic clear. `old` tells that a pending set is at least 2 PWM clocks old; `start` marks
the carrier start, which is no RELOAD (R117). A leg whose MODE changes at the RELOAD of a PEAK goes on as just after a
PEAK of the new mode (DESIGN CHOICE, notes/assumptions/29.md). -/
def SecState.legEvent (x : SecState) (l : Fin 4) (t : Nat) (peak old start : Bool) : SecState :=
  let L0 := x.lg l
  let rl := !start && isReload L0.cfg peak
  let c0 := if peak then (if carMode L0.cfg = 1 then x.prd l / 2 else x.prd l) else 0
  let x1 := if rl then x.reload l old else x
  let cfg := (x1.lg l).cfg
  let c := if peak && decide (carMode L0.cfg = 0) && decide (carMode cfg = 0) then x1.prd l else c0
  let x2 := x1.setLeg l { x1.lg l with
    up := !(peak && decide (carMode cfg = 0) && decide (carMode L0.cfg = 0)), tVal := if peak then L0.tVal else t }
  let x3 := ((x2.schedule l t c peak).beginHalf l t c peak).requests l t
  let x4 := if rl && (x3.lg l).permEnds then
      (x3.setLeg l { x3.lg l with perm := false, permEnds := false }).evalLeg l t else x3
  let x5 := if rl && (x4.lg l).holdReload then
      let x' := x4.setLeg l { x4.lg l with holdReload := false }
      if (x'.lg l).step = 0 then x'.tryRelease l true t
      else if x'.latched l then x'
      else ((x'.setLeg l { x'.lg l with allOff := false }).safeOn l t).drive l t
    else x4
  if peak then x5 else (x5.refreshAt l t).wmAutoClear l

/-- A carrier event of the master leg that TICK_CFG selects triggers a tick (R12, R13): 0 peak, 1 valley, 2 both. -/
def SecState.tickNote (x : SecState) (l : Fin 4) (peak : Bool) : SecState :=
  let src := x.fld Reg.TICK_CFG Fld.TICK_CFG_SRC
  if l = x.master ∧ (src = 2 ∨ src = (if peak then 0 else 1)) then { x with trig := some x.now } else x

/-- A carrier event with the windows that it opens and closes (R82), and the tick that it triggers (R12). -/
def SecState.legEventW (x : SecState) (l : Fin 4) (t : Nat) (peak old start : Bool) (ts : W) (inv free : Bool) :
    SecState :=
  let rl := !start && isReload (x.lg l).cfg peak
  ((x.legEvent l t peak old start).carrierEvent ⟨l.val, peak, !peak, rl⟩ ts inv free).tickNote l peak

/-- The counter value and direction of a leg at t (R97): up is true. A sawtooth counter goes on from its value at the
last event, also above a smaller PRD, until its next step takes it to 0. -/
def SecState.count (x : SecState) (l : Fin 4) (t : Nat) : Nat × Bool :=
  let L := x.lg l
  let k := 16 * presc L.cfg
  let prd := x.prd l
  let since (a : Int) : Nat := (((t : Int) - a) / k).toNat
  match carMode L.cfg with
  | 0 =>
    if L.up then (let c := since L.tEv; if prd ≤ c then (prd, false) else (c, true))
    else (let c := prd - since L.tEv; if c = 0 then (0, true) else (c, false))
  | 1 => (if L.next = some (t : Int) ∧ L.nextPeak = false then 0 else L.cEv + since L.tEv, true)
  | _ => (since L.tVal, true)

/-- SYNC_LOAD of a follower at the master's VALLEY (R99). -/
def SecState.syncLoad (x : SecState) (l : Fin 4) (t : Nat) (old : Bool) (ts : W) (inv free : Bool) : SecState :=
  let L := x.lg l
  let m := (x.lg x.master).cfg
  if l = x.master ∨ L.run = false ∨ fbit Fld.CAR_CFG_SYNC L.cfg = false ∨ carMode L.cfg ≠ carMode m ∨
      presc L.cfg ≠ presc m ∨ 2 ≤ carMode m then x
  else
    let prd := x.prd l
    let saw := carMode L.cfg = 1
    let phs := if carMode L.cfg = 1 then fget Fld.CAR_CFG_PHS L.cfg % prd else min prd (fget Fld.CAR_CFG_PHS L.cfg)
    let up := if saw then true else if phs = 0 then true else if phs = prd then false
      else !fbit Fld.CAR_CFG_SYNC_DIR L.cfg
    if x.count l t = (phs, up) then x
    else if phs = 0 then x.legEventW l t false old false ts inv free
    else if phs = (if carMode L.cfg = 1 then prd / 2 else prd) then
      let k := 16 * presc L.cfg
      let x1 := x.setLeg l { L with tVal := (t : Int) - k * phs }
      x1.legEventW l t true old false ts inv free
    else
      let k := 16 * presc L.cfg
      let ev : Int := if up then (t : Int) - k * phs else (t : Int) - k * (prd - phs)
      let nd := if up = L.up then x else x.setLeg l { L with doneA := [false, false, false], doneB := [false, false, false] }
      (nd.setLeg l { nd.lg l with up := up, tEv := ev, cEv := 0, tVal := if up then ev else L.tVal }).schedule l t phs false

/-- VP_EVENT_EDGE (R104): the event input ends the on-time of a COFF leg or the period of a COT leg, not before T_MIN;
an edge at another time, or without a rising edge of the filtered monitor state that VP_SRC names, is ignored. -/
def SecState.vpEdge (x : SecState) (l : Fin 4) (t : Nat) : SecState :=
  let L := x.lg l
  let m := carMode L.cfg
  if L.run && fbit Fld.VP_SRC_EN L.vps && L.vpEdge then
    let x0 := (x.at t).setLeg l { L with vpEdge := false }
    if decide (2 ≤ m) && L.next.isNone && decide (L.tEv ≤ t) then
      let lo : Int := L.tVal + x.tMin l - (if m = 3 then (x.tA l : Int) else 0)
      let x1 := x0.setLeg l { x0.lg l with next := some (max (t : Int) lo) }
      if (t : Int) < lo then x1.put (Reg.LEG_STAT l.val) Fld.LEG_STAT_VP_MIN 1 else x1
    else x0
  else x

/-- VP_TIMEOUT (R104): T_MAX comes without an event edge; VP_MAX sets and the carrier event follows at once. -/
def SecState.vpTimeout (x : SecState) (l : Fin 4) (t : Nat) : SecState :=
  let L := x.lg l
  let m := carMode L.cfg
  let hi : Int := L.tVal + x.full l - (if m = 3 then (x.tA l : Int) else 0)
  if L.run && decide (2 ≤ m) && L.next.isNone && decide ((t : Int) = hi) then
    ((x.at t).setLeg l { L with next := some (t : Int) }).put (Reg.LEG_STAT l.val) Fld.LEG_STAT_VP_MAX 1
  else x

/-! ### Commits (R105, R106, R108) -/

/-- CAR_CFG in use; before the carrier start the register. -/
def SecState.cfgNow (x : SecState) (l : Fin 4) : W := if (x.lg l).run then (x.lg l).cfg else x.rd (Reg.CAR_CFG l.val)

/-- The shadow set of a leg becomes pending (R106), with IMMEDIATE where it is allowed (R108). -/
def SecState.commitLeg (x : SecState) (l : Fin 4) (imm : Bool) : SecState :=
  let L := x.lg l
  if L.run then
    let a := Reg.LEG_STAT l.val
    let x1 := if L.pend.isSome then x.put a Fld.LEG_STAT_SUPERSEDED 1 else x
    let w := x.shadow l
    let ok := fbit Fld.CAR_CFG_IMM_EN L.cfg
    let x2 := x1.setLeg l { L with pend := some w, immWait := if imm && ok then some w else L.immWait }
    if imm && !ok then x2.put a Fld.LEG_STAT_IMM_IGN 1 else x2
  else x

/-- PWM_COMMIT (R105, R106, R108): the host commits the legs it owns; for another it sets OWNER_IGN. -/
def SecState.pwmCommit (x : SecState) (v : W) : SecState :=
  ([0, 1, 2, 3] : List (Fin 4)).foldl (fun x l =>
    if !wbit v l.val then x
    else if fbit Fld.CAR_CFG_OWNER (x.cfgNow l) then x.commitLeg l (wbit v (4 + l.val))
    else x.put (Reg.LEG_STAT l.val) Fld.LEG_STAT_OWNER_IGN 1) x

/-- The times of a COT or COFF leg (R104): T_MIN at most T_MAX, and T_A below T_MIN. -/
def SecState.vpTimes (x : SecState) (l : Fin 4) : Bool :=
  let cfg := x.rd (Reg.CAR_CFG l.val)
  if carMode cfg < 2 then true
  else
    let lim := x.rd (Reg.LEG_LIM l.val)
    let prd := max 16 ((x.rd (Reg.SH_PRD l.val)).toNat % 65536)
    let k := 16 * presc cfg
    let tmin := k * fget Fld.LEG_LIM_PRD_MIN lim
    decide (tmin ≤ k * prd) && decide ((resolveX cfg lim (x.rd (Reg.SH_CMP l.val 0)) prd).1 < tmin)

/-- The shadow of a leg filled with a set. -/
def SecState.fillShadow (x : SecState) (l : Fin 4) (w : List W) : SecState :=
  let x1 := x.wr (Reg.SH_PRD l.val) (w.getD 0 0)
  let x2 := (upTo 6).foldl (fun x j => x.wr (Reg.SH_CMP l.val j) (w.getD (1 + j) 0)) x1
  let x3 := x2.wr (Reg.SH_FORCE l.val) (w.getD 7 0)
  (upTo 3).foldl (fun x j => x.wr (Reg.SH_DT l.val j) (w.getD (8 + j) 0)) x3

/-- A set that the engine program commits for a leg (R15, R105): it fills the shadow and becomes pending, unless its
times break the rules of R104: then it is refused whole. -/
def SecState.engineCommitLeg (x : SecState) (l : Fin 4) (w : List W) (imm : Bool) : SecState :=
  if fbit Fld.CAR_CFG_OWNER (x.cfgNow l) then x.put (Reg.LEG_STAT l.val) Fld.LEG_STAT_OWNER_IGN 1
  else if (x.fillShadow l w).vpTimes l = false then x.put (Reg.LEG_STAT l.val) Fld.LEG_STAT_CFG_REF 1
  else (x.fillShadow l w).commitLeg l imm

/-- One compare of an IMMEDIATE set at its arrival (R109). -/
def SecState.immCompare (x : SecState) (l : Fin 4) (u : Nat) (b : Bool) (t : Nat) : SecState :=
  let L := x.lg l
  if (if b then L.doneB else L.doneA).getD u false || decide (levelOf (x.forceNow l) u ≠ 0) then x
  else
    match x.edgeAt l u b with
    | some e =>
      if e ≤ t then
        ((x.bump (Reg.LEG_EVCNT l.val) Fld.LEG_EVCNT_LATE_EDGE).markDone l u b).setUnit l u b
      else x
    | none => x

/-- IMMEDIATE_ARRIVAL (R108, R109): the set's compares, forces and DIRECT reach the running period at t. In a variable
period a new T_A moves the end that it sets. -/
def SecState.immArrival (x : SecState) (l : Fin 4) (t : Nat) : SecState :=
  let L := x.lg l
  match L.immWait with
  | none => x
  | some w =>
    let x1 := (x.at t).setLeg l { L with immWait := none, imm := some (x.applied l w) }
    let x2 := (x1.setFlags l w (x.prd l)).levels l
    let x3 :=
      if carMode L.cfg < 2 then
        (upTo 3).foldl (fun x u =>
          let ea := x.edgeAt l u false
          let eb := x.edgeAt l u true
          let bFirst := match ea, eb with | some a, some b => decide (b ≤ a) | _, _ => true
          if bFirst then (x.immCompare l u true t).immCompare l u false t
          else (x.immCompare l u false t).immCompare l u true t) x2
      else if (carMode L.cfg = 2 ∧ L.nextPeak = true) ∨ (carMode L.cfg = 3 ∧ L.nextPeak = false) then
        let e : Int := L.tEv + x2.tA l
        let x4 := x2.setLeg l { x2.lg l with next := some (max e t) }
        if e ≤ t then x4.bump (Reg.LEG_EVCNT l.val) Fld.LEG_EVCNT_LATE_EDGE else x4
      else x2
    x3.requests l t

/-! ### Configuration rules (R98, R99, R104, R105) -/

/-- LEG_STAT.CFG_REF. -/
def SecState.legRef (x : SecState) (l : Fin 4) : SecState := x.put (Reg.LEG_STAT l.val) Fld.LEG_STAT_CFG_REF 1

/-- The tick of the section is triggered by a carrier event (R12). -/
def carrierTick (tick : W) : Bool := decide (fget Fld.TICK_CFG_SRC tick ≠ 3)

/-- The rules of COT and COFF on a leg's registers (R104): RATIO 0, its times, and the leg neither the master of a
carrier-triggered tick nor the subject of alignment. -/
def SecState.vpOk (x : SecState) (l : Fin 4) : Bool :=
  let cfg := x.rd (Reg.CAR_CFG l.val)
  if carMode cfg < 2 then true
  else
    !fbit Fld.CAR_CFG_RATIO cfg && x.vpTimes l &&
      !(decide (x.master = l) && (carrierTick (x.rd Reg.TICK_CFG) || x.flag Reg.ALIGN_CFG Fld.ALIGN_CFG_EN))

/-- SYNC only with the master's MODE and PRESC, triangle or sawtooth (R99); the master ignores its own SYNC bit. -/
def SecState.syncOk (x : SecState) (l : Fin 4) : Bool :=
  let cfg := x.rd (Reg.CAR_CFG l.val)
  let m := x.rd (Reg.CAR_CFG x.master.val)
  !fbit Fld.CAR_CFG_SYNC cfg || decide (x.master = l) ||
    (decide (carMode cfg = carMode m) && decide (presc cfg = presc m) && decide (carMode cfg < 2))

/-- Every rule on the configuration and shadow registers of a leg. -/
def SecState.legCfgOk (x : SecState) (l : Fin 4) : Bool :=
  decide (fget Fld.CAR_CFG_RELOAD (x.rd (Reg.CAR_CFG l.val)) ≠ 3) && x.syncOk l && x.vpOk l

/-- A register of a leg replaced, unless a rule on what it sets refuses it: then it keeps its value and CFG_REF sets.
The rules of CAR_CFG are tested at a write of CAR_CFG; LEG_LIM, the period and CMPA0 set the times of R104; no rule
refuses a value of another shadow register. -/
def SecState.legCfgWrite (x : SecState) (l : Fin 4) (a : Nat) (m : W) : SecState :=
  let x1 := x.wr a m
  let e := a % 0x100
  let ok := if e = 0x00 then x1.legCfgOk l
    else if e = 0x04 ∨ e = 0x20 ∨ e = 0x24 then x1.vpTimes l else true
  if m ≠ x.rd a ∧ ok = false then x.legRef l else x1

/-- TRIP_SRC and TRIP_LEN take effect at once; an input whose source changes restarts inactive (R436). -/
def SecState.tripSrcWrite (x : SecState) (l : Fin 4) (m : W) : SecState :=
  let old := (x.rd (Reg.TRIP_SRC l.val)).toNat
  let same := (upTo 4).foldl (fun (b : BitVec 4) n =>
    if bitsN old (4 * n + 3) (4 * n) = bitsN m.toNat (4 * n + 3) (4 * n) then b ||| BitVec.ofNat 4 (2 ^ n) else b) 0
  let L := x.lg l
  (x.wr (Reg.TRIP_SRC l.val) m).setLeg l { L with trip := L.trip &&& same }

/-- A software write to the PWM block but its alignment registers. -/
def SecState.pwmWrite (x : SecState) (o : Nat) (r : RegRow) (isOpen : Bool) (v : W) : SecState :=
  let m := r.merge isOpen (x.rd o) v
  let l : Fin 4 := ⟨(o - 0x30100) / 0x100 % 4, by omega⟩
  let e := o % 0x100
  if o = Reg.PWM_COMMIT then x.pwmCommit v
  else if o < 0x30100 then x.wr o m
  else if e = 0x00 ∨ e = 0x04 then x.legCfgWrite l o m
  else if e = 0x0C then x.tripSrcWrite l m
  else if 0x20 ≤ e ∧ e < 0x4C then
    if fbit Fld.CAR_CFG_OWNER (x.cfgNow l) then x.legCfgWrite l o m
    else x.put (Reg.LEG_STAT l.val) Fld.LEG_STAT_OWNER_IGN 1
  else if e = 0xA0 then
    let x1 := if wbit v 0 then x.forceClr l else x
    if wbit v 1 then x1.force l 4 else x1
  else x.wr o m

/-- What LEG_CNT reads as: the counter at the section's last event. -/
def SecState.cntView (x : SecState) (l : Fin 4) : W :=
  if (x.lg l).run then
    let (c, up) := x.count l x.now
    natW ((if up then 0 else 0x10000) + c % 65536)
  else 0

/-! ### Alignment to network time (R113 to R116) -/

/-- The carrier period of a leg as configured, in PWM clocks (R97). -/
def SecState.periodClocks (x : SecState) (l : Fin 4) : Nat :=
  let cfg := x.cfgNow l
  let prd := if (x.lg l).run then x.prd l else max 16 ((x.rd (Reg.SH_PRD l.val)).toNat % 65536)
  (if carMode cfg = 0 then 2 else 1) * prd * presc cfg

/-- SPAN / M lies within 1 % of the master's carrier period (R113). -/
def Dev.gridOk (d : Dev) (s : Sec) : Bool :=
  let x := d.sc s
  let m := (x.rd Reg.ALIGN_M).toNat % 65536
  let a := (x.rd Reg.ALIGN_SPAN).toNat * (d.rd (Reg.PLL_FREQ (1 + s.val))).toNat
  let b := m * (x.periodClocks x.master * d.fld (Reg.PLL_DIV (1 + s.val)) Fld.PLL_DIV_OUT0 * 40 * 2 ^ 24)
  decide (m ≠ 0) && decide (carMode (x.cfgNow x.master) < 2) && decide ((max a b - min a b) * 100 ≤ b)

/-- How far ALIGN_T0 lies after the present network time, modulo 2^32 ns. -/
def Dev.alignAhead (d : Dev) (s : Sec) : Nat :=
  ((d.sc s).rd Reg.ALIGN_T0 - d.stamp).toNat

/-- A write of ALIGN_CFG (R113): EN = 1 is refused off the grid period, or with T0 out of range; else alignment starts
anew from ALIGN_T0. A write that breaks both rules is refused with CFG_REF alone (DESIGN CHOICE,
notes/assumptions/30.md). -/
def Dev.alignWrite (d : Dev) (s : Sec) (v : W) : Dev :=
  let x := d.sc s
  let m := v &&& 0xC0FF7FFF
  if !wbit v 31 then d.onSec s (·.wr Reg.ALIGN_CFG m)
  else if !d.gridOk s then d.secPut s Reg.ALIGN_STAT Fld.ALIGN_STAT_CFG_REF 1
  else if d.alignAhead s = 0 ∨ (x.rd Reg.ALIGN_SPAN).toNat < d.alignAhead s then
    d.secPut s Reg.ALIGN_STAT Fld.ALIGN_STAT_T0_REF 1
  else
    let A : AlignState :=
      { base := d.timeNs + d.alignAhead s, errs := [], begun := true, jump := x.align.jump && !x.align.t0New, t0New := false }
    d.onSec s (fun x =>
      (({ x with align := A } : SecState).wr Reg.ALIGN_CFG m).wr Reg.ALIGN_STAT (x.rd Reg.ALIGN_STAT &&& 0xC))

/-- A write of ALIGN_T0: with EN written again it ends a suspension by a jump (R116). -/
def SecState.alignT0Write (x : SecState) (v : W) : SecState :=
  { x.wr Reg.ALIGN_T0 v with align := { x.align with t0New := true } }

/-- An accepted offset jump at the alignment (R116): it counts from the first write of EN = 1, and an ALIGN_T0 written
before it no longer ends the suspension. -/
def SecState.alignJump (x : SecState) : SecState :=
  { x with align := { x.align with jump := x.align.begun, t0New := false } }

/-- ALIGN_STAT.SUSP (R116): JUMP until ALIGN_T0 and EN have been written again; the other causes while EN is 1
(notes/assumptions/31.md). -/
def Dev.alignSusp (d : Dev) (s : Sec) : Nat :=
  let x := d.sc s
  2 * b2n x.align.jump +
    if x.flag Reg.ALIGN_CFG Fld.ALIGN_CFG_EN then
      8 * b2n (fbit Fld.PLL_SS_EN (d.pll (1 + s.val)).ssOn) + 4 * b2n d.timeInv +
        b2n (!(decide (x.state = 3) || decide (x.state = 4) || decide (x.state = 7)))
    else 0

/-- A quotient rounded to nearest; at a tie the spec leaves open which neighbour. -/
def roundFree (n : Int) (k : Nat) (up : Bool) : Int :=
  let q := n / (k : Int)
  let r := n % (k : Int)
  if (k : Int) < 2 * r ∨ (2 * r = k ∧ up = true) then q + 1 else q

/-- A quotient of which the spec does not state the rounding: exact, or one of its neighbours. -/
def quotFree (n : Int) (k : Nat) (up : Bool) : Int :=
  if n % (k : Int) ≠ 0 ∧ up = true then n / (k : Int) + 1 else n / (k : Int)

/-- ALIGN_MEASURE (R114, R115): at a VALLEY of the master, the error to the nearest target, its rate over the last 256
valleys, LOCKED over the last 16, and with AUTO the phase steps against it. Before 256 periods are measured the rate is
the mean over those so far, 0 at the first valley (DESIGN CHOICE, notes/assumptions/30.md). -/
def Dev.alignMeasure (d : Dev) (s : Sec) : Dev :=
  let x := d.sc s
  let cfg := x.rd Reg.ALIGN_CFG
  let m := (x.rd Reg.ALIGN_M).toNat % 65536
  if !fbit Fld.ALIGN_CFG_EN cfg || decide (d.alignSusp s ≠ 0) || decide (m = 0) then d
  else
    let span : Int := (x.rd Reg.ALIGN_SPAN).toNat
    let stamp : Int := d.timeNs + clampI (-4) 4 (Config.freeDev d.freeCount)
    let u := stamp - x.align.base - wint (x.rd Reg.ALIGN_OFFSET)
    let n := if span = 0 then 0 else u * m / span
    let e0 := u - n * span / m
    let err := if 2 * e0 * m ≤ span then e0 else u - (n + 1) * span / m
    let errs := (err :: x.align.errs).take 257
    let tol : Int := fget Fld.ALIGN_CFG_TOL cfg
    let locked := decide (16 ≤ errs.length) && (errs.take 16).all (fun e => decide (-tol ≤ e) && decide (e ≤ tol))
    let k := errs.length - 1
    let rate := if k = 0 then 0 else quotFree ((err - errs.getLastD 0) * 1000) k (Config.freeBit d.freeCount)
    let d1 := (d.onSec s (fun x =>
      (((({ x with align := { x.align with errs := errs } } : SecState).wr Reg.ALIGN_ERR (intW err)).wr Reg.ALIGN_RATE
        (intW rate)).putB Reg.ALIGN_STAT Fld.ALIGN_STAT_LOCKED locked).put Reg.ALIGN_STAT Fld.ALIGN_STAT_MEAS 1)).tickFree
    let p := 1 + s.val
    if fbit Fld.ALIGN_CFG_AUTO cfg && decide (err < -tol ∨ tol < err) && !d.flag (Reg.PLL_STAT p) Fld.PLL_STAT_PH_BUSY then
      let mx : Int := fget Fld.ALIGN_CFG_MAXSTEP cfg
      let st := roundFree (err * (d.rd (Reg.PLL_FREQ p)).toNat) (2 ^ 24 * 5) (Config.freeBit d.freeCount)
      (d1.phaseSteps p (clampI (-mx) mx st)).tickFree
    else d1

/-! ### The commands -/

/-- A carrier event of leg l due at t: the samples before it, the event, and for a master's VALLEY the loads of its
followers and the alignment measurement. -/
def Dev.carrier (d : Dev) (l : Leg) (t : Nat) (peak : Bool) (smp : Samples) (old : BitVec 4) : Dev :=
  let s := l.sec
  let k := l.loc
  let L := (d.sc s).lg k
  if L.run && decide (L.next = some (t : Int)) && (L.nextPeak == peak) then
    let ts := d.closeStamp
    let inv := d.timeInv
    let free := Config.freeBit d.freeCount
    let d1 := ((d.onSec s (·.at t)).feed s smp).onSec s (·.legEventW k t peak (old.getLsbD k.val) false ts inv free)
    let d2 := d1.tickFree
    if !peak && decide ((d.sc s).master = k) then
      (d2.onSec s (fun x => ([0, 1, 2, 3] : List (Fin 4)).foldl (fun x j =>
        x.syncLoad j t (old.getLsbD j.val) ts inv free) x)).alignMeasure s
    else d2
  else d

/-- PEAK (R97). -/
def peakEvent (l : Leg) (t : Nat) (smp : Samples) (old : BitVec 4) (d : Dev) : Dev := d.carrier l t true smp old

/-- VALLEY (R97). -/
def valleyEvent (l : Leg) (t : Nat) (smp : Samples) (old : BitVec 4) (d : Dev) : Dev := d.carrier l t false smp old

/-- CARRIER_START (R117): every counter starts at 0 counting up; the shadow sets and the configuration become active,
and a VALLEY of every leg, which is no RELOAD, has its consequences. The accumulators that the plate arms arm at that
instant (R86). -/
def SecState.carrierStart (x : SecState) (t : Instant) (free : Bool) : SecState :=
  let x0 := (upTo 48).foldl (fun x k => if x.armed k then x.arm k t.ns else x) { x with now := 0 }
  let x1 := ([0, 1, 2, 3] : List (Fin 4)).foldl (fun x l =>
    let L := x.lg l
    let x1 := x.setLeg l { L with
      run := true, cfg := x.rd (Reg.CAR_CFG l.val), lim := x.rd (Reg.LEG_LIM l.val), map := x.rd (Reg.SW_MAP l.val)
      vps := x.rd (Reg.VP_SRC l.val), pend := none, imm := none, immWait := none }
    let w := x.shadow l
    let x2 := x1.setActive l w
    x2.setFlags l w (x2.prd l)) x0
  ([0, 1, 2, 3] : List (Fin 4)).foldl (fun x l => x.legEventW l 0 false false true t.ts t.inv free) x1

end Sys2Proof.Machine
end

