-- ==== Sys2Proof/Machine/AuxSupply.lean ====
section
/-! DEFINITION. The auxiliary supply controller (R371 to R380): phases, voltage loop, undershoot response, the states
with soft start and hiccup, protection and telemetry. -/

namespace Sys2Proof.Machine

/-- AUX_STAT.STATE. -/
def Dev.auxState (d : Dev) : Nat := d.fld Reg.AUX_STAT Fld.AUX_STAT_STATE

/-- The phases switch: SOFTSTART or RUN. -/
def Dev.auxOn (d : Dev) : Bool := decide (d.auxState = 1) || decide (d.auxState = 2)

/-- The used phases (R371). -/
def Dev.auxUsed (d : Dev) : List Nat := upTo (d.fld Reg.AUX_CFG Fld.AUX_CFG_PHASES + 1)

/-- The target VTGT at the scale of the ramp. -/
def Dev.auxGoal (d : Dev) : Nat :=
  d.fld Reg.AUX_VREG Fld.AUX_VREG_VTGT * (d.fld Reg.AUX_VREG Fld.AUX_VREG_TSS * 250000)

/-- VREF, the present target in AXFB codes (R374, R376); the rounding on the ramp is free. -/
def Dev.auxVref (d : Dev) : Int :=
  quotFree d.aux.ramp (d.fld Reg.AUX_VREG Fld.AUX_VREG_TSS * 250000) (Config.freeBit d.freeCount)

/-- ILIM at the scale of ICMD. -/
def Dev.auxIlim (d : Dev) : Int := (d.fld Reg.AUX_CUR Fld.AUX_CUR_ILIM : Int) * 65536

/-- Every phase low, with ICMD, xi and the ramp at 0, in a state entered. -/
def Dev.auxEnter (d : Dev) (st : Nat) : Dev :=
  { d.put Reg.AUX_STAT Fld.AUX_STAT_STATE st with
    aux := { d.aux with
      on := 0, fired := 0, icmd := 0, xi := 0, ramp := 0, limited := 0, per := false, lim := false, lows := 0, burst := false } }

/-- SOFTSTART with RETRY as given (R376). -/
def Dev.auxSoft (d : Dev) (retry : Nat) : Dev := (d.put Reg.AUX_STAT Fld.AUX_STAT_RETRY retry).auxEnter 1

/-- An entry to HICCUP: RETRY counts, and an entry that finds it at 8 enters LATCHED with AUX_SC (R376). -/
def Dev.auxToHiccup (d : Dev) : Dev :=
  let r := d.fld Reg.AUX_STAT Fld.AUX_STAT_RETRY
  if r = 8 then (d.auxEnter 4).hold 32 true
  else ((d.put Reg.AUX_STAT Fld.AUX_STAT_RETRY (r + 1)).bump Reg.AUX_EVCNT Fld.AUX_EVCNT_HICCUP).auxEnter 3

/-- The present period is limited and the 64th in a row (R376). -/
def Dev.auxExhausted (d : Dev) : Bool :=
  decide (64 ≤ d.aux.limited + b2n d.aux.lim)

/-- The overvoltage condition begins or ends (R378): at its beginning every phase turns off and the entry is counted. -/
def Dev.auxSetOv (d : Dev) (high : Bool) : Dev :=
  if high && !d.flag Reg.AUX_STAT Fld.AUX_STAT_OV then
    ({ d with aux := { d.aux with on := 0, off0 := d.aux.off0 ||| d.aux.on } }.put Reg.AUX_STAT Fld.AUX_STAT_OV 1).bump
      Reg.AUX_EVCNT Fld.AUX_EVCNT_OV
  else d.putB Reg.AUX_STAT Fld.AUX_STAT_OV high

/-- A non-negative quotient in a field of some width; the rounding is free, and so is what a value beyond the field
shows. -/
def auxFit (fc width n k : Nat) : Nat :=
  let q := (quotFree n k (Config.freeBit fc)).toNat
  if q < 2 ^ width then q else (Config.freeWord fc).toNat % 2 ^ width

/-- The telemetry of a switching period that has ended (R379): averages over the last 2^AVG periods, free until so many
have run, and the peaks since their last read. -/
def Dev.auxTelemetry (d : Dev) (cs : List (BitVec 12)) (temp : BitVec 16) : Dev :=
  let used := d.auxUsed
  let sum := (used.zip cs).foldl (fun n e => if d.aux.fired.getLsbD e.1 then n + e.2.toNat else n) 0
  let p : AuxPer := ⟨d.aux.code * (d.rd Reg.AUX_VSCALE).toNat, sum * (d.rd Reg.AUX_ISCALE).toNat, temp.toInt⟩
  let len := 2 ^ d.fld Reg.AUX_TCFG Fld.AUX_TCFG_AVG
  let hist := (p :: d.aux.hist).take len
  let fc := d.freeCount
  let full := decide (hist.length = len)
  let avg (i n k : Nat) : W := if full then natW (auxFit (fc + i) 32 n (k * len)) else Config.freeWord (fc + i)
  let tsum := hist.foldl (fun s (e : AuxPer) => s + e.t) (0 : Int)
  let d1 := (((d.wr Reg.AUX_VOUT (avg 0 (hist.foldl (fun s e => s + e.v) 0) 65536)).wr Reg.AUX_IOUT
    (avg 1 (hist.foldl (fun s e => s + e.i) 0) 65536)).wr Reg.AUX_POUT
    (avg 2 (hist.foldl (fun s e => s + e.v * e.i) 0) (2 ^ 32 * 1000))).put Reg.AUX_TEMP Fld.AUX_TEMP_TEMP
    (if full then uns 16 (quotFree tsum len (Config.freeBit (fc + 3))) else (Config.freeWord (fc + 3)).toNat)
  let v10 := auxFit (fc + 4) 16 p.v 655360
  let pw := auxFit (fc + 5) 16 (p.v * p.i) (2 ^ 32 * 1000000)
  let im := auxFit (fc + 6) 32 p.i 65536
  let nw (k : Nat) : Bool := d.aux.pkNew.getLsbD k
  let w0 := if nw 0 then v10 * 65536 + v10 else
    max v10 (d.fld Reg.AUX_PK0 Fld.AUX_PK0_VMAX) * 65536 + min v10 (d.fld Reg.AUX_PK0 Fld.AUX_PK0_VMIN)
  let w1 := if nw 1 then im else max im (d.rd Reg.AUX_PK1).toNat
  let tm := if nw 2 then temp.toInt else max temp.toInt (sgn 16 (d.fld Reg.AUX_PK2 Fld.AUX_PK2_TMAX))
  let pm := if nw 2 then pw else max pw (d.fld Reg.AUX_PK2 Fld.AUX_PK2_PMAX)
  let d2 := ((d1.wr Reg.AUX_PK0 (natW w0)).wr Reg.AUX_PK1 (natW w1)).wr Reg.AUX_PK2 (natW (uns 16 tm * 65536 + pm))
  let hot := decide (sgn 16 (d.fld Reg.AUX_TCFG Fld.AUX_TCFG_OT_TH) < temp.toInt)
  { (d2.putB Reg.AUX_STAT Fld.AUX_STAT_OT hot).hold 34 hot with
    aux := { d2.aux with hist := hist, pkNew := 0 }, freeCount := fc + 8 }

/-- The voltage loop at a start of phase 0 (R374), and the VREF ramp, which moves by VTGT/TSS per ms (R376, R377). The
period that begins is a limited one if its ICMD equals ILIM. -/
def Dev.auxLoop (d : Dev) : Dev :=
  let lim := d.auxIlim
  let e := d.auxVref - d.aux.code
  let xi := if d.aux.icmd < lim ∨ e < 0 then clampI 0 lim (d.aux.xi + d.fld Reg.AUX_LOOP Fld.AUX_LOOP_KI * e) else d.aux.xi
  let icmd := clampI 0 lim (d.fld Reg.AUX_LOOP Fld.AUX_LOOP_KP * 256 * e + xi)
  let by' := d.fld Reg.AUX_VREG Fld.AUX_VREG_VTGT * d.fld Reg.AUX_CFG Fld.AUX_CFG_PER
  let ramp := if d.aux.ramp ≤ d.auxGoal then min d.auxGoal (d.aux.ramp + by') else max d.auxGoal (d.aux.ramp - by')
  let n := if d.aux.lim then d.aux.limited + 1 else 0
  { d with
    aux := { d.aux with
      icmd := icmd, xi := min xi lim, ramp := ramp, fired := 0, burst := false, limited := n, per := true
      lim := decide (icmd = lim) }
    freeCount := d.freeCount + 1 }

/-- An AXFB code as a phase start finds it (R374, R375, R378): OV and UV follow it, and in RUN the samples that lie
UTH or more below VREF are counted. -/
def Dev.auxSample (d : Dev) (code : Nat) : Dev :=
  let uth := d.fld Reg.AUX_PROT Fld.AUX_PROT_UTH
  let lows := if d.auxState = 2 ∧ (code : Int) + uth ≤ d.auxVref then min 2 (d.aux.lows + 1) else 0
  let d0 := { d with aux := { d.aux with code := code, off1 := d.aux.off0, off0 := 0, lows := lows } }
  (d0.auxSetOv (decide (d.fld Reg.AUX_PROT Fld.AUX_PROT_OV_TH < code))).putB Reg.AUX_STAT Fld.AUX_STAT_UV
    (decide (code < d.fld Reg.AUX_UVCFG Fld.AUX_UVCFG_UV_TH))

/-- A phase turns on, unless it is on already or AXFB exceeds OV_TH (R372, R378). -/
def Dev.auxTurnOn (d : Dev) (i : Fin 4) : Dev :=
  if d.flag Reg.AUX_STAT Fld.AUX_STAT_OV then d
  else { d with aux := { d.aux with on := d.aux.on ||| BitVec.ofNat 4 (2 ^ i.val), fired := d.aux.fired ||| BitVec.ofNat 4 (2 ^ i.val) } }

/-- AUX_PHASE_START (R372, R374, R379): AXFB is converted and the phase turns on. A start of phase 0 ends a switching
period, of which `cs` and `temp` give the midpoint samples and the temperature, and runs the voltage loop for the next
one; the 64th limited period in a row ends in HICCUP instead (R376). The other phases start within a period. -/
def auxPhaseStart (i : Fin 4) (code : BitVec 12) (cs : List (BitVec 12)) (temp : BitVec 16) (d : Dev) : Dev :=
  if !d.auxOn || !d.auxUsed.contains i.val || !d.locked 0 then d
  else if i ≠ 0 then (if d.aux.per then (d.auxSample code.toNat).auxTurnOn i else d)
  else
    let d1 := d.auxSample code.toNat
    let d2 := if d1.aux.per then d1.auxTelemetry cs temp else d1
    if d2.auxExhausted then d2.auxToHiccup else d2.auxLoop.auxTurnOn 0

/-- A phase turns off. -/
def Dev.auxOff (d : Dev) (i : Fin 4) : Dev :=
  if d.aux.on.getLsbD i.val then
    { d with aux := { d.aux with on := d.aux.on &&& ~~~BitVec.ofNat 4 (2 ^ i.val), off0 := d.aux.off0 ||| BitVec.ofNat 4 (2 ^ i.val) } }
  else d

/-- AUX_CURRENT_TRIP (R373): the phase's latch is reset without a clock. -/
def auxCurrentTrip (i : Fin 4) (d : Dev) : Dev := d.auxOff i

/-- AUX_MAX_ON (R372): the phase has been on for DMAX. -/
def auxMaxOn (i : Fin 4) (d : Dev) : Dev := d.auxOff i

/-- AUX_UNDERSHOOT (R375): in RUN, after two samples UTH or more below VREF, once in a period, every used phase turns on
that has been off for 40 ns; of one that turned off since the last but one sample it is free whether it has. -/
def auxUndershoot (d : Dev) : Dev :=
  if d.auxState = 2 ∧ d.fld Reg.AUX_PROT Fld.AUX_PROT_UTH ≠ 0 ∧ 2 ≤ d.aux.lows ∧ !d.aux.burst ∧
      !d.flag Reg.AUX_STAT Fld.AUX_STAT_OV then
    let used := d.auxUsed.foldl (fun (m : BitVec 4) i =>
      let fresh := (d.aux.off0 ||| d.aux.off1).getLsbD i
      if fresh && Config.freeBit (d.freeCount + 1 + i) then m else m ||| BitVec.ofNat 4 (2 ^ i)) 0
    ({ d with
      aux := { d.aux with on := d.aux.on ||| used, fired := d.aux.fired ||| used, icmd := d.auxIlim, lim := true, burst := true }
      freeCount := d.freeCount + 5 } : Dev).bump Reg.AUX_EVCNT Fld.AUX_EVCNT_BURST
  else d

/-- AUX_HICCUP (R376): the 64th limited period in a row ends. -/
def auxHiccup (d : Dev) : Dev := if d.auxOn && d.auxExhausted then d.auxToHiccup else d

/-- AUX_SOFTSTART_END (R376): the ramp has reached VTGT; with AXFB at VTGT/4 or more RUN, otherwise HICCUP. -/
def auxSoftstartEnd (d : Dev) : Dev :=
  if d.auxState = 1 ∧ d.aux.ramp = d.auxGoal then
    if d.fld Reg.AUX_VREG Fld.AUX_VREG_VTGT ≤ 4 * d.aux.code then
      d.put Reg.AUX_STAT Fld.AUX_STAT_STATE 2
    else d.auxToHiccup
  else d

/-- AUX_HICCUP_END (R376): after 32 ms, SOFTSTART. -/
def auxHiccupEnd (d : Dev) : Dev :=
  if d.auxState = 3 then d.auxSoft (d.fld Reg.AUX_STAT Fld.AUX_STAT_RETRY) else d

/-- AUX_RETRY_RESET (R376): after 1 s in RUN. -/
def auxRetryReset (d : Dev) : Dev := if d.auxState = 2 then d.put Reg.AUX_STAT Fld.AUX_STAT_RETRY 0 else d

/-- A write of AUX_CTRL (R376, R380): RUN set in OFF starts the converter, except in REJECTED; RUN cleared takes it to
OFF from any state, with RETRY 0 and AUX_SC idle. -/
def Dev.auxCtrl (d : Dev) (v : W) : Dev :=
  let d1 := d.put Reg.AUX_CTRL Fld.AUX_CTRL_RUN (b2n (wbit v 0))
  if wbit v 0 then
    if d.auxState = 0 ∧ d.devState ≠ 2 then d1.auxSoft 0 else d1
  else ((d1.put Reg.AUX_STAT Fld.AUX_STAT_RETRY 0).auxEnter 0).hold 32 false

/-- A write of AUX_CMD (R376): CLR leaves LATCHED. -/
def Dev.auxCmd (d : Dev) (v : W) : Dev :=
  if !keyIs v 0x3CA5 then d.badKey
  else if wbit v 0 ∧ d.auxState = 4 then
    let d1 := d.hold 32 false
    if d.flag Reg.AUX_CTRL Fld.AUX_CTRL_RUN then d1.auxSoft 0 else (d1.put Reg.AUX_STAT Fld.AUX_STAT_RETRY 0).auxEnter 0
  else d

/-- AUX_OVERVOLTAGE (R378). -/
def auxOvervoltage (high : Bool) (d : Dev) : Dev := d.auxSetOv high

/-- AUX_UV_TIMEOUT (R378): in RUN, with AXFB below UV_TH, AUX_UV is raised and counted. -/
def auxUvTimeout (d : Dev) : Dev :=
  if d.auxState = 2 ∧ d.flag Reg.AUX_STAT Fld.AUX_STAT_UV then
    (d.bump Reg.AUX_EVCNT Fld.AUX_EVCNT_UV).pulse 33
  else d

/-- The values that AUX_CFG and AUX_VREG may take: PER 250 to 2,500, TSS 1 to 64. -/
def auxValueOk (a : Nat) (w : W) : Bool :=
  if a = Reg.AUX_CFG then decide (250 ≤ fget Fld.AUX_CFG_PER w) && decide (fget Fld.AUX_CFG_PER w ≤ 2500)
  else if a = Reg.AUX_VREG then decide (1 ≤ fget Fld.AUX_VREG_TSS w) && decide (fget Fld.AUX_VREG_TSS w ≤ 64)
  else true

/-- A write into the auxiliary supply block (R377): PER, PHASES, BLANK and TSS change only in OFF, and only to values in
their ranges; another write of them is refused with CFG_REF. -/
def Dev.auxWrite (d : Dev) (a : Nat) (r : RegRow) (isOpen : Bool) (v : W) : Dev :=
  if a = Reg.AUX_CTRL then d.auxCtrl v
  else if a = Reg.AUX_CMD then d.auxCmd v
  else
    let old := d.rd a
    let w := r.merge isOpen old v
    let changes := if a = Reg.AUX_CFG then decide (w ≠ old)
      else if a = Reg.AUX_VREG then decide (fget Fld.AUX_VREG_TSS w ≠ fget Fld.AUX_VREG_TSS old) else false
    if (changes && decide (d.auxState ≠ 0)) || !auxValueOk a w then d.put Reg.AUX_STAT Fld.AUX_STAT_CFG_REF 1
    else d.wr a w

/-- A read of a peak register restarts it from the next period (R379). -/
def Dev.auxPkRead (d : Dev) (k : Nat) : Dev := { d with aux := { d.aux with pkNew := d.aux.pkNew ||| BitVec.ofNat 3 (2 ^ k) } }

end Sys2Proof.Machine
end

