-- ==== Sys2Proof/Machine/Crc.lean ====
section
/-! DEFINITION. The checks of frames and images: CRC-16/CCITT (R309), the CRC-8 of SMBus (R323), the CRC-32 of Ethernet and of the stored records,
and the Internet checksum of UDP (R302). -/

namespace Sys2Proof.Machine

/-- One bit of CRC-16/CCITT: polynomial 0x1021, most significant bit first. -/
def crc16Bit (c : Nat) : Nat := if 0x8000 ≤ c then (c * 2 % 0x10000).xor 0x1021 else c * 2

/-- One byte of CRC-16/CCITT. -/
def crc16Byte (c : Nat) (b : Byte) : Nat :=
  let x := c.xor (b.toNat * 256)
  crc16Bit (crc16Bit (crc16Bit (crc16Bit (crc16Bit (crc16Bit (crc16Bit (crc16Bit x)))))))

/-- CRC-16/CCITT: initial value 0xFFFF, no reflection, no final XOR (R309). -/
def crc16 (bs : List Byte) : Nat := bs.foldl crc16Byte 0xFFFF

/-- One bit of the CRC-8 of the SMBus packet error code: polynomial 0x07, most significant bit first. -/
def crc8Bit (c : Nat) : Nat := if 0x80 ≤ c then (c * 2 % 0x100).xor 0x07 else c * 2

/-- One byte of that CRC-8. -/
def crc8Byte (c : Nat) (b : Byte) : Nat :=
  crc8Bit (crc8Bit (crc8Bit (crc8Bit (crc8Bit (crc8Bit (crc8Bit (crc8Bit (c.xor b.toNat))))))))

/-- The SMBus packet error code of a byte list: initial value 0 (R323; notes/assumptions/72.md). -/
def crc8 (bs : List Byte) : Byte := BitVec.ofNat 8 (bs.foldl crc8Byte 0)

/-- One bit of CRC-32, reflected. -/
def crc32Bit (c : Nat) : Nat := if c % 2 = 1 then (c / 2).xor 0xEDB88320 else c / 2

/-- One byte of CRC-32. -/
def crc32Byte (c : Nat) (b : Byte) : Nat :=
  let x := c.xor b.toNat
  crc32Bit (crc32Bit (crc32Bit (crc32Bit (crc32Bit (crc32Bit (crc32Bit (crc32Bit x)))))))

/-- The CRC-32 of IEEE 802.3. -/
def crc32 (bs : List Byte) : Nat := (bs.foldl crc32Byte 0xFFFFFFFF).xor 0xFFFFFFFF

/-- The sum of the 16-bit words of a byte list, most significant byte first; a last odd byte counts as its high half. -/
def sum16 : List Byte → Nat
  | a :: b :: t => a.toNat * 256 + b.toNat + sum16 t
  | [a] => a.toNat * 256
  | [] => 0

/-- The Internet checksum of a byte list; 0 is sent as 0xFFFF, as UDP has it. -/
def inetSum (bs : List Byte) : Nat :=
  let s := sum16 bs
  let f1 := s % 0x10000 + s / 0x10000
  let f2 := f1 % 0x10000 + f1 / 0x10000
  let c := 0xFFFF - f2
  if c = 0 then 0xFFFF else c

/-- A number of n bytes, most significant first. -/
def beBytes (n v : Nat) : List Byte := (natBytes n v).reverse

/-- The number a byte list stands for, most significant byte first. -/
def beNat (bs : List Byte) : Nat := bytesNat bs.reverse

/-- The number in n bytes of a list from an offset, most significant byte first. -/
def beAt (bs : List Byte) (o n : Nat) : Nat := beNat ((bs.drop o).take n)

/-- Bytes of a list replaced from an offset. -/
def putAt (bs : List Byte) (o : Nat) (v : List Byte) : List Byte := bs.take o ++ v ++ bs.drop (o + v.length)

end Sys2Proof.Machine
end

