-- ==== Sys2Proof/Machine/Numeric.lean ====
section
/-! DEFINITION. The exact arithmetic of the Ghefin engine (R158 to R160, R165, R166, R188): rounding once, half to even,
saturation, the fixed sine table, roots and profile steps. Words are signed integers with 27 fraction bits. -/

namespace Sys2Proof.Machine

/-- A quotient by a positive divisor rounded to nearest, ties to even. -/
def divEven (n : Int) (d : Nat) : Int :=
  let q := n / (d : Int)
  let r := n % (d : Int)
  if (d : Int) < 2 * r ∨ (2 * r = d ∧ q % 2 = 1) then q + 1 else q

/-- A value saturated to an engine word (R158), and whether it was. -/
def wsat (v : Int) : Int × Bool := (clampI (-2147483648) 2147483647 v, decide (v < -2147483648 ∨ 2147483647 < v))

/-- The 72-bit accumulator (R158). -/
def accSat (a : Int) : Int := clampI (-(2 ^ 71)) (2 ^ 71 - 1) a

/-- The accumulator's writeback: limited, shifted right by 27 with round-half-even, saturated (R158). -/
def accOut (a : Int) : Int × Bool :=
  let (w, s) := wsat (divEven (accSat a) (2 ^ 27))
  (w, s || decide (accSat a ≠ a))

/-- A value held in 64 bits, and whether it saturated. -/
def sat64 (v : Int) : Int × Bool := (clampI (-(2 ^ 63)) (2 ^ 63 - 1) v, decide (v < -(2 ^ 63) ∨ 2 ^ 63 ≤ v))

/-- The sign of an integer. -/
def sign3 (v : Int) : Int := if v < 0 then -1 else if v = 0 then 0 else 1

/-- The square root of a natural number below 2^(2k), rounded to the nearest integer. -/
def rootNear (k n : Nat) : Nat :=
  let r := isqrt k n
  if r < n - r * r then r + 1 else r

/-! ### Sine and cosine (R188) -/

/-- 2 pi with 80 fraction bits. -/
def twoPi80 : Int := 7595904947272677161575987

/-- The Taylor terms of the sine from the term t of order n on, with 80 fraction bits. -/
def sinTail (x2 : Int) : Nat → Nat → Int → Int
  | 0, _, _ => 0
  | f + 1, n, t => t + sinTail x2 f (n + 2) (-(t * x2 / 2 ^ 80) / ((n + 1) * (n + 2) : Nat))

/-- The sine of an angle with 80 fraction bits, of at most a quarter turn in magnitude. -/
def sin80 (x : Int) : Int := sinTail (x * x / 2 ^ 80) 16 1 x

/-- S[k], the quarter-wave table: round_half_even(sin(2 pi k / 16,384) × 2^30) (R188). -/
def sineS (k : Nat) : Int := divEven (sin80 (twoPi80 * k / 16384)) (2 ^ 50)

/-- sin θ × 2^30 of the raw angle (R188). -/
def sinRaw (th : Nat) : Int :=
  let q := th / 2 ^ 30 % 4
  let u := th % 2 ^ 30
  let r := if q % 2 = 0 then u else 2 ^ 30 - u
  let i := r / 2 ^ 18
  let s := if i = 4096 then sineS 4096
    else sineS i + divEven ((sineS (i + 1) - sineS i) * ((r % 2 ^ 18 : Nat) : Int)) (2 ^ 18)
  if 2 ≤ q then -s else s

/-- cos θ × 2^30 (R188). -/
def cosRaw (th : Nat) : Int := sinRaw ((th + 0x40000000) % 2 ^ 32)

/-- ROT (R188): each result formed exactly and rounded once. -/
def rotate (a b : Int) (th : Nat) (inv : Bool) : (Int × Bool) × (Int × Bool) :=
  let s := sinRaw th
  let c := cosRaw th
  if inv then (wsat (divEven (a * c - b * s) (2 ^ 30)), wsat (divEven (a * s + b * c) (2 ^ 30)))
  else (wsat (divEven (a * c + b * s) (2 ^ 30)), wsat (divEven (-(a * s) + b * c) (2 ^ 30)))

/-- x · b / sqrt(m) rounded to nearest, ties to even, for a positive m. -/
def scaleRoot (x : Int) (b m : Nat) : Int :=
  let n := x.natAbs * b
  let q := isqrt 64 (n * n / m)
  let up := decide ((2 * q + 1) * (2 * q + 1) * m < 4 * (n * n)) ||
    (decide ((2 * q + 1) * (2 * q + 1) * m = 4 * (n * n)) && decide (q % 2 = 1))
  let r : Nat := if up then q + 1 else q
  if x < 0 then -(r : Int) else r

/-- VLIM2 (R188): the two results, and whether the magnitude was limited. -/
def vlimit2 (a b lim : Int) : (Int × Bool) × (Int × Bool) × Bool :=
  let bd := (max lim 0).toNat
  let m := (a * a + b * b).toNat
  if bd * bd < m then (wsat (scaleRoot a bd m), wsat (scaleRoot b bd m), true)
  else ((a, false), (b, false), false)

/-! ### Look-up (R165) -/

/-- A look-up of u in a table: the value, whether the input was clamped, whether the result saturated. -/
def lookup (u u0 : Int) (scale : Nat) (t : Nat → Int) : Int × Bool × Bool :=
  let p0 := (u - u0) * scale
  let top : Int := 256 * 2 ^ 43
  let p : Nat := (clampI 0 top p0).toNat
  let i : Nat := p / 2 ^ 43
  let f : Nat := p % 2 ^ 43 / 2 ^ 27
  let y := if i = 256 then t 256 else t i + divEven ((t (i + 1) - t i) * (f : Int)) 65536
  let (v, s) := wsat y
  (v, decide (p0 < 0 ∨ top < p0), s)

/-! ### Profile generators (R166) -/

/-- X rounded half-even to Q5.27. -/
def Prof.y (p : Prof) : Int := (wsat (divEven p.x (2 ^ 32))).1

/-- One step of a profile channel with n periods and its limit block (R166): the channel, whether a limit was reached,
whether an assignment saturated. V, A, their references and the limits are taken with 48 fraction bits, X and the error
with 59; the references have no limit of their own (DESIGN CHOICE, notes/assumptions/20.md). -/
def profStep (p : Prof) (n vmax amax jmax hh : Nat) : Prof × Bool × Bool :=
  let h := n * hh
  let tgt := p.tgt * 2 ^ 32
  let e := tgt - p.x
  let V : Nat := vmax * 2 ^ 32
  let A : Nat := amax * 2 ^ 32
  let step : Prof × Bool × Bool :=
    if h = 0 then (p, false, false)
    else
      let sq := 2 * amax * e.natAbs * 2 ^ 21
      let vlim := decide (V * V < sq)
      let vref := sign3 e * ((if vlim then V else rootNear 80 sq : Nat) : Int)
      let dv := (vref - p.v) * 2 ^ 32
      let alim := decide (A * h < dv.natAbs)
      let aref := if alim then sign3 dv * A else divEven dv h
      let dj := (aref - p.a) * 2 ^ 32
      let jlim := decide (jmax * 2 ^ 32 * h < dj.natAbs)
      let (a1, s1) := sat64 (if jlim then p.a + sign3 dj * ((jmax * h : Nat) : Int) else aref)
      let vn := p.v * 2 ^ 32 + a1 * h
      let vl := decide (V * 2 ^ 32 < vn.natAbs)
      let (v1, s2) := sat64 (if vl then sign3 vn * V else divEven vn (2 ^ 32))
      let (x1, s3) := sat64 (divEven (p.x * 2 ^ 21 + v1 * h) (2 ^ 21))
      ({ p with x := x1, v := v1, a := a1 }, vlim || alim || jlim || vl, s1 || s2 || s3)
  let q := step.1
  let d := tgt - q.x
  let q1 := if sign3 d ≠ sign3 e ∨ d.natAbs < 2 ^ 32 then { q with x := tgt, v := 0, a := 0 } else q
  (q1, step.2.1, step.2.2)

/-! ### Duty conversion (R160) -/

/-- A word converted to a compare value: the register word, and whether the rounded value was outside the range; a d
that rounds into the range is inside it (DESIGN CHOICE, notes/assumptions/20.md). -/
def dutyWord (d : Int) (ratio : Bool) (p prd0 : Nat) : W × Bool :=
  let prd := max 16 prd0
  if ratio then
    let r := divEven d (2 ^ 11)
    (intW (clampI 0 65535 r), decide (r < 0 ∨ 65535 < r))
  else
    let top := 16 * p * prd
    let x := divEven (d * top) (2 ^ 27)
    let c : Nat := (clampI 0 top x).toNat
    (natW (c / (16 * p) * 128 + c % (16 * p)), decide (x < 0 ∨ (top : Int) < x))

end Sys2Proof.Machine
end

