-- ==== Sys2Proof/Machine/Engine.lean ====
section
/-! DEFINITION. The Ghefin engine's instructions (R176 to R192): how one is issued and checked, and what each does to
the pending state of its run. What ends a run, and the tick around it, is in Machine/Tick.lean. -/

namespace Sys2Proof.Machine

/-- What an instruction reads beside its run: the engine's memories, the tick's inputs, the legs' CAR_CFG in its duty
buffer, the input items from 0x40 on, and the window result its slot gives. -/
structure EngEnv where
  img : EngImg
  tin : TickIn
  first : Bool
  cfg : Quad W
  item : Nat → W
  res : Option AccRes
  field : Nat

/-- An engine word of a register, signed. -/
def EngRun.reg (r : EngRun) (c i : Nat) : Int := (Tbl.get (fun _ => (0 : W)) r.st.wreg (64 * c + i)).toInt

/-- Coefficient word k, signed; beyond 4,095 it is cause 0x7 (R178). -/
def EngEnv.coef (v : EngEnv) (k : Nat) : Except Nat Int :=
  if 4095 < k then .error 7 else .ok (Tbl.get (fun _ => (0 : W)) v.img.coef k).toInt

/-- Coefficient word k, unsigned. -/
def EngEnv.coefU (v : EngEnv) (k : Nat) : Except Nat Nat :=
  if 4095 < k then .error 7 else .ok (Tbl.get (fun _ => (0 : W)) v.img.coef k).toNat

/-- Execution clocks are counted against WORST_CLK (R152 cause 0x8). -/
def EngRun.charge (v : EngEnv) (r : EngRun) (n : Nat) : Except Nat EngRun :=
  if v.img.worst < r.exe + n then .error 8 else .ok { r with exe := r.exe + n, clk := r.clk + n }

/-- A vector source of n registers: bits [5:0] the register, [6] context 0 (R178). -/
def EngRun.src (r : EngRun) (f n : Nat) : Except Nat (List Int) :=
  let i := f % 64
  if 64 < i + n then .error 7
  else .ok ((upTo n).map (fun j => r.reg (if f / 64 % 2 = 1 then 0 else r.ctx) (i + j)))

/-- One source register. -/
def EngRun.src1 (r : EngRun) (f : Nat) : Int := r.reg (if f / 64 % 2 = 1 then 0 else r.ctx) (f % 64)

/-- A group that saturated is marked, with SATF (R159). -/
def EngRun.mark (r : EngRun) (g : Nat) (sat : Bool := true) : EngRun :=
  { r with marks := r.marks ||| BitVec.ofNat 9 (2 ^ g), satf := r.satf || sat }

/-- One register of the running context written; a saturated value marks its group (R179). -/
def EngRun.wr1 (r : EngRun) (d : Nat) (v : Int × Bool) : EngRun :=
  let r1 := { r with st := { r.st with wreg := Tbl.set (fun _ => (0 : W)) r.st.wreg (64 * r.ctx + d) (intW v.1) } }
  if v.2 then r1.mark r.ctx else r1

/-- A vector destination written from register d on. -/
def EngRun.wrAll (r : EngRun) (d : Nat) : List (Int × Bool) → EngRun
  | [] => r
  | v :: vs => (r.wr1 d v).wrAll (d + 1) vs

/-- A vector destination within the register file (R178). -/
def EngRun.put (r : EngRun) (d : Nat) (vs : List (Int × Bool)) : Except Nat EngRun :=
  if 64 < d + vs.length then .error 7 else .ok (r.wrAll d vs)

/-- The clocks of a vector instruction: 1 + ceil(n/8) (R181). -/
def vecClk (n : Nat) : Nat := 1 + (n + 7) / 8

/-! ### Fields -/

/-- Field D. -/
def fD (a : Nat) : Nat := bitsN a 25 20
/-- Field A. -/
def fA (a : Nat) : Nat := bitsN a 19 13
/-- Field B. -/
def fB (a : Nat) : Nat := bitsN a 12 6
/-- Field K. -/
def fK (a : Nat) : Nat := bitsN a 11 0
/-- The vector length n = N1 + 1. -/
def fN (a : Nat) : Nat := bitsN a 4 0 + 1

/-- The bits of [25:0] that an opcode uses (R176, R181); none for an opcode that the table does not list. -/
def opMask (op : Nat) : Option Nat :=
  match op with
  | 0x01 => some 0 | 0x02 => some 0x03C007FF | 0x03 => some 0x7FF | 0x04 => some 0 | 0x05 => some 0xFFFFF
  | 0x06 => some 0 | 0x07 => some 0xFF | 0x08 => some 0x03FFE01F | 0x09 => some 0x03F00FFF | 0x0A => some 0x03FFFFFF
  | 0x0B => some 0x03FFE001 | 0x10 => some 0x03FFFFFF | 0x11 => some 0x03FFFFFF | 0x12 => some 0x03FFFFFF
  | 0x13 => some 0x03FFFFFF | 0x14 => some 0x03FFE01F | 0x15 => some 0x03FFE01F | 0x16 => some 0x03FFEFFF
  | 0x17 => some 0x03FFEFFF | 0x18 => some 0x000FFFC0 | 0x19 => some 0x03FFEFFF | 0x1A => some 0x03FFFFDF
  | 0x1B => some 0x03FFFFC0 | 0x1C => some 0x03FFFFC1 | 0x20 => some 0x03F00FFF | 0x21 => some 0x03FFFFFF
  | 0x22 => some 0x03F00000 | 0x24 => some 0x038FCFFF | 0x25 => some 0x030FE000 | 0x26 => some 0x030FE000
  | 0x27 => some 0x03FC0000 | 0x28 => some 0x03F0001F | 0x29 => some 0x03F1FFFF | 0x2A => some 0x03F800FF
  | 0x2C => some 0x03FFE000 | 0x2D => some 0x03FFE000 | 0x2E => some 0x03EFEFFF | 0x2F => some 0xF
  | 0x30 => some 0x020FE00F | _ => none

/-- The RDI selectors that are defined (R186, R196, R230, R326). -/
def rdiOk (s : Nat) : Bool :=
  decide (s ≤ 5) || (decide (0x20 ≤ s) && decide (s ≤ 0x4A)) || (decide (0x50 ≤ s) && decide (s ≤ 0x5B)) ||
    (decide (0x60 ≤ s) && decide (s ≤ 0x65)) || (decide (0x80 ≤ s) && decide (s ≤ 0x88)) ||
    (decide (0xA0 ≤ s) && decide (s ≤ 0xA8))

/-- The buffer words a CSEL names (R187): one compare, or both of a unit. -/
def cselWords (c : Nat) : List Nat :=
  if c < 6 then [1 + c] else if 8 ≤ c ∧ c ≤ 10 then [1 + 2 * (c - 8), 2 + 2 * (c - 8)] else []

/-- The buffer word an FLD names, and the bits it keeps (R187). -/
def dsetWord (f : Nat) : Option (Nat × W) :=
  match f with
  | 0 => some (0, 0xFFFF) | 1 => some (8, 0xFFFFFFFF) | 2 => some (9, 0xFFFFFFFF) | 3 => some (10, 0xFFFFFFFF)
  | 4 => some (7, 0x3F013F) | _ => none

/-- No field of an instruction is undefined (R176, R182, R186, R187, R190). -/
def fieldsOk (op args : Nat) : Bool :=
  match opMask op with
  | none => false
  | some m =>
    decide (args &&& m = args) &&
      (match op with
       | 0x02 => decide (bitsN args 25 22 ≠ 15)
       | 0x24 => Nat.testBit args 23 || decide (bitsN args 19 14 = 0)
       | 0x2A => rdiOk (args % 256)
       | 0x2C => !(cselWords (bitsN args 23 20)).isEmpty
       | 0x2D => (dsetWord (bitsN args 23 20)).isSome
       | _ => true)

/-! ### The instructions -/

/-- MOV. -/
def opMov (v : EngEnv) (r : EngRun) (a : Nat) : Except Nat EngRun := do
  let r1 ← r.charge v (vecClk (fN a))
  let xs ← r1.src (fA a) (fN a)
  r1.put (fD a) (xs.map (·, false))

/-- LDK. -/
def opLdk (v : EngEnv) (r : EngRun) (a : Nat) : Except Nat EngRun := do
  let r1 ← r.charge v 1
  let k ← v.coef (fK a)
  r1.put (fD a) [(k, false)]

/-- LDI. -/
def opLdi (v : EngEnv) (r : EngRun) (a : Nat) : Except Nat EngRun := do
  let r1 ← r.charge v 1
  r1.put (fD a) [(sgn 20 (bitsN a 19 0), false)]

/-- CVT. -/
def opCvt (v : EngEnv) (r : EngRun) (a : Nat) : Except Nat EngRun := do
  let r1 ← r.charge v 1
  let x := r1.src1 (fA a)
  r1.put (fD a) [if Nat.testBit a 0 then (divEven x (2 ^ 27), false) else wsat (x * 2 ^ 27)]

/-- The second vector source: one register for every element with BC. -/
def EngRun.srcB (r : EngRun) (a n : Nat) : Except Nat (List Int) :=
  if Nat.testBit a 5 then .ok (List.replicate n (r.src1 (fB a))) else r.src (fB a) n

/-- An element by element instruction on two sources. -/
def opVec2 (f : Int → Int → Int × Bool) (v : EngEnv) (r : EngRun) (a : Nat) : Except Nat EngRun := do
  let r1 ← r.charge v (vecClk (fN a))
  let xs ← r1.src (fA a) (fN a)
  let ys ← r1.srcB a (fN a)
  r1.put (fD a) (xs.zipWith f ys)

/-- An element by element instruction on one source. -/
def opVec1 (f : Int → Int × Bool) (v : EngEnv) (r : EngRun) (a : Nat) : Except Nat EngRun := do
  let r1 ← r.charge v (vecClk (fN a))
  let xs ← r1.src (fA a) (fN a)
  r1.put (fD a) (xs.map f)

/-- VADD. -/
def opVadd : EngEnv → EngRun → Nat → Except Nat EngRun := opVec2 (fun x y => wsat (x + y))
/-- VSUB. -/
def opVsub : EngEnv → EngRun → Nat → Except Nat EngRun := opVec2 (fun x y => wsat (x - y))
/-- VMUL. -/
def opVmul : EngEnv → EngRun → Nat → Except Nat EngRun := opVec2 (fun x y => accOut (x * y))
/-- VNEG. -/
def opVneg : EngEnv → EngRun → Nat → Except Nat EngRun := opVec1 (fun x => wsat (-x))
/-- VABS. -/
def opVabs : EngEnv → EngRun → Nat → Except Nat EngRun := opVec1 (fun x => wsat x.natAbs)

/-- VMAC. -/
def opVmac (v : EngEnv) (r : EngRun) (a : Nat) : Except Nat EngRun := do
  let r1 ← r.charge v (vecClk (fN a))
  let xs ← r1.src (fA a) (fN a)
  let ys ← r1.srcB a (fN a)
  let ds ← r1.src (fD a) (fN a)
  r1.put (fD a) (ds.zipWith (fun d p => accOut (d * 2 ^ 27 + p)) (xs.zipWith (· * ·) ys))

/-- KMUL. -/
def opKmul (v : EngEnv) (r : EngRun) (a : Nat) : Except Nat EngRun := do
  let r1 ← r.charge v 1
  let k ← v.coef (fK a)
  r1.put (fD a) [accOut (r1.src1 (fA a) * k)]

/-- KADD. -/
def opKadd (v : EngEnv) (r : EngRun) (a : Nat) : Except Nat EngRun := do
  let r1 ← r.charge v 1
  let k ← v.coef (fK a)
  r1.put (fD a) [wsat (r1.src1 (fA a) + k)]

/-- CMP (R180). -/
def opCmp (v : EngEnv) (r : EngRun) (a : Nat) : Except Nat EngRun := do
  let r1 ← r.charge v 1
  let x := r1.src1 (fA a)
  let y := r1.src1 (fB a)
  .ok { r1 with z := decide (x = y), n := decide (x < y) }

/-- LIM: min(max(A, C[K]), C[K+1]). -/
def opLim (v : EngEnv) (r : EngRun) (a : Nat) : Except Nat EngRun := do
  let r1 ← r.charge v 1
  let lo ← v.coef (fK a)
  let hi ← v.coef (fK a + 1)
  let x := r1.src1 (fA a)
  let y := min (max x lo) hi
  EngRun.put { r1 with l := decide (y ≠ x) } (fD a) [(y, false)]

/-- VLIM: min(max(A[i], B), B+1). -/
def opVlim (v : EngEnv) (r : EngRun) (a : Nat) : Except Nat EngRun := do
  let r1 ← r.charge v (vecClk (fN a))
  let xs ← r1.src (fA a) (fN a)
  let b ← r1.src (fB a) 2
  let ys := xs.map (fun x => min (max x (b.getD 0 0)) (b.getD 1 0))
  EngRun.put { r1 with l := decide (ys ≠ xs) } (fD a) (ys.map (·, false))

/-- VLIM2 (R188). -/
def opVlim2 (v : EngEnv) (r : EngRun) (a : Nat) : Except Nat EngRun := do
  let r1 ← r.charge v 6
  let xs ← r1.src (fA a) 2
  let (p, q, lim) := vlimit2 (xs.getD 0 0) (xs.getD 1 0) (r1.src1 (fB a))
  EngRun.put { r1 with l := lim } (fD a) [p, q]

/-- ROT (R188). -/
def opRot (v : EngEnv) (r : EngRun) (a : Nat) : Except Nat EngRun := do
  let r1 ← r.charge v 4
  let xs ← r1.src (fA a) 2
  let (p, q) := rotate (xs.getD 0 0) (xs.getD 1 0) (uns 32 (r1.src1 (fB a))) (Nat.testBit a 0)
  r1.put (fD a) [p, q]

/-- The gather bytes of an MVM descriptor are defined (R183). -/
def gatherOk (gs : List Nat) (cols : Nat) : Bool :=
  gs.all (fun g => decide (g < 128)) && (gs.drop cols).all (fun g => decide (g = 0))

/-- A sum of products. -/
def dot : List Int → List Int → Int
  | x :: xs, y :: ys => x * y + dot xs ys
  | _, _ => 0

/-- MVM (R183). -/
def opMvm (v : EngEnv) (r : EngRun) (a : Nat) : Except Nat EngRun := do
  let kd := fK a
  let w0 ← v.coefU kd
  let w1 ← v.coefU (kd + 1)
  let rows := bitsN w0 31 28 + 1
  let cols := bitsN w0 25 20 + 1
  if 36 < cols then .error 7
  else if w0 &&& 0x0C0EF000 ≠ 0 ∨ w1 &&& 0xFFFFF000 ≠ 0 then .error 3
  else
    let gw ← (upTo ((cols + 3) / 4)).mapM (fun i => v.coefU (kd + 2 + i))
    let gs := gw.flatMap (fun w => [bitsN w 7 0, bitsN w 15 8, bitsN w 23 16, bitsN w 31 24])
    let mb := w0 % 4096
    let bb := w1 % 4096
    let bias := Nat.testBit w0 16
    if !gatherOk gs cols then .error 3
    else if 4096 < mb + rows * cols ∨ (bias = true ∧ 4096 < bb + rows) ∨ 64 < fD a + rows then .error 7
    else
      let r1 ← r.charge v (4 + (rows * cols + 7) / 8)
      let xs := (gs.take cols).map (fun g => r1.src1 g)
      let cw (k : Nat) : Int := (Tbl.get (fun _ => (0 : W)) v.img.coef k).toInt
      r1.put (fD a) ((upTo rows).map (fun i =>
        accOut ((if bias then cw (bb + i) * 2 ^ 27 else 0) + dot ((upTo cols).map (fun j => cw (mb + i * cols + j))) xs)))

/-- The physical table that a selector names. -/
def selOf (w : W) (t : Nat) : Nat := bitsN w.toNat (3 * t + 2) (3 * t)

/-- LUT (R165, R181). -/
def opLut (v : EngEnv) (r : EngRun) (a : Nat) : Except Nat EngRun := do
  let kh := bitsN a 10 0
  let u0 ← v.coef (2 * kh)
  let sc ← v.coefU (2 * kh + 1)
  let r1 ← r.charge v 3
  let t := selOf (r1.st.sel.get ⟨r1.ctx % 4, by omega⟩) (bitsN a 13 11)
  let (y, cl, s) := lookup (r1.src1 (bitsN a 19 14)) u0 sc
    (fun i => (Tbl.get (fun _ => (0 : W)) v.img.lut (512 * t + i)).toInt)
  (if cl then r1.mark 8 false else r1).put (fD a) [(y, s)]

/-- LSEL. -/
def opLsel (v : EngEnv) (r : EngRun) (a : Nat) : Except Nat EngRun := do
  let r1 ← r.charge v 1
  let t := bitsN a 25 23
  let sel := r1.st.sel.upd ⟨r1.ctx % 4, by omega⟩ (fun w => fput ⟨3 * t + 2, 3 * t⟩ w (bitsN a 22 20))
  .ok { r1 with st := { r1.st with sel := sel } }

/-- Profile channel ch of the section. -/
def EngSt.ch (s : EngSt) (ch : Nat) : Prof := Tbl.get (fun _ => ({} : Prof)) s.prof ch

/-- Profile channel ch replaced. -/
def EngSt.setCh (s : EngSt) (ch : Nat) (p : Prof) : EngSt := { s with prof := Tbl.set (fun _ => ({} : Prof)) s.prof ch p }

/-- PSTEP (R166, R182). -/
def opPstep (v : EngEnv) (r : EngRun) (a : Nat) : Except Nat EngRun := do
  let ch := 4 * r.ctx + bitsN a 25 24
  let k := fK a
  let vm ← v.coefU k
  let am ← v.coefU (k + 1)
  let jm ← v.coefU (k + 2)
  let h ← v.coefU (k + 3)
  if r.stepped.getLsbD ch then .error 9
  else
    let r1 ← r.charge v 6
    let raw := r1.src1 (bitsN a 19 14)
    let nsrc := Nat.testBit a 23
    let n := if nsrc then (clampI 1 255 raw).toNat else v.tin.delta
    let r2 := if nsrc && decide (raw < 1 ∨ 255 < raw) then r1.mark 6 false else r1
    let (p, hit, sat) := profStep (r2.st.ch ch) n vm am jm h
    let r3 := if hit || sat then r2.mark 6 sat else r2
    .ok { r3 with
      stepped := r3.stepped ||| BitVec.ofNat 16 (2 ^ ch)
      st := { r3.st.setCh ch p with plim := Tbl.set (fun _ => none) r3.st.plim ch (some k) } }

/-- PTGT (R167). -/
def opPtgt (v : EngEnv) (r : EngRun) (a : Nat) : Except Nat EngRun := do
  let r1 ← r.charge v 1
  let ch := 4 * r1.ctx + bitsN a 25 24
  .ok { r1 with st := r1.st.setCh ch { r1.st.ch ch with tgt := r1.src1 (fA a) } }

/-- PSET (R167). -/
def opPset (v : EngEnv) (r : EngRun) (a : Nat) : Except Nat EngRun := do
  let r1 ← r.charge v 1
  let ch := 4 * r1.ctx + bitsN a 25 24
  .ok { r1 with st := r1.st.setCh ch { r1.st.ch ch with x := r1.src1 (fA a) * 2 ^ 32, v := 0, a := 0 } }

/-- PY. -/
def opPy (v : EngEnv) (r : EngRun) (a : Nat) : Except Nat EngRun := do
  let r1 ← r.charge v 1
  r1.put (fD a) [((r1.st.ch (4 * r1.ctx + bitsN a 19 18)).y, false)]

/-- The W flag after a window read (R180): a suspect result sets it, no read clears it. -/
def accSuspect (q : AccRes) : Bool := decide (bitsN q.stat.toNat 31 27 ≠ 0x10)

/-- The field of a result that an input-map entry names, raw (R185). -/
def accField (q : AccRes) (f : Nat) : Int :=
  match f with
  | 0 => q.sum.toInt
  | 1 => ((q.stat.toNat % 65536 : Nat) : Int)
  | 2 => sgn 14 (bitsN q.minmax.toNat 29 16)
  | 3 => sgn 14 (bitsN q.minmax.toNat 13 0)
  | _ => q.tstamp.toInt

/-- RDW (R185). -/
def opRdw (v : EngEnv) (r : EngRun) (a : Nat) : Except Nat EngRun := do
  let r1 ← r.charge v 1
  match v.res with
  | none => EngRun.put { r1 with w := true } (fD a) [(0, false)]
  | some q => EngRun.put { r1 with w := r1.w || accSuspect q } (fD a) [(accField q v.field, false)]

/-- WAVG (R185). -/
def opWavg (v : EngEnv) (r : EngRun) (a : Nat) : Except Nat EngRun := do
  let r1 ← r.charge v 4
  let k ← v.coef (fK a)
  match v.res with
  | none => EngRun.put { r1 with w := true } (fD a) [(0, false)]
  | some q =>
    let n := q.stat.toNat % 65536
    EngRun.put { r1 with w := r1.w || accSuspect q } (fD a) [if n = 0 then (0, false) else wsat (divEven (q.sum.toInt * k) n)]

/-- The value of an RDI item (R186). -/
def rdiValue (v : EngEnv) (ctx sel : Nat) : Int :=
  if 0x40 ≤ sel then (v.item sel).toInt
  else if 0x20 ≤ sel then (Tbl.get (fun _ => (0 : W)) v.tin.host (sel - 0x20)).toInt
  else
    match sel with
    | 0 => v.tin.delta | 1 => b2n v.first | 2 => v.tin.time.toInt | 3 => b2n v.tin.inv | 4 => v.tin.derate.toInt
    | _ => ctx

/-- RDI (R186). -/
def opRdi (v : EngEnv) (r : EngRun) (a : Nat) : Except Nat EngRun := do
  let r1 ← r.charge v 1
  let x := rdiValue v r1.ctx (a % 256)
  r1.put (fD a) [if Nat.testBit a 19 then wsat (x * 2 ^ 27) else (x, false)]

/-- Words of a leg's duty buffer replaced. -/
def EngRun.bufSet (r : EngRun) (leg : Nat) (ws : List Nat) (x : W) : EngRun :=
  { r with buf := r.buf.upd ⟨leg % 4, by omega⟩ (fun b => ws.foldl (fun b i => b.set i x) b) }

/-- DUTY (R160, R187). -/
def opDuty (v : EngEnv) (r : EngRun) (a : Nat) : Except Nat EngRun := do
  let r1 ← r.charge v 1
  let leg : Fin 4 := ⟨bitsN a 25 24 % 4, by omega⟩
  let cfg := v.cfg.get leg
  let (x, out) := dutyWord (r1.src1 (fA a)) (fbit Fld.CAR_CFG_RATIO cfg) (presc cfg)
    (((r1.buf.get leg).getD 0 0).toNat % 65536)
  .ok ((if out then r1.mark 4 else r1).bufSet leg.val (cselWords (bitsN a 23 20)) x)

/-- DSET (R187). -/
def opDset (v : EngEnv) (r : EngRun) (a : Nat) : Except Nat EngRun := do
  let r1 ← r.charge v 1
  match dsetWord (bitsN a 23 20) with
  | some (i, m) => .ok (r1.bufSet (bitsN a 25 24) [i] (intW (r1.src1 (fA a)) &&& m))
  | none => .error 3

/-- OUT (R189). -/
def opOut (v : EngEnv) (r : EngRun) (a : Nat) : Except Nat EngRun := do
  let r1 ← r.charge v 1
  let k ← v.coef (fK a)
  let (x, s) := accOut (r1.src1 (fA a) * k)
  let r2 := { r1 with outs := Tbl.set (fun _ => none) r1.outs (bitsN a 25 21) (some (intW x)) }
  .ok (if s then r2.mark 5 else r2)

/-- REQ (R189). -/
def opReq (v : EngEnv) (r : EngRun) (a : Nat) : Except Nat EngRun := do
  let r1 ← r.charge v 1
  .ok { r1 with reqs := r1.reqs ||| BitVec.ofNat 16 (2 ^ (a % 16)) }

/-- SEND (R189): at most 64 words for one ring in one run. -/
def opSend (v : EngEnv) (r : EngRun) (a : Nat) : Except Nat EngRun := do
  let n := a % 16 + 1
  let ring := bitsN a 25 25
  let r1 ← r.charge v (vecClk n)
  let xs ← r1.src (fA a) n
  let used := ((r1.sends.filter (fun m => m.1 = ring)).map (fun m => m.2.length)).sum
  if 64 < used + n then .error 7 else .ok { r1 with sends := r1.sends ++ [(ring, xs.map intW)] }

/-- NOP. -/
def opNop (v : EngEnv) (r : EngRun) (_ : Nat) : Except Nat EngRun := r.charge v 1

/-- A branch condition (R190). -/
def EngRun.cond (r : EngRun) (first : Bool) (c : Nat) : Bool :=
  match c with
  | 0 => true | 1 => r.z | 2 => !r.z | 3 => r.n | 4 => !r.n | 5 => !r.n && !r.z | 6 => r.n || r.z | 7 => r.satf
  | 8 => !r.satf | 9 => r.l | 10 => !r.l | 11 => r.w | 12 => !r.w | 13 => first | _ => !first

/-- BR (R190, R191): its own target, or the next address. -/
def opBr (v : EngEnv) (r : EngRun) (a : Nat) : Except Nat EngRun := do
  let c := bitsN a 25 22
  let t := bitsN a 10 0
  if v.img.count ≤ t then .error 4
  else
    let hold := r.cond v.first c
    let r1 ← r.charge v (if hold then 2 else 1)
    let r2 := if c = 11 ∨ c = 12 then { r1 with w := false } else r1
    .ok (if hold then { r2 with pc := t } else { r2 with pc := r2.pc + 1 })

/-- CALL (R191). -/
def opCall (v : EngEnv) (r : EngRun) (a : Nat) : Except Nat EngRun := do
  let t := bitsN a 10 0
  if v.img.count ≤ t then .error 4
  else if 8 ≤ r.stack.length then .error 5
  else
    let r1 ← r.charge v 2
    .ok { r1 with stack := (r1.pc + 1) :: r1.stack, pc := t }

/-- RET (R191). -/
def opRet (v : EngEnv) (r : EngRun) (_ : Nat) : Except Nat EngRun := do
  match r.stack with
  | [] => .error 6
  | t :: s =>
    let r1 ← r.charge v 2
    .ok { r1 with stack := s, pc := t }

/-- WAIT (R191): its clock first, then the hold to CLK. -/
def opWait (v : EngEnv) (r : EngRun) (a : Nat) : Except Nat EngRun := do
  let r1 ← r.charge v 1
  let c := bitsN a 19 0
  .ok (if r1.clk < c then { r1 with wait := some c, pc := r1.pc + 1 } else { r1 with pc := r1.pc + 1 })

/-! ### Issue -/

/-- The contexts that run: context 0, and each context whose bridge the sheet holds (R151). -/
def SecState.contexts (x : SecState) : List Nat :=
  0 :: ([1, 2, 3] : List (Fin 4)).filterMap (fun b => if (x.bridges.get b).kind ≠ 0 then some b.val else none)

/-- The context that runs after one, if any (R152). -/
def SecState.nextCtx (x : SecState) (c : Nat) : Option Nat := x.contexts.find? (fun k => decide (c < k))

/-- NEXT (R152): cause 0x1 where no running context follows. -/
def SecState.opNext (x : SecState) (v : EngEnv) (r : EngRun) (_ : Nat) : Except Nat EngRun := do
  match x.nextCtx r.ctx with
  | none => .error 1
  | some c =>
    let r1 ← r.charge v 2
    .ok { r1 with ctx := c, pc := v.img.entry.get ⟨c % 4, by omega⟩, stack := [] }

/-- The run of the pair, or engine B's proof run. -/
def SecState.engRun (x : SecState) (e : EngSel) : Option EngRun :=
  match e with | .proof => x.eng.prun | _ => x.eng.run

/-- The run replaced. -/
def SecState.setRun (x : SecState) (e : EngSel) (r : Option EngRun) : SecState :=
  match e with
  | .proof => { x with eng := { x.eng with prun := r } }
  | _ => { x with eng := { x.eng with run := r } }

/-- What the engine that runs has been loaded with. -/
def SecState.imgOf (x : SecState) (e : EngSel) : EngImg :=
  match e with | .proof => x.eng.imgB | _ => if x.eng.mode = 2 then x.eng.imgB else x.eng.imgA

/-- DEADLINE of a run in engine clocks (R16, R350). -/
def SecState.deadlineOf (x : SecState) (e : EngSel) : Nat :=
  match e with | .proof => x.eng.pdead | _ => x.fld Reg.TICK_DEADLINE Fld.TICK_DEADLINE_DEADLINE

/-- A memory word is known to be uncorrectable in an engine whose error counts for the run (R162). -/
def SecState.badWord (x : SecState) (e : EngSel) (mem addr : Nat) : Bool :=
  match e with
  | .proof => x.eng.imgB.bad.contains (mem, addr)
  | _ => (x.eng.mode ≠ 2 && x.eng.imgA.bad.contains (mem, addr)) || (x.eng.mode ≠ 1 && x.eng.imgB.bad.contains (mem, addr))

/-- The coefficient and table words that an instruction reads, beside its own word. -/
def EngRun.reads (r : EngRun) (img : EngImg) (op a : Nat) : List (Nat × Nat) :=
  let ks (k n : Nat) := (upTo n).map (fun i => (1, k + i))
  match op with
  | 0x09 => ks (fK a) 1 | 0x16 => ks (fK a) 1 | 0x17 => ks (fK a) 1 | 0x19 => ks (fK a) 2 | 0x24 => ks (fK a) 4
  | 0x29 => ks (fK a) 1 | 0x2E => ks (fK a) 1
  | 0x20 =>
    let w0 := (Tbl.get (fun _ => (0 : W)) img.coef (fK a)).toNat
    let w1 := (Tbl.get (fun _ => (0 : W)) img.coef (fK a + 1)).toNat
    let rows := bitsN w0 31 28 + 1
    let cols := bitsN w0 25 20 + 1
    ks (fK a) (2 + (cols + 3) / 4) ++ ks (w0 % 4096) (rows * cols) ++
      (if Nat.testBit w0 16 then ks (w1 % 4096) rows else [])
  | 0x21 =>
    let kh := bitsN a 10 0
    let t := selOf (r.st.sel.get ⟨r.ctx % 4, by omega⟩) (bitsN a 13 11)
    let u := r.src1 (bitsN a 19 14)
    let u0 := (Tbl.get (fun _ => (0 : W)) img.coef (2 * kh)).toInt
    let sc := (Tbl.get (fun _ => (0 : W)) img.coef (2 * kh + 1)).toNat
    let i := (clampI 0 (256 * 2 ^ 43) ((u - u0) * sc)).toNat / 2 ^ 43
    ks (2 * kh) 2 ++ [(2, 512 * t + i)] ++ (if i = 256 then [] else [(2, 512 * t + i + 1)])
  | _ => []

/-- What issuing an instruction comes to. -/
inductive Issue where
  | no
  | fault (cause : Nat)
  | bad (mem addr : Nat)
  | go (r : EngRun)
  deriving DecidableEq, Repr

/-- An instruction is issued: the run is in progress and neither stalled, waiting nor rolled back, its clock is not
beyond the deadline (R16), and the word at its program counter is this instruction. An undefined opcode or field there
is cause 0x3 (R176); an uncorrectable word that it reads is one of R162. -/
def SecState.issue (x : SecState) (e : EngSel) (op : Nat) (args : BitVec 26) : Issue :=
  match x.engRun e with
  | none => .no
  | some r =>
    if r.stall || r.wait.isSome || r.roll.isSome || decide (x.deadlineOf e < r.clk) then .no
    else
      let img := x.imgOf e
      let w := (if r.pc < 2048 then Tbl.get (fun _ => (0 : W)) img.prog r.pc else 0).toNat
      if x.badWord e 3 r.pc then .bad 3 r.pc
      else if (opMask (w / 2 ^ 26)).isNone then .fault 3
      else if w ≠ op * 2 ^ 26 + args.toNat then .no
      else if !fieldsOk op args.toNat then .fault 3
      else
        match (r.reads img op args.toNat).find? (fun m => x.badWord e m.1 m.2) with
        | some m => .bad m.1 m.2
        | none => .go r

/-- The environment of an instruction. -/
def SecState.envOf (x : SecState) (e : EngSel) (item : Nat → W) (res : Option AccRes) (field : Nat) : EngEnv :=
  { img := x.imgOf e, tin := x.eng.tin, first := (match e with | .proof => x.eng.pfirst | _ => x.eng.tin.first)
    cfg := x.eng.tin.cfg, item := item, res := res, field := field }

/-- What an instruction comes to in the section: the section after it, and a program fault or an uncorrectable word,
which the tick deals with. -/
inductive EngEff where
  | done
  | fault (cause : Nat)
  | bad (mem addr : Nat)
  deriving DecidableEq, Repr

/-- An instruction executed on its run; `jump` tells that it has set the program counter itself. -/
def SecState.engExec (x : SecState) (e : EngSel) (op : Nat) (args : BitVec 26)
    (f : EngEnv → EngRun → Nat → Except Nat EngRun) (jump : Bool) (env : EngEnv) : SecState × EngEff :=
  match x.issue e op args with
  | .no => (x, .done)
  | .fault c => (x, .fault c)
  | .bad m a => (x, .bad m a)
  | .go r =>
    match f env r args.toNat with
    | .error c => (x, .fault c)
    | .ok r1 => (x.setRun e (some (if jump then r1 else { r1 with pc := r1.pc + 1 })), .done)

/-- The run stalls (R153). -/
def SecState.stallRun (x : SecState) (e : EngSel) (r : EngRun) : SecState := x.setRun e (some { r with stall := true })

/-- A window read (R90, R185): a pending accumulator stalls the run; otherwise the slot's result is read. -/
def SecState.windowRead (x : SecState) (e : EngSel) (op : Nat) (args : BitVec 26) (slot : Nat)
    (f : EngEnv → EngRun → Nat → Except Nat EngRun) : SecState × EngEff :=
  match x.issue e op args with
  | .go r =>
    let m := Tbl.get (fun _ => (0xFFFFFFFF : W)) (x.imgOf e).imap slot
    if m = 0xFFFFFFFF then x.engExec e op args f false (x.envOf e (fun _ => 0) none 0)
    else
      match x.readAcc (4 * bitsN m.toNat 5 2 + bitsN m.toNat 1 0) with
      | none => (x.stallRun e r, .done)
      | some (q, x1) => x1.engExec e op args f false (x1.envOf e (fun _ => 0) (some q) (bitsN m.toNat 18 16))
  | _ => x.engExec e op args f false (x.envOf e (fun _ => 0) none 0)

end Sys2Proof.Machine
end

