-- ==== Sys2Proof/Machine/Assist.lean ====
section
/-! DEFINITION. The grid assist block of a section (R193 to R203, R211, R212, R218 to R220): the observer, the current
sets and the MPPT units. Quantities are fixed-point integers with 48 fraction bits; a published result deviates freely
within the bound of R199 (notes/assumptions/20.md). -/

namespace Sys2Proof.Machine

/-- One, with 48 fraction bits. -/
def fx1 : Int := 281474976710656

/-- A product of two fixed-point numbers. -/
def fxMul (a b : Int) : Int := a * b / fx1

/-- A quotient of two fixed-point numbers. -/
def fxDiv (a b : Int) : Int := a * fx1 / b

/-- The square root of a number with 96 fraction bits, with 48. -/
def fxSqrt (n : Int) : Int := (isqrt 64 n.toNat : Nat)

/-- The magnitude of a vector. -/
def fxMag (a b : Int) : Int := fxSqrt (a * a + b * b)

/-- Pi, with 48 fraction bits. -/
def fxPi : Int := twoPi80 / 2 ^ 33

/-- A Q1.15 register value. -/
def q15 (n : Nat) : Int := (n : Int) * 2 ^ 33

/-- An angle reduced to minus half a turn up to half a turn. -/
def fxWrap (a : Int) : Int := (a + fx1 / 2) % fx1 - fx1 / 2

/-- The sine of an angle in turns. -/
def fxSin (a : Int) : Int := sin80 (twoPi80 * fxWrap a / fx1) / 2 ^ 32

/-- The cosine of an angle in turns. -/
def fxCos (a : Int) : Int := fxSin (a + fx1 / 4)

/-- One step of Newton's method towards the angle of a vector of magnitude r. -/
def angleStep (a b r t : Int) : Int := t + fxDiv (fxDiv (fxMul b (fxCos t) - fxMul a (fxSin t)) r) (2 * fxPi)

/-- The angle of a vector in turns; the zero vector has none. -/
def fxAngle (a b : Int) : Option Int :=
  let r := fxMag a b
  if r = 0 then none
  else
    let t0 : Int := if b.natAbs ≤ a.natAbs then (if 0 < a then 0 else fx1 / 2)
      else if 0 < b then fx1 / 4 else -(fx1 / 4)
    let s := angleStep a b r
    some ((s (s (s (s t0)))) % fx1)

/-- A result in pu as an engine word, within 2^-24 of the value (R199). -/
def pubPu (fc : Nat) (v : Int) : W := intW (clampI (-2147483648) 2147483647 (v / 2 ^ 21 + clampI (-7) 8 (Config.freeDev fc)))

/-- A result in turns as a fraction of a turn in 32 bits, within 2^-24 turn of the value (R199). -/
def pubTurn (fc : Nat) (v : Int) : W := intW (v / 2 ^ 16 + clampI (-255) 256 (Config.freeDev fc))

/-- A quantity in pu as an engine word, where the spec states no rounding. -/
def pubFree (fc : Nat) (v : Int) : W := intW (clampI (-2147483648) 2147483647 (quotFree v (2 ^ 21) (Config.freeBit fc)))

/-! ### Window means -/

/-- The result of an accumulator as the tick sees it; 48 to 63 name none. -/
def SecState.accNow (x : SecState) (k : Nat) : AccRes :=
  if k < 48 then (x.acc k).fixed.getD (x.acc k).got else {}

/-- The mean of a window times a scale in Q5.27. -/
def accMean (r : AccRes) (scale : W) : Int :=
  let n := r.stat.toNat % 65536
  if n = 0 then 0 else r.sum.toInt * scale.toInt * 2 ^ 21 / (n : Int)

/-- An accumulator whose result the tick waits for (R90). -/
def SecState.awaited (x : SecState) (k : Nat) : Bool :=
  decide (k < 48) && x.armed k && (x.acc k).pend && decide (x.accMode k = 0) && (x.acc k).fixed.isNone

/-- The observer is on. -/
def SecState.gridOn (x : SecState) : Bool := x.flag Reg.GRID_CFG Fld.GRID_CFG_EN

/-- The accumulators that a tick's assist update uses (R195). -/
def SecState.assistAccs (x : SecState) : List Nat :=
  let g := if x.gridOn then
      [x.fld Reg.GRID_CFG Fld.GRID_CFG_VA_ACC, x.fld Reg.GRID_CFG Fld.GRID_CFG_VB_ACC,
        x.fld Reg.GRID_CFG Fld.GRID_CFG_VC_ACC]
    else []
  g ++ ([0, 1, 2, 3] : List Bridge).flatMap (fun b =>
    if (x.bridges.get b).kind = 0 then []
    else
      let c := x.rd (Reg.BR_CFG b.val)
      let i := x.rd (Reg.BR_ISRC b.val)
      [fget Fld.BR_CFG_VDC_ACC c, fget Fld.BR_ISRC_IA_ACC i, fget Fld.BR_ISRC_IB_ACC i, fget Fld.BR_ISRC_IC_ACC i] ++
        (if fbit Fld.BR_CFG_IPRE_EN c then [fget Fld.BR_CFG_IPRE_ACC c] else []))

/-! ### The observer -/

/-- The nominal frequency in Hz. -/
def SecState.fNom (x : SecState) : Nat := if x.flag Reg.GRID_CFG Fld.GRID_CFG_F60 then 60 else 50

/-- The step of an update in seconds (R194). -/
def SecState.gridStep (x : SecState) : Int := (x.eng.tin.delta : Int) * (x.rd Reg.GRID_H).toNat * 2 ^ 16

/-- The three phase voltages in the stationary frame (R199). -/
def SecState.gridAB (x : SecState) : Int × Int :=
  let g := x.rd Reg.GRID_CFG
  let m (f : Field) : Int := accMean (x.accNow (fget f g)) (x.rd Reg.GRID_VSCALE)
  let va := m Fld.GRID_CFG_VA_ACC
  let vb := m Fld.GRID_CFG_VB_ACC
  let vc := m Fld.GRID_CFG_VC_ACC
  ((2 * va - vb - vc) / 3, fxDiv (vb - vc) (fxSqrt (3 * fx1 * fx1)))

/-- The trapezoidal step of an integrator of gain sqrt 2 with c half the angle of the step (R199). -/
def Sogi.step (s : Sogi) (c v : Int) : Sogi :=
  let g := fxSqrt (2 * fx1 * fx1)
  let cg := fxMul c g
  let cc := fxMul c c
  let p := fxDiv (fxMul (fx1 - cg - cc) s.p - 2 * fxMul c s.q + fxMul cg (s.v + v)) (fx1 + cg + cc)
  ⟨p, s.q + fxMul c (p + s.p), v⟩

/-- A pair of integrators turned by an angle (R202). -/
def rotSogi (a b : Sogi) (t : Int) : Sogi × Sogi :=
  let c := fxCos t
  let s := fxSin t
  (⟨fxMul a.p c - fxMul b.p s, fxMul a.q c - fxMul b.q s, fxMul a.v c - fxMul b.v s⟩,
    ⟨fxMul a.p s + fxMul b.p c, fxMul a.q s + fxMul b.q c, fxMul a.v s + fxMul b.v c⟩)

/-- The observer seeded from a tick's measurements (R200): the quadrature outputs are left open. -/
def Obs.seed (o : Obs) (fc : Nat) (va vb delay : Int) : Obs :=
  { o with
    mode := 0, w := fx1, wi := 0, theta := (((fxAngle va vb).getD (Config.freeDev fc)) + delay) % fx1
    sa := ⟨va, Config.freeDev (fc + 1), va⟩, sb := ⟨vb, Config.freeDev (fc + 2), vb⟩
    rel := none, hist := [], clampT := 0, turn := false, turnOk := false, resSum := 0, resCnt := 0, qual := 0 }

/-- The positive and the negative sequence of the estimates (R199). -/
def Obs.seq (o : Obs) : (Int × Int) × (Int × Int) :=
  (((o.sa.p - o.sb.q) / 2, (o.sa.q + o.sb.p) / 2), ((o.sa.p + o.sb.q) / 2, (o.sb.p - o.sa.q) / 2))

/-- The amplitudes of the three phases that the estimates imply, without zero sequence (R199). -/
def Obs.amps (o : Obs) : List Int :=
  let ((pa, pb), (na, nb)) := o.seq
  let amp (k : Int) : Int :=
    let c := fxCos (k * fx1 / 3)
    let s := fxSin (k * fx1 / 3)
    -- P turned back by k thirds of a turn, plus the conjugate of N turned back by as much
    let ra := fxMul pa c + fxMul pb s
    let rb := fxMul pb c - fxMul pa s
    let qa := fxMul na c + fxMul nb s
    let qb := fxMul nb c - fxMul na s
    fxMag (ra + qa) (rb - qb)
  [amp 0, amp 1, amp 2]

/-- The frequency at least one nominal period ago, from the steps and frequencies of the last updates, newest first. -/
def wAgo (period : Int) : Int → List (Int × Int) → Option Int
  | _, [] => none
  | acc, (h, w) :: t => if period ≤ acc then some w else wAgo period (acc + h) t

/-- The history shortened to the frequency one nominal period ago. -/
def trimHist (period : Int) : Int → List (Int × Int) → List (Int × Int)
  | _, [] => []
  | acc, (h, w) :: t => if period ≤ acc then [(h, w)] else (h, w) :: trimHist period (acc + h) t

/-- A jump of the raw vector against theta (R202), measured in TRACK with VALID 1: the observer turned by it, the
difference it found, and whether it re-seeded. -/
def Obs.jump (o : Obs) (va vb delay pjTh : Int) : Obs × Int × Bool :=
  match (if o.mode = 0 ∧ o.valid = true then fxAngle va vb else none) with
  | none => ({ o with rel := none }, 0, false)
  | some a =>
    let rel := fxWrap (a + delay - o.theta)
    match o.rel with
    | none => ({ o with rel := some rel }, 0, false)
    | some r0 =>
      let d := fxWrap (rel - r0)
      if pjTh < d.natAbs ∧ fx1 / 2 ≤ fxMag va vb then
        let (sa, sb) := rotSogi o.sa o.sb d
        ({ o with theta := (o.theta + d) % fx1, sa := sa, sb := sb, rel := some r0 }, d, true)
      else ({ o with rel := some rel }, d, false)

/-- The loop of R199 closed for one step: the observer, and the error that drove it. -/
def Obs.loop (o : Obs) (x : SecState) (h vpos delay : Int) (fc : Nat) : Obs :=
  let ((pa, pb), _) := o.seq
  let t := o.theta - delay
  let vq := fxMul pb (fxCos t) - fxMul pa (fxSin t)
  let den := max vpos (q15 (x.fld Reg.GRID_VLIM Fld.GRID_VLIM_V_HOLD))
  let e := if den = 0 then Config.unstated fc vq den else fxDiv vq den
  let bw : Int := x.fld Reg.GRID_BW Fld.GRID_BW_BW
  let f : Int := x.fNom
  let kp := 14142 * bw * fx1 / (10000 * f)
  let ki := 2 * fxPi * bw * bw / f
  let wi := o.wi + fxMul (fxMul ki e) h
  { o with wi := wi, w := clampI (fx1 * 4 / 5) (fx1 * 6 / 5) (fx1 + fxMul kp e + wi) }

/-- The end of an update: the residual, theta's advance, and a completed turn with its qualification (R199, R201). What
lies before theta first passes 0 is no complete turn. -/
def Obs.advance (o : Obs) (x : SecState) (h dist : Int) (good : Bool) : Obs :=
  let t := o.theta + fxMul o.w (h * x.fNom)
  let o1 : Obs := { o with
    theta := t % fx1, resSum := o.resSum + dist, resCnt := o.resCnt + 1, turnOk := o.turnOk && good
    wrap := decide (fx1 ≤ t) }
  if t < fx1 then o1
  else if !o1.turn then { o1 with turn := true, turnOk := decide (o1.mode = 0), resSum := 0, resCnt := 0 }
  else
    let res := o1.resSum / (o1.resCnt : Int)
    let ok := o1.turnOk && decide (res ≤ q15 (x.fld Reg.GRID_VLIM Fld.GRID_VLIM_RES_TH))
    let qual := if ok then min 3 (o1.qual + 1) else 0
    { o1 with
      turnOk := decide (o1.mode = 0), resSum := 0, resCnt := 0, qual := qual
      valid := o1.valid || decide (qual = 3), oRes := intW (clampI 0 2147483647 (res / 2 ^ 21)), ev := o1.ev ||| 8 }

/-- The results of an update, published within the bound of R199. -/
def Obs.publish (o : Obs) (x : SecState) (fc : Nat) (theta : Int) : Obs :=
  let ((pa, pb), (na, nb)) := o.seq
  let am := o.amps
  let period := fx1 / (x.fNom : Int)
  let ro : Int := if o.mode ≠ 0 then 0 else
    match wAgo period 0 o.hist with
    | some w0 => fxDiv (o.w - w0) period
    | none => Config.freeDev (fc + 3)
  { o with
    oTheta := pubTurn (fc + 4) theta, oW := pubPu (fc + 5) o.w
    oRocof := (if o.mode ≠ 0 then 0 else pubPu (fc + 6) ro)
    oPos := pubPu (fc + 7) (fxMag pa pb), oNeg := pubPu (fc + 8) (fxMag na nb)
    oLo := pubPu (fc + 9) (min (min (am.getD 0 0) (am.getD 1 0)) (am.getD 2 0))
    oHi := pubPu (fc + 10) (max (max (am.getD 0 0) (am.getD 1 0)) (am.getD 2 0))
    oRes := (if o.ev.getLsbD 3 then pubPu (fc + 11) (o.oRes.toInt * 2 ^ 21) else o.oRes) }

/-- One update of the observer (R199 to R202). -/
def Obs.update (o : Obs) (x : SecState) (fc : Nat) : Obs :=
  if !x.gridOn then {}
  else
    let (va, vb) := x.gridAB
    let h := x.gridStep
    let n : Int := (x.accNow (x.fld Reg.GRID_CFG Fld.GRID_CFG_VA_ACC)).stat.toNat % 65536
    let delay := fxMul o.w (n * x.fNom * fx1 * 25 / 2000000000)
    let o0 : Obs := { o with va := va, vb := vb, ev := 0, oJump := 0, oVs := 0 }
    let hold := q15 (x.fld Reg.GRID_VLIM Fld.GRID_VLIM_V_HOLD)
    if o.mode = 3 then
      let o1 := o0.seed fc va vb delay
      (({ o1 with cen := o1.theta - delay }).advance x h 0 false).publish x fc o1.theta
    else
      let (o1, d, hit) := o0.jump va vb delay ((x.fld Reg.GRID_BW Fld.GRID_BW_PJ_TH : Int) * 2 ^ 32)
      let c := fxMul (fxMul fxPi o1.w) (h * x.fNom)
      let o2 : Obs := { o1 with
        sa := o1.sa.step c va, sb := o1.sb.step c vb
        oJump := (if hit then intW (d / 2 ^ 16) else 0), oVs := intW (d / 2 ^ 16), ev := (if hit then 4 else 0) }
      let ((pa, pb), _) := o2.seq
      let vpos := fxMag pa pb
      let dist := fxMag (va - o2.sa.p) (vb - o2.sb.p)
      let back := decide (hold + fx1 / 50 ≤ vpos)
      if o2.mode = 2 ∧ back = true then
        let o3 := o2.seed fc va vb delay
        (({ o3 with cen := o3.theta - delay }).advance x h 0 false).publish x fc o3.theta
      else
        let mode := if o2.mode = 0 ∧ vpos < hold then 1 else if o2.mode = 1 ∧ back = true then 0 else o2.mode
        let ev := if o2.mode = 0 ∧ mode = 1 then o2.ev ||| 1 else o2.ev
        let o3 : Obs := { o2 with mode := mode, cen := o2.theta - delay, ev := ev }
        let o4 := if mode = 0 then o3.loop x h vpos delay (fc + 12) else o3
        let period := fx1 / (x.fNom : Int)
        let atLim := decide (mode = 0) && decide (o4.w = fx1 * 4 / 5 ∨ o4.w = fx1 * 6 / 5)
        let ct := if atLim then o4.clampT + h else 0
        let o5 : Obs := { o4 with clampT := ct, hist := trimHist period 0 ((h, o4.w) :: o4.hist) }
        let o6 : Obs := if atLim && decide (period ≤ ct) then
            { o5 with mode := 2, valid := false, qual := 0, clampT := 0, ev := o5.ev ||| 2 } else o5
        (o6.advance x h dist (decide (o6.mode = 0) && decide (hold ≤ vpos))).publish x fc o6.theta

/-- HOLD has lasted HOLD_MAX ms (OBSERVER_HOLD_TIMEOUT, R200). -/
def Obs.holdTimeout (o : Obs) : Obs :=
  if o.mode = 1 then { o with mode := 2, valid := false, qual := 0, ev := o.ev ||| 2 } else o

/-! ### Current sets, power and the open-phase check (R197, R218 to R220) -/

/-- The number of failed phases. -/
def failCount (m : BitVec 3) : Nat := b2n (m.getLsbD 0) + b2n (m.getLsbD 1) + b2n (m.getLsbD 2)

/-- The phase currents with reconstruction (R219). -/
def reconstruct (kind : Nat) (m : BitVec 3) (c : List Int) : List Int :=
  let a := c.getD 0 0
  let b := c.getD 1 0
  let d := c.getD 2 0
  if kind ≠ 1 ∨ failCount m ≠ 1 then c
  else if m.getLsbD 0 then [-(b + d), b, d] else if m.getLsbD 1 then [a, -(a + d), d] else [a, b, -(a + b)]

/-- Clarke's transform, amplitude-invariant. -/
def clarke (c : List Int) : Int × Int :=
  ((2 * c.getD 0 0 - c.getD 1 0 - c.getD 2 0) / 3, fxDiv (c.getD 1 0 - c.getD 2 0) (fxSqrt (3 * fx1 * fx1)))

/-- P and Q from voltages and currents (R197). -/
def powers (va vb : Int) (c : List Int) (fc : Nat) : W × W :=
  let (ia, ib) := clarke c
  (pubFree fc (fxMul va ia + fxMul vb ib), pubFree (fc + 1) (fxMul vb ia - fxMul va ib))

/-- The state of a bridge (R204). -/
def SecState.brState (x : SecState) (b : Nat) : Nat := x.fld (Reg.BR_STAT b) Fld.BR_STAT_STATE

/-- A phase window that shows a failed sensor: EMPTY, or too little ripple. -/
def ripLow (r : AccRes) (mn : Nat) : Bool :=
  decide (sgn 14 (bitsN r.minmax.toNat 13 0) - sgn 14 (bitsN r.minmax.toNat 29 16) < (mn : Int))

/-- The checks of the current set (R218, R219). -/
def BrAst.check (a : BrAst) (x : SecState) (b kind : Nat) (rs : List AccRes) (named : List Bool) : BrAst :=
  let st := x.brState b
  if !x.flag (Reg.BR_CFG b) Fld.BR_CFG_CHECK_EN || decide (st < 4 ∨ 6 < st) then a
  else
    let chk := x.rd (Reg.BR_CHK b)
    let low (i : Nat) : Bool := ripLow (rs.getD i {}) (fget Fld.BR_CHK_RIP_MIN chk)
    let rip := (upTo 3).map (fun i => if named.getD i false && low i then a.rip.getD i 0 + 1 else 0)
    let bad (i : Nat) : Bool := named.getD i false && !a.failed.getLsbD i &&
      (wbit (rs.getD i {}).stat 30 || (low i && decide (fget Fld.BR_CHK_RIP_N chk ≤ rip.getD i 0)))
    let new := ((upTo 3).filter bad).length
    let failed := a.failed ||| BitVec.ofNat 3 (b2n (bad 0) + 2 * b2n (bad 1) + 4 * b2n (bad 2))
    let s := (a.cur1.getD 0 0 + a.cur1.getD 1 0 + a.cur1.getD 2 0).natAbs
    let high := decide (kind = 1) && decide (failed = 0) &&
      decide (q15 (x.fld (Reg.BR_PO2 b) Fld.BR_PO2_SUM_TH) < (s : Int))
    let sumN := if high then a.sumN + 1 else 0
    let sumHit := high && decide (max 1 (fget Fld.BR_CHK_SUM_N chk) = sumN)
    let recon := decide (new ≠ 0) && decide (kind = 1) && decide (failCount failed = 1)
    let lost := sumHit || (decide (new ≠ 0) && !recon)
    let ev := BitVec.ofNat 3 (b2n recon + 2 * b2n lost)
    { a with failed := failed, rip := rip, sumN := sumN, newF := new, ev := ev }

/-- The sums over a complete turn, and the open-phase test at its end (R220): a turn counts where the bridge was in RUN
throughout. -/
def BrAst.openPhase (a : BrAst) (x : SecState) (b : Nat) (o : Obs) : BrAst :=
  let (ia, ib) := clarke a.cur
  let c := fxCos o.cen
  let s := fxSin o.cen
  let inc := [fxMul ia c + fxMul ib s, fxMul ib c - fxMul ia s, fxMul ia c - fxMul ib s, fxMul ib c + fxMul ia s] ++
    a.cur.map (fun i => fxMul i i)
  let po := a.po.zipWith (· + ·) inc
  let n := a.poN + 1
  let run := a.poRun && decide (x.brState b = 4)
  if !o.wrap then { a with po := po, poN := n, poRun := run }
  else if !o.ev.getLsbD 3 then { a with po := [0, 0, 0, 0, 0, 0, 0], poN := 0, poRun := true, poCnt := 0 }
  else
    let g (i : Nat) : Int := po.getD i 0 / (n : Int)
    let ipos := fxMag (g 0) (g 1)
    let ineg := fxMag (g 2) (g 3)
    let rms := (upTo 3).map (fun i => fxSqrt (g (4 + i) * fx1))
    let lo := min (min (rms.getD 0 0) (rms.getD 1 0)) (rms.getD 2 0)
    let hi := max (max (rms.getD 0 0) (rms.getD 1 0)) (rms.getD 2 0)
    let p := x.rd (Reg.BR_PO b)
    let looks := run && decide (q15 (fget Fld.BR_PO_PO_IMIN p) ≤ ipos) &&
      decide ((fget Fld.BR_PO_PO_RATIO p : Int) * ipos ≤ 256 * ineg) &&
      (decide (256 * lo ≤ (fget Fld.BR_PO_PO_ZERO p : Int) * hi) ||
        decide (q15 (x.fld Reg.GRID_VLIM Fld.GRID_VLIM_RES_TH) / 2 ^ 21 < o.oRes.toInt))
    let cnt := if looks then a.poCnt + 1 else 0
    let hit := looks && decide (max 1 (x.fld (Reg.BR_PO2 b) Fld.BR_PO2_PO_CYC) = cnt)
    { a with po := [0, 0, 0, 0, 0, 0, 0], poN := 0, poRun := true, poCnt := cnt, ev := (if hit then a.ev ||| 4 else a.ev) }

/-- The MPPT unit holds (R212). -/
def SecState.mpptHeld (x : SecState) (b : Nat) : Bool :=
  x.flag (Reg.BR_CTRL b) Fld.BR_CTRL_MPPT_HOLD || decide (x.brState b ≠ 4) ||
    !x.flag (Reg.BR_MPPT2 b) Fld.BR_MPPT2_MPPT_EN

/-- One tick taken into the MPPT averages (R211). -/
def BrAst.mppt (a : BrAst) (x : SecState) (b : Nat) : BrAst :=
  if x.mpptHeld b then { a with mv := 0, mi := 0, mn := 0, mt := 0, mrec := true, flags := a.flags ||| 1 }
  else
    let m := x.rd (Reg.BR_MPPT2 b)
    { a with
      mv := a.mv + accMean (x.accNow (fget Fld.BR_MPPT2_V_ACC m)) (x.rd (Reg.BR_MPPT_VSC b))
      mi := a.mi + accMean (x.accNow (fget Fld.BR_MPPT2_I_ACC m)) (x.rd (Reg.BR_MPPT_ISC b))
      mn := a.mn + 1, mt := a.mt + x.eng.tin.delta, flags := a.flags &&& 6 }

/-- One interval of the MPPT unit (R211): the unit, and whether VREF was clamped. The first interval after a hold only
records. -/
def BrAst.mpptStep (a : BrAst) (x : SecState) (b fc : Nat) : BrAst × Bool :=
  let v := a.mv / (a.mn : Int)
  let i := a.mi / (a.mn : Int)
  let base : BrAst := { a with mv := 0, mi := 0, mn := 0, mt := 0, mvPrev := v, miPrev := i, mrec := false }
  if a.mrec then (base, false)
  else
    let dv := v - a.mvPrev
    let di := i - a.miPrev
    let m3 := x.rd (Reg.BR_MPPT3 b)
    let dve := q15 (fget Fld.BR_MPPT3_DV_EPS m3)
    let die := q15 (fget Fld.BR_MPPT3_DI_EPS m3)
    let st : Int := x.fld (Reg.BR_MPPT1 b) Fld.BR_MPPT1_STEP * 2 ^ 12
    let step : Int :=
      if (dv.natAbs : Int) < dve then (if (di.natAbs : Int) < die then 0 else st * sign3 di)
      else
        let e := if v = 0 then Config.unstated fc (v * di + i * dv) v else (v * di + i * dv) / v
        if (e.natAbs : Int) < die then 0 else st * sign3 e * sign3 dv
    let lo : Int := x.fld (Reg.BR_MPPT1 b) Fld.BR_MPPT1_VMIN * 2 ^ 12
    let hi : Int := x.fld (Reg.BR_MPPT0 b) Fld.BR_MPPT0_VMAX * 2 ^ 12
    let w := a.vref + step
    let y := clampI lo hi w
    ({ base with vref := y, flags := BitVec.ofNat 3 (2 * b2n (decide (y ≠ w)) + 4 * b2n (decide (0 < step))) },
      decide (y ≠ w))

/-- VREF of every bridge at section boot (R212, R221): MPPT_V0, a Q1.15 number of VDC_BASE. -/
def SecState.mpptStart (x : SecState) : SecState :=
  ([0, 1, 2, 3] : List Bridge).foldl (fun x b =>
    let v : Int := x.fld (Reg.BR_MPPT0 b.val) Fld.BR_MPPT0_MPPT_V0 * 2 ^ 12
    let st := x.ast.st
    ({ x with ast := { x.ast with st := { st with br := st.br.upd b (fun a => { a with vref := v }) } } } : SecState).wr
      (Reg.BR_MPPT_V b.val) (intW v)) x

/-- The update of a bridge's units (R194, R197). -/
def BrAst.update (a : BrAst) (x : SecState) (b : Bridge) (o : Obs) (fc : Nat) : BrAst :=
  let kind := (x.bridges.get b).kind
  if kind = 0 then a
  else
    let c := x.rd (Reg.BR_CFG b.val)
    let i := x.rd (Reg.BR_ISRC b.val)
    let ks := [fget Fld.BR_ISRC_IA_ACC i, fget Fld.BR_ISRC_IB_ACC i, fget Fld.BR_ISRC_IC_ACC i]
    let raw := ks.map (fun k => accMean (x.accNow k) (x.rd (Reg.BR_ISCALE b.val)))
    let (va, vb) := x.gridAB
    let cur := reconstruct kind a.failed raw
    let (p, q) := powers va vb cur fc
    let a1 : BrAst := { a with
      ev := 0, newF := 0, cur := cur, cur1 := raw, p := p, q := q
      vdc := pubFree (fc + 4) (accMean (x.accNow (fget Fld.BR_CFG_VDC_ACC c)) (x.rd (Reg.BR_VDCSCALE b.val)))
      ipre := pubFree (fc + 5) (accMean (x.accNow (fget Fld.BR_CFG_IPRE_ACC c)) (x.rd (Reg.BR_ISCALE b.val))) }
    let a2 := a1.check x b.val kind (ks.map x.accNow) (ks.map (fun k => decide (k < 48)))
    let cur1 := reconstruct kind a2.failed raw
    let (p1, q1) := powers va vb cur1 (fc + 2)
    let (p2, q2) := if a2.failed = a.failed then (p, q) else (p1, q1)
    (({ a2 with cur1 := cur1, p1 := p2, q1 := q2 }).openPhase x b.val o).mppt x b.val

/-- The assist update of a tick (R195): the results of every unit, pending until the commit. The windows it uses are
fixed for the tick. -/
def SecState.assistUpdate (x0 : SecState) (fc : Nat) : SecState :=
  let x := x0.assistAccs.foldl (fun x k =>
    if k < 48 then (match x.readAcc k with | some (_, x1) => x1 | none => x) else x) x0
  let o := x.ast.st.obs.update x fc
  let br := x.ast.st.br.mapIdx (fun b a => a.update x b o (fc + 16 + 8 * b.val))
  { x with ast := { x.ast with pend := some ⟨o, br⟩ }, eng := { x.eng with tin := { x.eng.tin with assist := true } } }

/-! ### What RDI reads (R186, R196) -/

/-- An assist item 0x40 to 0x5F of context c. Those of the tick come from its update; before it the grid items of a
section without observer read 0. -/
def SecState.assistItem (x : SecState) (c sel : Nat) : W :=
  let a := x.ast.pend.getD x.ast.st
  let o := a.obs
  if sel < 0x50 then
    if !x.gridOn then 0
    else
      match sel with
      | 0x40 => o.oTheta | 0x41 => o.oW | 0x42 => o.oRocof | 0x43 => natW (b2n o.valid) | 0x44 => o.oPos | 0x45 => o.oNeg
      | 0x46 => o.oLo | 0x47 => o.oHi | 0x48 => o.oRes | 0x49 => natW o.mode | _ => o.oJump
  else
    let b : Bridge := ⟨c % 4, by omega⟩
    if (x.bridges.get b).kind = 0 then 0
    else
      let r := a.br.get b
      let cur (i : Nat) : W := intW (clampI (-2147483648) 2147483647 (r.cur.getD i 0 / 2 ^ 21))
      match sel with
      | 0x50 => natW (x.brState b.val) | 0x51 => cur 0 | 0x52 => cur 1 | 0x53 => cur 2
      | 0x54 => natW (x.ast.st.br.get b).failed.toNat | 0x55 => r.p | 0x56 => r.q | 0x57 => r.vdc
      | 0x58 => intW (x.ast.st.br.get b).vref | 0x59 => natW (x.ast.st.br.get b).flags.toNat
      | 0x5A => x.rd (Reg.BR_TMAX b.val) | _ => natW (x.fld (Reg.BR_STAT b.val) Fld.BR_STAT_THERM_OK)

/-! ### Refusals of writes (R198, R202, R213) -/

/-- An accumulator closes on the events that trigger the tick (R198). -/
def SecState.tickAcc (x : SecState) (k : Nat) : Bool :=
  let cfg := x.rd (Reg.ACC_CFG k)
  let t := x.rd Reg.TICK_CFG
  decide (k < 48) && decide (fget Fld.ACC_CFG_MODE cfg = 0) &&
    decide (fget Fld.ACC_CFG_STOP_LEG cfg = fget Fld.TICK_CFG_MASTER t) &&
    decide (fget Fld.ACC_CFG_STOP_EV cfg = fget Fld.TICK_CFG_SRC t) && decide (fget Fld.TICK_CFG_SRC t ≠ 3) &&
    decide (fget Fld.ACC_CFG_STOP_SKIP cfg = 0)

/-- GRID_CFG keeps the rule of R198. -/
def SecState.gridCfgOk (x : SecState) : Bool :=
  let g := x.rd Reg.GRID_CFG
  !fbit Fld.GRID_CFG_EN g || (x.tickAcc (fget Fld.GRID_CFG_VA_ACC g) && x.tickAcc (fget Fld.GRID_CFG_VB_ACC g) &&
    x.tickAcc (fget Fld.GRID_CFG_VC_ACC g))

/-- The accumulators that BR_ISRC names keep the rule of R198: a bridge that names one uses its current-set unit
(notes/assumptions/37.md). -/
def SecState.isrcOk (x : SecState) (b : Nat) : Bool :=
  let i := x.rd (Reg.BR_ISRC b)
  [fget Fld.BR_ISRC_IA_ACC i, fget Fld.BR_ISRC_IB_ACC i, fget Fld.BR_ISRC_IC_ACC i].all (fun k => decide (48 ≤ k) || x.tickAcc k)

/-- GRID_BW lies within its ranges (R202). -/
def gridBwOk (v : W) : Bool :=
  let p := fget Fld.GRID_BW_PJ_TH v
  let b := fget Fld.GRID_BW_BW v
  decide (1000 ≤ p) && decide (p ≤ 16384) && decide (5 ≤ b) && decide (b ≤ 100)

/-- The ride-through thresholds of a bridge with RIDE_EN (R213, R214); HV_MAX never lies above 1.30 pu. -/
def SecState.rideOk (x : SecState) (b : Nat) : Bool :=
  let r0 := x.rd (Reg.BR_RIDE0 b)
  let r1 := x.rd (Reg.BR_RIDE1 b)
  let mx := x.fld (Reg.BR_RIDE2 b) Fld.BR_RIDE2_HV_MAX
  let le := fget Fld.BR_RIDE0_LV_ENTER r0
  let lx := fget Fld.BR_RIDE0_LV_EXIT r0
  let he := fget Fld.BR_RIDE1_HV_ENTER r1
  let hx := fget Fld.BR_RIDE1_HV_EXIT r1
  decide (mx ≤ 0xA666) && (!x.flag (Reg.BR_CFG b) Fld.BR_CFG_RIDE_EN ||
    (decide (le < lx) && decide (lx ≤ 0x8000) && decide (0x8000 ≤ hx) && decide (hx < he) && decide (he ≤ mx)))

end Sys2Proof.Machine
end

