-- ==== Sys2Proof/Machine/Bridge.lean ====
section
/-! DEFINITION. The bridge sequencers of a section (R204 to R208, R213, R214, R216): states, commands, timeouts, what a
commit evaluates, and the contactor requests. `closed` is the mask of contactors that the safety block confirms. -/

namespace Sys2Proof.Machine

/-- The legs of a bridge. -/
def SecState.brLegs (x : SecState) (b : Bridge) : List (Fin 4) :=
  ([0, 1, 2, 3] : List (Fin 4)).filter (fun l => (x.bridges.get b).mask.getLsbD l.val)

/-- The sequencer of a bridge changed. -/
def SecState.onSeq (x : SecState) (b : Bridge) (f : BrSeq → BrSeq) : SecState :=
  { x with ast := { x.ast with seq := x.ast.seq.upd b f } }

/-- The outputs a bridge requests in its state (R204, R207): bit 0 SO0, bit 1 SO1, bit 2 SO2. -/
def SecState.soWant (x : SecState) (b : Bridge) : Nat :=
  let c := x.rd (Reg.BR_CFG b.val)
  let dc := b2n (fbit Fld.BR_CFG_USE_DC c)
  let main := 2 * b2n (fbit Fld.BR_CFG_USE_MAIN c)
  let pre := 4 * b2n (fbit Fld.BR_CFG_USE_PRE c)
  match x.brState b.val with
  | 1 => pre + (if (x.ast.seq.get b).preOk then dc else 0)
  | 2 => dc
  | 3 => dc + main | 4 => dc + main | 5 => dc + main | 6 => dc + main
  | _ => 0

/-- BR_STAT.SO_REQ follows the state. -/
def SecState.soReq (x : SecState) (b : Bridge) : SecState := x.put (Reg.BR_STAT b.val) Fld.BR_STAT_SO_REQ (x.soWant b)

/-- The outputs that the section's bridges request. -/
def SecState.soAll (x : SecState) : BitVec 3 :=
  ([0, 1, 2, 3] : List Bridge).foldl (fun m b => m ||| BitVec.ofNat 3 (x.fld (Reg.BR_STAT b.val) Fld.BR_STAT_SO_REQ)) 0

/-- The permission of a bridge's legs given or taken (R208); a leg that may drive gates from now on is due a precharge
train (R126). -/
def SecState.setPerm (x : SecState) (b : Bridge) (on : Bool) : SecState :=
  (x.brLegs b).foldl (fun x l =>
    let x1 := x.setLeg l { x.lg l with perm := on, permEnds := false }
    (if x.mayDrive l then x1 else x1.startsDriving l).evalLeg l x.now) x

/-- A grid bridge of the section is in CONNECT, RUN or RIDE (R223). -/
def SecState.islArmed (x : SecState) : Bool :=
  ([0, 1, 2, 3] : List Bridge).any (fun b =>
    decide ((x.bridges.get b).kind ≠ 0) && x.flag (Reg.BR_CFG b.val) Fld.BR_CFG_GRID &&
      decide (3 ≤ x.brState b.val) && decide (x.brState b.val ≤ 5))

/-- The check to which a stage of the passive checks belongs: UV 0, OV 1, UF 2, OF 3, ROCOF 4. -/
def stageCheck (i : Nat) : Nat := i / 2

/-- Stage i of the passive checks runs (R223, R224): its check is enabled, and the observer gives its input. -/
def SecState.islRuns (x : SecState) (i : Nat) : Bool :=
  wbit (x.rd Reg.ISL_PCFG) (stageCheck i) && (if i < 4 then decide (x.ast.st.obs.mode ≠ 3) else x.ast.st.obs.valid)

/-- What ends the passive checks or one of them takes its timers back to 0 at once, and ARMED follows the bridges
(R223). -/
def SecState.islSync (x : SecState) : SecState :=
  if x.islArmed then
    let run := (upTo 9).foldl (fun (m : BitVec 9) i => if x.islRuns i then m else m &&& ~~~(BitVec.ofNat 9 (2 ^ i))) x.ast.pasRun
    let act := (upTo 9).foldl (fun m i => if run.getLsbD i then m ||| 2 ^ stageCheck i else m) 0 ||| 32
    ({ x with ast := { x.ast with pasRun := run } } : SecState).wr Reg.ISL_PSTAT
      ((x.rd Reg.ISL_PSTAT &&& (0xFFFFFFC0 ||| natW act)) ||| 0x40)
  else
    ({ x with ast := { x.ast with pasRun := 0 } } : SecState).wr Reg.ISL_PSTAT (x.rd Reg.ISL_PSTAT &&& 0xFFFFFF80)

/-- A bridge enters a state (R204, R205): from STOPPING to OFF its gates end at the next RELOAD of each leg. -/
def SecState.brGo (x : SecState) (b : Bridge) (st : Nat) : SecState :=
  let old := x.brState b.val
  let x1 := ((x.put (Reg.BR_STAT b.val) Fld.BR_STAT_PREV old).put (Reg.BR_STAT b.val) Fld.BR_STAT_STATE st).islSync
  let x2 := (x1.onSeq b (fun q => { q with preOk := false, syncOk := false, syncDone := false, rideOk := false, segs := 0 })).soReq b
  let gates (n : Nat) : Bool := decide (4 ≤ n) && decide (n ≤ 6)
  if old = 6 ∧ st = 0 then
    (x2.brLegs b).foldl (fun x l => x.setLeg l { x.lg l with permEnds := true }) x2
  else if gates old = gates st then x2
  else x2.setPerm b (gates st)

/-- Entry to SAFE (R205, R208): BRIDGE_SAFE, and every leg of the bridge forced as FORCE_CMD.SET does. The forcing
freezes the levels at the balls before the bridge's permission ends, so what is on leaves through the two-step
turn-off. -/
def SecState.brSafe (x : SecState) (b : Bridge) (reason : Nat) : SecState :=
  let x1 := (x.brLegs b).foldl (fun x l => x.force l 4) (x.put (Reg.BR_STAT b.val) Fld.BR_STAT_REASON reason)
  ((x1.brGo b 7).bump (Reg.BR_EVCNT b.val) Fld.BR_EVCNT_SAFE_CNT).pulse (80 + 10 * b.val + 5)

/-- Entry to LOCKOUT. -/
def SecState.brLock (x : SecState) (b : Bridge) (reason : Nat) : SecState :=
  (x.put (Reg.BR_STAT b.val) Fld.BR_STAT_REASON reason).brGo b 8

/-- PRECHARGE to STOPPING: the states that R205's common rows name. -/
def SecState.brLive (x : SecState) (b : Bridge) : Bool :=
  decide (1 ≤ x.brState b.val) && decide (x.brState b.val ≤ 6)

/-- A protection latch (1) or a forcing latch (2) in a leg of the bridge. -/
def SecState.brLatch (x : SecState) (b : Bridge) : Nat :=
  if (x.brLegs b).any (fun l => x.latched l) then 1 else if (x.brLegs b).any (fun l => x.forced l) then 2 else 0

/-- A latch in a leg of a bridge takes it to SAFE (R205); one bridge's forcing may reach the legs of another. -/
def SecState.brLatches (x : SecState) : SecState :=
  ([0, 1, 2, 3, 0, 1, 2, 3] : List Bridge).foldl (fun x b =>
    let r := x.brLatch b
    if decide ((x.bridges.get b).kind ≠ 0) && x.brLive b && decide (r ≠ 0) then x.brSafe b r else x) x

/-- A section stop takes every live bridge to SAFE (R205). -/
def SecState.brStopAll (x : SecState) : SecState :=
  ([0, 1, 2, 3] : List Bridge).foldl (fun x b => if x.brLive b then x.brSafe b 3 else x) x

/-- CONNECT is entered; without a main contactor, or with it closed, RUN follows at once (R205). -/
def SecState.brConnect (x : SecState) (b : Bridge) (closed : BitVec 4) : SecState :=
  let x1 := x.brGo b 3
  if !x.flag (Reg.BR_CFG b.val) Fld.BR_CFG_USE_MAIN || closed.getLsbD 1 then x1.brGo b 4 else x1

/-- A bridge's precharge has qualified (R205, R207): with a DC contactor it is requested and waited for. -/
def SecState.brPreOk (x : SecState) (b : Bridge) (closed : BitVec 4) : SecState :=
  if !x.flag (Reg.BR_CFG b.val) Fld.BR_CFG_USE_DC then x.brGo b 2
  else
    let x1 := (x.onSeq b (fun q => { q with preOk := true })).soReq b
    if closed.getLsbD 0 then x1.brGo b 2 else x1

/-- A contactor is confirmed (R207). -/
def SecState.contactor (x : SecState) (closed : BitVec 4) : SecState :=
  ([0, 1, 2, 3] : List Bridge).foldl (fun x b =>
    if decide (x.brState b.val = 1) && (x.ast.seq.get b).preOk && closed.getLsbD 0 then x.brGo b 2
    else if decide (x.brState b.val = 3) && closed.getLsbD 1 then x.brGo b 4
    else x) x

/-! ### Commands (R206) -/

/-- One command, if the state accepts it: 8 LOCK, 2 STOP, 4 RESET, 1 START. -/
def SecState.brAccept (x : SecState) (b : Bridge) (bit : Nat) : Option SecState :=
  let st := x.brState b.val
  match bit with
  | 8 => if st ≠ 8 then some (x.brLock b 8) else none
  | 2 => if st = 4 ∨ st = 5 then some (x.brGo b 6) else if 1 ≤ st ∧ st ≤ 3 then some (x.brGo b 0) else none
  | 4 => if st = 7 ∧ x.brLatch b = 0 ∧ x.state ≠ 5 then some (x.brGo b 0) else none
  | _ => if st = 0 then some (x.brGo b 1) else none

/-- One BR_CMD write carried out: LOCK first, then STOP, RESET and START, and only the first that the state accepts.
Bit 4 marks a STOP of the safety block, which is no host command (R285). -/
def SecState.brCommand (x : SecState) (b : Bridge) (cmd : Nat) : SecState :=
  let try1 (r : Option SecState) (bit : Nat) : Option SecState :=
    match r with
    | some y => some y
    | none => if cmd &&& bit ≠ 0 then x.brAccept b bit else none
  match try1 (try1 (try1 (try1 none 8) 2) 4) 1 with
  | some y => y
  | none => if cmd < 16 then x.put (Reg.BR_STAT b.val) Fld.BR_STAT_CMD_IGN 1 else x

/-- A command waits for the next tick boundary (R206). A bridge that the sheet does not hold accepts none. -/
def SecState.brQueue (x : SecState) (b : Bridge) (cmd : Nat) : SecState :=
  if cmd % 16 = 0 then x
  else if (x.bridges.get b).kind = 0 then x.put (Reg.BR_STAT b.val) Fld.BR_STAT_CMD_IGN 1
  else x.onSeq b (fun q => { q with cmds := q.cmds ++ [cmd] })

/-- The commands that wait take effect at a tick boundary (R206). -/
def SecState.brTick (x : SecState) : SecState :=
  ([0, 1, 2, 3] : List Bridge).foldl (fun x b =>
    let cs := (x.ast.seq.get b).cmds
    cs.foldl (fun x c => x.brCommand b c) (x.onSeq b (fun q => { q with cmds := [] }))) x

/-- A STOP of the safety block to every bridge (R285). -/
def SecState.brSafeStop (x : SecState) : SecState :=
  ([0, 1, 2, 3] : List Bridge).foldl (fun x b =>
    if (x.bridges.get b).kind = 0 then x else x.onSeq b (fun q => { q with cmds := q.cmds ++ [18] })) x

/-! ### What a commit evaluates (R194, R205, R213, R214) -/

/-- A Q1.15 threshold against an engine word. -/
def geQ (w : W) (t : Nat) : Bool := decide ((t : Int) * 4096 ≤ w.toInt)

/-- A word above a Q1.15 threshold. -/
def gtQ (w : W) (t : Nat) : Bool := decide ((t : Int) * 4096 < w.toInt)

/-- The voltages lie within the exit limits of ride-through. -/
def SecState.withinExit (x : SecState) (b : Nat) : Bool :=
  let o := x.ast.st.obs
  geQ o.oLo (x.fld (Reg.BR_RIDE0 b) Fld.BR_RIDE0_LV_EXIT) && !gtQ o.oHi (x.fld (Reg.BR_RIDE1 b) Fld.BR_RIDE1_HV_EXIT)

/-- V_HI above HV_MAX at a commit (R214), in every state of a bridge that has ride-through limits
(notes/assumptions/38.md). -/
def SecState.brHvMax (x : SecState) (b : Bridge) : SecState :=
  if x.flag (Reg.BR_CFG b.val) Fld.BR_CFG_RIDE_EN &&
      gtQ x.ast.st.obs.oHi (x.fld (Reg.BR_RIDE2 b.val) Fld.BR_RIDE2_HV_MAX) then x.pulse (80 + 10 * b.val + 1) else x

/-- The timers of R214 that run. -/
def SecState.brRide (x : SecState) (b : Bridge) : SecState :=
  let o := x.ast.st.obs
  let low (k : Nat) : Nat := b2n (!geQ o.oLo (x.fld (Reg.BR_LVSEG b.val k) Fld.BR_LVSEG_VTH))
  let hv := b2n (gtQ o.oHi (x.fld (Reg.BR_RIDE1 b.val) Fld.BR_RIDE1_HV_ENTER))
  let segs := BitVec.ofNat 5 (low 0 + 2 * low 1 + 4 * low 2 + 8 * low 3 + 16 * hv)
  x.onSeq b (fun q => { q with segs := segs, rideOk := x.withinExit b.val })

/-- One bridge at a commit. -/
def SecState.brCommit (x : SecState) (b : Bridge) (fell : Bool) (closed : BitVec 4) : SecState :=
  let c := x.rd (Reg.BR_CFG b.val)
  let o := x.ast.st.obs
  let a := x.ast.st.br.get b
  let grid := fbit Fld.BR_CFG_GRID c
  if x.brLive b && fell && grid && !fbit Fld.BR_CFG_GFM c then x.brSafe b 6
  else
    match x.brState b.val with
    | 1 =>
      let p := x.rd (Reg.BR_PRE b.val)
      if (x.ast.seq.get b).preOk then x
      else if geQ a.vdc (fget Fld.BR_PRE_PRE_V p) &&
          (!fbit Fld.BR_CFG_IPRE_EN c || !gtQ a.ipre (fget Fld.BR_PRE_PRE_I p)) then x.brPreOk b closed
      else x
    | 2 =>
      if !grid then (if x.enabled then x.brConnect b closed else x)
      else
        let ok := o.valid && x.withinExit b.val
        let done := ok && ((x.ast.seq.get b).syncDone || decide (x.fld (Reg.BR_TIME1 b.val) Fld.BR_TIME1_SYNC_T = 0))
        let x1 := x.onSeq b (fun q => { q with syncOk := ok, syncDone := done })
        if done && x.enabled then x1.brConnect b closed else x1
    | 4 =>
      if fbit Fld.BR_CFG_RIDE_EN c &&
          (!geQ o.oLo (x.fld (Reg.BR_RIDE0 b.val) Fld.BR_RIDE0_LV_ENTER) ||
            gtQ o.oHi (x.fld (Reg.BR_RIDE1 b.val) Fld.BR_RIDE1_HV_ENTER)) then
        (((x.brGo b 5).pulse (80 + 10 * b.val)).bump (Reg.BR_EVCNT b.val) Fld.BR_EVCNT_RIDE_CNT).brRide b
      else x
    | 5 =>
      if x.withinExit b.val && decide (x.fld (Reg.BR_RIDEX b.val) Fld.BR_RIDEX_RIDE_HOLD = 0) then x.brGo b 4
      else x.brRide b
    | 6 =>
      let lim : Int := x.fld (Reg.BR_PO2 b.val) Fld.BR_PO2_STOP_I * 2 ^ 40
      if a.cur1.all (fun i => decide ((i.natAbs : Int) ≤ lim)) then x.brGo b 0 else x
    | _ => x

/-- The results of a commit shown in the registers of the block (R196, R200 to R202, R218 to R220). -/
def SecState.asstRegs (x : SecState) : SecState :=
  let o := x.ast.st.obs
  let x1 := (((x.put Reg.GRID_STAT Fld.GRID_STAT_MODE o.mode).putB Reg.GRID_STAT Fld.GRID_STAT_VALID o.valid).put
    Reg.GRID_STAT Fld.GRID_STAT_QUAL o.qual)
  let x2 := (((((x1.wr Reg.GRID_ANGLE o.oTheta).wr Reg.GRID_FREQ o.oW).wr Reg.GRID_ROCOF o.oRocof).wr Reg.GRID_VPOS
    o.oPos).wr Reg.GRID_VNEG o.oNeg).wr Reg.GRID_RES o.oRes
  ([0, 1, 2, 3] : List Bridge).foldl (fun x b =>
    let a := x.ast.st.br.get b
    if (x.bridges.get b).kind = 0 then x
    else
      ((((((x.wr (Reg.BR_P b.val) a.p1).wr (Reg.BR_Q b.val) a.q1).wr (Reg.BR_VDC b.val) a.vdc).wr (Reg.BR_MPPT_V b.val)
        (intW a.vref)).put (Reg.BR_STAT b.val) Fld.BR_STAT_MPPT a.flags.toNat).put (Reg.BR_STAT b.val)
          Fld.BR_STAT_FAILED a.failed.toNat)) x2

/-- The events of an update become visible at its commit: the observer's counters and sources. -/
def SecState.asstEvents (x : SecState) : SecState :=
  let o := x.ast.st.obs
  let x1 := if o.ev.getLsbD 0 then x.bump Reg.GRID_EVCNT Fld.GRID_EVCNT_HOLD_CNT else x
  let x2 := if o.ev.getLsbD 1 then x1.bump Reg.GRID_EVCNT Fld.GRID_EVCNT_LOST_CNT else x1
  let x3 := if o.ev.getLsbD 2 then (x2.bump Reg.GRID_EVCNT Fld.GRID_EVCNT_PJ_CNT).pulse 65 else x2
  ([0, 1, 2, 3] : List Bridge).foldl (fun x b =>
    let a := x.ast.st.br.get b
    if (x.bridges.get b).kind = 0 then x
    else
      let n := x.fld (Reg.BR_EVCNT b.val) Fld.BR_EVCNT_CUR_FLT + a.newF
      let x1 := x.put (Reg.BR_EVCNT b.val) Fld.BR_EVCNT_CUR_FLT (min 255 n)
      let x2 := if a.ev.getLsbD 0 then x1.pulse (80 + 10 * b.val + 6) else x1
      let x3 := if a.ev.getLsbD 1 then x2.pulse (80 + 10 * b.val + 7) else x2
      if a.ev.getLsbD 2 then x3.pulse (80 + 10 * b.val + 8) else x3) x3

/-- VALID as the sequencers see it (R205, R222): its fall raises GRID_LOST. -/
def SecState.validEdge (x : SecState) : SecState × Bool :=
  let v := x.ast.st.obs.valid
  let fell := x.ast.validSeen && !v
  let x1 : SecState := { x with ast := { x.ast with validSeen := v } }
  (if fell then x1.pulse 64 else x1, fell)

/-- The assist at a successful commit (R194, R203): its pending state is committed and shown, the angle record is
published, and the sequencers are evaluated. -/
def SecState.asstCommit (x : SecState) (closed : BitVec 4) : SecState :=
  let x1 : SecState := { x with ast := { x.ast with st := x.ast.pend.getD x.ast.st, pend := none } }
  let fresh := x.ast.pend.isSome
  let x2 := if fresh then x1.asstEvents.asstRegs else x1
  let o := x2.ast.st.obs
  let x3 : SecState := { x2 with ast := { x2.ast with
    angle := ⟨o.oTheta, o.oW, x2.eng.tin.timeNs, o.valid && !x2.eng.tin.inv⟩ } }
  let (x4, fell) := x3.validEdge
  ([0, 1, 2, 3] : List Bridge).foldl (fun x b =>
    if (x.bridges.get b).kind = 0 then x else (x.brCommit b fell closed).brHvMax b) x4

/-! ### Timeouts and other events -/

/-- PRE_T expires in PRECHARGE (R205). -/
def SecState.preTimeout (x : SecState) (b : Bridge) : SecState :=
  if x.brState b.val = 1 then (x.pulse (80 + 10 * b.val + 2)).brLock b 7 else x

/-- CONN_T expires in CONNECT (R205). -/
def SecState.connTimeout (x : SecState) (b : Bridge) : SecState :=
  if x.brState b.val = 3 then ((x.pulse (80 + 10 * b.val + 3)).brSafe b 4).brLatches else x

/-- STOP_T expires in STOPPING (R205). -/
def SecState.stopTimeout (x : SecState) (b : Bridge) : SecState :=
  if x.brState b.val = 6 then ((x.pulse (80 + 10 * b.val + 4)).brSafe b 5).brLatches else x

/-- SYNC_T has elapsed with the conditions of SYNC held at every commit (R205). -/
def SecState.syncQualified (x : SecState) (b : Bridge) (closed : BitVec 4) : SecState :=
  if decide (x.brState b.val = 2) && (x.ast.seq.get b).syncOk then
    if x.enabled then x.brConnect b closed else x.onSeq b (fun q => { q with syncDone := true })
  else x

/-- RIDE_HOLD has elapsed within the exit limits (R205). -/
def SecState.rideHold (x : SecState) (b : Bridge) : SecState :=
  if decide (x.brState b.val = 5) && (x.ast.seq.get b).rideOk then x.brGo b 4 else x

/-- A ride-through timer exceeds its limit (R214). -/
def SecState.rideLimit (x : SecState) (b : Bridge) : SecState :=
  if decide (x.brState b.val = 5) && decide ((x.ast.seq.get b).segs ≠ 0) then x.pulse (80 + 10 * b.val + 1) else x

/-- PER triggers have been averaged: one step of the MPPT unit (R211). A run in progress takes it into its pending
state. -/
def SecState.mpptInterval (x : SecState) (b : Bridge) (fc : Nat) : SecState :=
  let a := x.ast.st.br.get b
  if x.mpptHeld b.val || decide (a.mn = 0) || decide (a.mt < x.fld (Reg.BR_MPPT2 b.val) Fld.BR_MPPT2_PER) then x
  else
    let (a1, lim) := a.mpptStep x b.val fc
    let pend := x.ast.pend.map (fun p =>
      let c := p.br.get b
      { p with br := p.br.set b { c with
        mv := c.mv - a.mv, mi := c.mi - a.mi, mn := c.mn - a.mn, mt := c.mt - a.mt, mvPrev := a1.mvPrev
        miPrev := a1.miPrev, mrec := false, vref := a1.vref, flags := a1.flags } })
    let x1 : SecState := { x with ast := { x.ast with st := { x.ast.st with br := x.ast.st.br.set b a1 }, pend := pend } }
    let x2 := (x1.wr (Reg.BR_MPPT_V b.val) (intW a1.vref)).put (Reg.BR_STAT b.val) Fld.BR_STAT_MPPT a1.flags.toNat
    if lim then x2.bump (Reg.BR_EVCNT b.val) Fld.BR_EVCNT_MPPT_LIM else x2

/-- No valid Dorlin frame for THERM_T ms (R216). -/
def SecState.thermLost (x : SecState) (b : Bridge) : SecState :=
  if (x.bridges.get b).kind = 0 then x
  else (x.put (Reg.BR_STAT b.val) Fld.BR_STAT_THERM_OK 0).pulse (80 + 10 * b.val + 9)

/-- HOLD has lasted HOLD_MAX ms (OBSERVER_HOLD_TIMEOUT, R200). The sequencers see VALID fall at the next commit. -/
def SecState.holdTimeout (x : SecState) : SecState :=
  if x.ast.st.obs.mode ≠ 1 then x
  else
    let o : Obs := { x.ast.st.obs.holdTimeout with ev := 0 }
    let pend := x.ast.pend.map (fun p => { p with obs := { p.obs.holdTimeout with ev := p.obs.ev } })
    let x1 : SecState := { x with ast := { x.ast with st := { x.ast.st with obs := o }, pend := pend } }
    (((x1.bump Reg.GRID_EVCNT Fld.GRID_EVCNT_LOST_CNT).put Reg.GRID_STAT Fld.GRID_STAT_MODE 2).put Reg.GRID_STAT
      Fld.GRID_STAT_VALID 0 |>.put Reg.GRID_STAT Fld.GRID_STAT_QUAL 0).islSync

/-- A refused write of a bridge register, shown at the bridge and at the block (R198, R213). -/
def SecState.brRef (x : SecState) (b : Nat) : SecState :=
  (x.put (Reg.BR_STAT b) Fld.BR_STAT_CFG_REF 1).put Reg.GRID_STAT Fld.GRID_STAT_CFG_REF 1

/-- A software write to the grid assist block below offset 0x0800 (R198, R202, R206, R213). EN = 0 turns the observer
off at once. -/
def SecState.asstWrite (x : SecState) (o : Nat) (r : RegRow) (isOpen : Bool) (v : W) : SecState :=
  let m := r.merge isOpen (x.rd o) v
  let y := x.wr o m
  if o = Reg.GRID_CFG then
    if !y.gridCfgOk then x.put Reg.GRID_STAT Fld.GRID_STAT_CFG_REF 1
    else if y.gridOn then y
    else
      let z : SecState := { y with ast := { y.ast with
        st := { y.ast.st with obs := {} }, pend := y.ast.pend.map (fun p => { p with obs := {} }) } }
      z.asstRegs.islSync
  else if o = Reg.GRID_BW then (if gridBwOk m then y else x.put Reg.GRID_STAT Fld.GRID_STAT_CFG_REF 1)
  else
    let b := (o - 0x70100) / 0x100
    let k := (o - 0x70100) % 0x100
    if o < 0x70100 then y
    else if k = 0 then (if y.rideOk b && y.isrcOk b then y.islSync else x.brRef b)
    else if k = 4 then (if y.isrcOk b then y else x.brRef b)
    else if 0x1C ≤ k ∧ k ≤ 0x24 then (if y.rideOk b then y else x.brRef b)
    else y

end Sys2Proof.Machine
end

