-- ==== Sys2Proof/Machine/Island.lean ====
section
/-! DEFINITION. Islanding detection (R223 to R235): the passive checks of a section, and the correlator of the device
with its code, chips, response window and verdict. -/

namespace Sys2Proof.Machine

/-! ### Passive checks (R223, R224) -/

/-- The threshold word of stage i of the checks with a time, in the order of the registers. -/
def SecState.islTh (x : SecState) (i : Nat) : W := x.rd (Reg.ISL_UV0 + 4 * i)

/-- The condition of stage i (R224). -/
def SecState.islCond (x : SecState) (i : Nat) : Bool :=
  let o := x.ast.st.obs
  let th := (x.islTh i).toNat % 65536
  x.islRuns i &&
    (match stageCheck i with
     | 0 => !geQ o.oLo th | 1 => gtQ o.oHi th | 2 => !geQ o.oW th | 3 => gtQ o.oW th
     | _ => gtQ (intW o.oRocof.toInt.natAbs) th)

/-- A check trips (R224, R235): its TRIP bit and its source. -/
def SecState.islTrip (x : SecState) (n : Nat) : SecState :=
  (x.wr Reg.ISL_PSTAT (x.rd Reg.ISL_PSTAT ||| natW (2 ^ (8 + n)))).pulse (66 + n)

/-- The vector shift of the tick exceeds its threshold (R224); it is measured in TRACK with VALID 1 (R202). -/
def SecState.islShift (x : SecState) : Bool :=
  let o := x.ast.st.obs
  let th := x.fld Reg.ISL_VS Fld.ISL_VS_VS_TH
  wbit (x.rd Reg.ISL_PCFG) 5 && o.valid && decide (th ≠ 0) && decide (th * 65536 < o.oVs.toInt.natAbs)

/-- The passive checks at a commit (R223, R224). -/
def SecState.islCommit (x : SecState) : SecState :=
  if !x.islArmed then x.islSync
  else
    let run := (upTo 9).foldl (fun (m : BitVec 9) i => if x.islCond i then m ||| BitVec.ofNat 9 (2 ^ i) else m) 0
    let act := (upTo 9).foldl (fun m i => if run.getLsbD i then m ||| 2 ^ stageCheck i else m) 0 |||
      (if x.islShift then 32 else 0)
    let trips := (upTo 9).foldl (fun m i =>
      if run.getLsbD i && !x.ast.pasRun.getLsbD i && decide ((x.islTh i).toNat / 65536 = 0) then m ||| 2 ^ stageCheck i
      else m) 0 ||| (if x.islShift then 32 else 0)
    let y : SecState := { x with ast := { x.ast with pasRun := run } }
    let z := y.wr Reg.ISL_PSTAT ((y.rd Reg.ISL_PSTAT &&& 0xFFFFFF80) ||| 0x40 ||| natW act)
    (upTo 6).foldl (fun z n => if Nat.testBit trips n then z.islTrip n else z) z

/-- The timer of a check exceeds its time (PASSIVE_TRIP, R224). -/
def SecState.passiveTrip (x : SecState) (n : Nat) : SecState :=
  if x.flag Reg.ISL_PSTAT Fld.ISL_PSTAT_ARMED && decide (n < 5) &&
      (upTo 9).any (fun i => decide (stageCheck i = n) && x.ast.pasRun.getLsbD i) then x.islTrip n
  else x

/-- A software write of a passive register (R224): a threshold on the wrong side of 1.0 pu is refused. -/
def SecState.passiveWrite (x : SecState) (o : Nat) (r : RegRow) (isOpen : Bool) (v : W) : SecState :=
  let m := r.merge isOpen (x.rd o) v
  let th := m.toNat % 65536
  let i := (o - Reg.ISL_UV0) / 4
  let bad := decide (Reg.ISL_UV0 ≤ o) && decide (i < 8) &&
    (if stageCheck i % 2 = 0 then decide (0x8000 ≤ th) else decide (th ≤ 0x8000))
  if bad then x.put Reg.ISL_PSTAT Fld.ISL_PSTAT_CFG_REF 1
  else if o = Reg.ISL_PCFG then (x.wr o m).islSync
  else x.wr o m

/-! ### The code (R227) -/

/-- The bits of a sequence of length n from six bits by a feedback on the last six. -/
def lfsr (fb : List Bool → Bool) : Nat → List Bool → List Bool
  | 0, _ => []
  | n + 1, s => (s.headD false) :: lfsr fb n (s.tail ++ [fb s])

/-- u: x^6 + x + 1. -/
def seqU : List Bool := lfsr (fun s => (s.getD 1 false) ^^ (s.getD 0 false)) 63 (List.replicate 6 true)

/-- v: x^6 + x^5 + x^2 + x + 1. -/
def seqV : List Bool :=
  lfsr (fun s => (s.getD 5 false) ^^ (s.getD 2 false) ^^ (s.getD 1 false) ^^ (s.getD 0 false)) 63 (List.replicate 6 true)

/-- Chip n of code j. -/
def codeBit (j n : Nat) : Bool :=
  match j with
  | 0 => seqU.getD n false
  | 1 => seqV.getD n false
  | _ => (seqU.getD n false) ^^ (seqV.getD ((n + j - 2) % 63) false)

/-- The bits of a code from chip lo on, in a word of n bits. -/
def codeWord (j lo n : Nat) : W := (upTo n).foldl (fun (m : W) i => if codeBit j (lo + i) then m ||| natW (2 ^ i) else m) 0

/-! ### The correlator (R226 to R234) -/

/-- A register of the correlator, by window offset. -/
def Dev.islRd (d : Dev) (o : Nat) : W := Tbl.get secReset d.isl.regs o

/-- A register of the correlator replaced. -/
def Dev.islWr (d : Dev) (o : Nat) (v : W) : Dev := { d with isl := { d.isl with regs := Tbl.set secReset d.isl.regs o v } }

/-- A field of a register of the correlator. -/
def Dev.islFld (d : Dev) (o : Nat) (f : Field) : Nat := fget f (d.islRd o)

/-- A field of a register of the correlator replaced. -/
def Dev.islPut (d : Dev) (o : Nat) (f : Field) (v : Nat) : Dev := d.islWr o (fput f (d.islRd o) v)

/-- A counter of ISL_EVCNT. -/
def Dev.islBump (d : Dev) (f : Field) : Dev := d.islPut Reg.ISL_EVCNT f (satInc 255 (d.islFld Reg.ISL_EVCNT f))

/-- Whether a host port claims a section (R355): from the end of base boot, with its strap set. -/
def Dev.claimed (d : Dev) (s : Sec) : Bool := d.portCompat s.val && decide (d.devState ≠ 1)

/-- A section window that does not answer: OFF, REJECTED, or the section PLL relocks in STOPPED (R22, R66). -/
def Dev.secDead (d : Dev) (s : Sec) : Bool :=
  decide (d.secSt s = 0) || decide (d.secSt s = 2) || (decide (d.secSt s = 6) && (d.pll (1 + s.val)).relock)

/-- The section that the ISLAND record names. -/
def Dev.islSec (d : Dev) : Sec := ⟨d.islFld Reg.ISL_INFO Fld.ISL_INFO_ANGLE_SEC % 4, by omega⟩

/-- The angle section in use. -/
def Dev.islSrc (d : Dev) : Sec := ⟨d.islFld Reg.ISL_INFO Fld.ISL_INFO_SRC % 4, by omega⟩

/-- The correlator is on (R226, R370): an ISLAND record, and bridge B0 in its angle section, which is not claimed. -/
def Dev.islOn (d : Dev) : Bool :=
  d.isl.present && decide (((d.sc d.islSec).bridges.get 0).kind ≠ 0) && !d.claimed d.islSec

/-- A section can give the grid angle (R11, R370). -/
def Dev.angleOk (d : Dev) (s : Sec) : Bool :=
  (decide (d.secSt s = 3) || decide (d.secSt s = 4)) && (d.sc s).ast.st.obs.valid && !d.claimed s

/-- The section that gives the angle for a user that names a section (R11); with none able to, the last stays. -/
def Dev.angleFor (d : Dev) (named last : Sec) : Sec :=
  if d.angleOk named then named
  else (([0, 1, 2, 3] : List Sec).find? d.angleOk).getD last

/-- What a read of a correlator register returns: PRESENT is a view. -/
def Dev.islView (d : Dev) (o : Nat) : W :=
  if o = Reg.ISL_INFO then fput Fld.ISL_INFO_PRESENT (d.islRd o) (b2n d.islOn) else d.islRd o

/-- The amplitude A in Q5.27 (R230). -/
def Dev.islA (d : Dev) : Nat := divRound (d.islFld Reg.ISL_INFO Fld.ISL_INFO_AMPL * 2 ^ 27) 10000

/-- The chip value c of an index. -/
def Dev.chipC (d : Dev) (k : Nat) : Int := if codeBit (d.islFld Reg.ISL_INFO Fld.ISL_INFO_CODE) k then -1 else 1

/-- A bridge of a section injects (R230). -/
def Dev.injects (d : Dev) (s : Sec) (b : Bridge) : Bool :=
  let x := d.sc s
  d.islOn && decide ((x.bridges.get b).kind ≠ 0) && x.flag (Reg.BR_CFG b.val) Fld.BR_CFG_GRID &&
    decide (x.brState b.val = 4) && decide (d.islFld Reg.ISL_CFG Fld.ISL_CFG_HOLD = 0)

/-- An islanding item 0x60 to 0x65 of context c (R230). -/
def Dev.islItem (d : Dev) (s : Sec) (c sel : Nat) : W :=
  let x := d.sc s
  let k := x.eng.tin.chip
  match sel with
  | 0x60 => if d.injects s ⟨c % 4, by omega⟩ then intW (d.chipC k * d.islA) else 0
  | 0x61 => natW k
  | 0x62 => d.islRd Reg.ISL_Z32
  | 0x63 => natW (d.islFld Reg.ISL_STAT Fld.ISL_STAT_ACT_VALID)
  | 0x64 => natW (x.fld Reg.ISL_PSTAT Fld.ISL_PSTAT_ACTIVE)
  | _ => (x.ast.pend.getD x.ast.st).obs.oVs

/-- I_BASE of a bridge over that of the angle bridge times a quantity (R231). -/
def Dev.inAngleBase (d : Dev) (s : Sec) (b : Bridge) (v : Int) : Int :=
  let ia := ((d.sc d.islSec).bridges.get 0).iBase
  if ia = 0 then Config.unstated d.freeCount v 0 else v * ((d.sc s).bridges.get b).iBase / (ia : Int)

/-- The response record that a commit of section s sends (R231). -/
def Dev.islRecord (d : Dev) (s : Sec) : Dev :=
  if !d.islOn then d
  else
    let x := d.sc s
    let o := x.ast.st.obs
    let inj := ([0, 1, 2, 3] : List Bridge).filter (d.injects s)
    let iq (b : Bridge) : Int :=
      let q := (x.ast.st.br.get b).q1.toInt * 2 ^ 21
      let v := o.oPos.toInt * 2 ^ 21
      d.inAngleBase s b (if v = 0 then Config.unstated d.freeCount q v else fxDiv q v)
    let r : IslRec := {
      sec := s.val, chip := x.eng.tin.chip
      i := (inj.map iq).foldl (· + ·) 0
      areq := (inj.map (fun b => d.inAngleBase s b ((d.islA : Int) * 2 ^ 21))).foldl (· + ·) 0
      ride := ([0, 1, 2, 3] : List Bridge).any (fun b => decide (x.brState b.val = 5))
      vpos := o.oPos.toInt * 2 ^ 21
      psi := fxMul (2 * fxPi) (fxMul (o.oW.toInt * 2 ^ 21 - fx1) (x.gridStep * x.fNom))
      valid := o.valid }
    { d with isl := { d.isl with recs := d.isl.recs ++ [r] } }

/-- The correlation sums of a window for one quantity: the determinant over which its gamma stands (R232). `ks` are
the chips, oldest first. -/
def gammaNum (ks : List IslChip) (f : IslChip → Int) : Int :=
  let kx := (upTo ks.length).zip ks
  let s (g : Nat → IslChip → Int) : Int := (kx.map (fun p => g (p.1 + 1) p.2)).foldl (· + ·) 0
  let n : Int := ks.length
  let sk := s (fun k _ => k)
  let sc := s (fun _ q => q.c)
  let skk := s (fun k _ => (k : Int) * k)
  let skc := s (fun k q => (k : Int) * q.c)
  let sx := s (fun _ q => f q)
  let skx := s (fun k q => (k : Int) * f q)
  let scx := s (fun _ q => q.c * f q)
  n * (skk * scx - skx * skc) - sk * (sk * scx - skx * sc) + sx * (sk * skc - skk * sc)

/-- One estimate from the last chips (R232): zd, zq and their magnitude in 2^-48 pu, none below A_req / 4. -/
def estimate (ks : List IslChip) (areq : Int) (fc : Nat) : Option (Int × Int × Int) :=
  let gi := gammaNum ks (fun q => q.i)
  let det := gammaNum ks (fun q => q.c)
  if det = 0 then
    let zd := Config.unstated fc gi 0
    let zq := Config.unstated (fc + 1) gi 0
    some (zd, zq, fxMag zd zq)
  else if 4 * gi < areq * det then none
  else if gi = 0 then
    let zd := Config.unstated fc 0 det
    let zq := Config.unstated (fc + 1) 0 det
    some (zd, zq, fxMag zd zq)
  else
    let zd := gammaNum ks (fun q => q.m) * fx1 / gi
    let zq := gammaNum ks (fun q => q.psi) * fx1 / gi
    some (zd, zq, fxMag zd zq)

/-- The window is emptied (R233). -/
def Dev.islRestart (d : Dev) : Dev :=
  let d1 : Dev := { d with isl := { d.isl with win := [], conf := 0 } }
  (d1.islWr Reg.ISL_STAT (d1.islRd Reg.ISL_STAT &&& 0xFFFF80F8)).islBump Fld.ISL_EVCNT_RESTART

/-- Z32 lies at or above THRESHOLD. -/
def Dev.islHigh (d : Dev) : Bool := decide ((d.islRd Reg.ISL_THRESH).toInt ≤ (d.islRd Reg.ISL_Z32).toInt)

/-- The verdict after a chip close (R234). `high` tells that the close has an estimate at or above THRESHOLD; a close
without one resets the count, and VERDICT clears where Z32 itself lies below it. -/
def Dev.islVerdict (d : Dev) (high : Bool) : Dev :=
  if !high then
    let d1 : Dev := { d with isl := { d.isl with conf := 0 } }
    if d1.islHigh then d1 else d1.islPut Reg.ISL_STAT Fld.ISL_STAT_VERDICT 0
  else if d.islFld Reg.ISL_STAT Fld.ISL_STAT_ACT_VALID = 0 ∨ d.islFld Reg.ISL_CFG Fld.ISL_CFG_HOLD ≠ 0 then d
  else
    let n := d.isl.conf + 1
    let d1 : Dev := { d with isl := { d.isl with conf := n } }
    if d.islFld Reg.ISL_CFG Fld.ISL_CFG_CONF ≤ n ∧ d.islFld Reg.ISL_STAT Fld.ISL_STAT_VERDICT = 0 then
      ([0, 1, 2, 3] : List Sec).foldl (fun d s =>
        if ([0, 1, 2, 3] : List Bridge).any (d.injects s) then d.onSec s (·.pulse 72) else d)
        ((d1.islPut Reg.ISL_STAT Fld.ISL_STAT_VERDICT 1).islBump Fld.ISL_EVCNT_VERDICTS)
    else d1

/-- An included chip taken into the window, with the estimates and the verdict at its close (R231 to R234). -/
def Dev.islInclude (d : Dev) (ch : IslChip) (areq : Int) : Dev :=
  let win := (ch :: d.isl.win).take 63
  let fill := min 63 (d.islFld Reg.ISL_STAT Fld.ISL_STAT_FILL + 1)
  let full := b2n (decide (fill = 63))
  let d1 : Dev := { d with isl := { d.isl with win := win } }
  let d2 := ((d1.islPut Reg.ISL_STAT Fld.ISL_STAT_FILL fill).islPut Reg.ISL_STAT Fld.ISL_STAT_ACT_VALID full).islPut
    Reg.ISL_STAT Fld.ISL_STAT_Z63_VALID full
  let fc := d.freeCount
  let d3 := { d2 with freeCount := fc + 16 }
  let e32 := if win.length < 32 then none else estimate (win.take 32).reverse areq fc
  let d4 := match e32 with
    | none => d3
    | some (zd, zq, z) =>
      ((d3.islWr Reg.ISL_ZD (pubFree (fc + 4) zd)).islWr Reg.ISL_ZQ (pubFree (fc + 5) zq)).islWr Reg.ISL_Z32 (pubFree (fc + 6) z)
  let d5 := match (if win.length < 63 then none else estimate win.reverse areq (fc + 8)) with
    | none => d4
    | some (_, _, z) => d4.islWr Reg.ISL_Z63 (pubFree (fc + 12) z)
  d5.islVerdict (e32.isSome && d5.islHigh)

/-- A mean of a list. -/
def meanInt (l : List Int) : Int := if l.length = 0 then 0 else l.foldl (· + ·) 0 / (l.length : Int)

/-- The running sum of the angle steps of a chip. -/
def runSum : Int → List Int → List Int
  | _, [] => []
  | a, x :: t => (a + x) :: runSum (a + x) t

/-- The records of a closed chip evaluated (R231): excluded, included, or the window restarted. -/
def Dev.islEval (d : Dev) (k : Nat) : Dev :=
  let rs := d.isl.recs.filter (fun r => decide (r.chip = k))
  let ang := rs.filter (fun r => decide (r.sec = d.islSrc.val))
  let ticks := Tbl.get (fun _ => 0) d.isl.ticks k
  let psis := runSum d.isl.psi (ang.map (·.psi))
  let bySec (f : IslRec → Int) : Int :=
    (upTo 4).foldl (fun a s => a + meanInt ((rs.filter (fun r => decide (r.sec = s))).map f)) 0
  let areq := bySec (·.areq)
  let none4 := rs.all (fun r => decide (r.areq = 0))
  let excl := rs.any (·.ride) || ang.isEmpty || ang.any (fun r => !r.valid) || none4 || decide (2 * ang.length < ticks)
  let d1 : Dev := { d with isl := { d.isl with
    recs := d.isl.recs.filter (fun r => decide (r.chip ≠ k)), psi := psis.getLastD d.isl.psi, ticks := Tbl.erase k d.isl.ticks } }
  let d2 :=
    if excl then (d1.islBump Fld.ISL_EVCNT_EXCL).islVerdict false
    else d1.islInclude ⟨meanInt (ang.map (·.vpos)), meanInt psis, bySec (·.i), d.chipC k⟩ areq
  if none4 then d2.islRestart else d2

/-- Chip k begins (R227). -/
def Dev.islChip (d : Dev) (k : Nat) : Dev :=
  d.islWr Reg.ISL_CHIP (natW (2 * k + b2n (codeBit (d.islFld Reg.ISL_INFO Fld.ISL_INFO_CODE) k)))

/-- FREE mode is entered (R229); ISL_FREE is raised at the entry. -/
def Dev.islFree (d : Dev) : Dev :=
  let d1 : Dev := { d with isl := { d.isl with toFree := false } }
  if d1.islFld Reg.ISL_STAT Fld.ISL_STAT_FREE = 1 then d1
  else ((d1.islPut Reg.ISL_STAT Fld.ISL_STAT_FREE 1).islPut Reg.ISL_STAT Fld.ISL_STAT_ALIGNED 0).pulse 27

/-- ALIGNED mode is entered at T0 with chip 0 (R228, R233). -/
def Dev.islAlign (d : Dev) : Dev :=
  let d1 : Dev := { d with isl := { d.isl with
    toAligned := false, toFree := false, recs := [], ticks := [], closing := none, base := d.isl.toBase, n := 0 } }
  let d2 := ((d1.islPut Reg.ISL_STAT Fld.ISL_STAT_FREE 0).islPut Reg.ISL_STAT Fld.ISL_STAT_ALIGNED 1).islPut Reg.ISL_STAT
    Fld.ISL_STAT_JUMP 0
  d2.islRestart.islChip 0

/-- Chips follow network time: ALIGNED, and nothing has happened that leads to FREE (R228, R229). -/
def Dev.islTimed (d : Dev) : Bool :=
  decide (d.islFld Reg.ISL_STAT Fld.ISL_STAT_ALIGNED = 1) && !d.isl.toFree && !d.timeInv

/-- An accepted T0 has come (R228). -/
def Dev.islDue (d : Dev) : Bool := d.isl.toAligned && !d.timeInv && decide (d.isl.toBase ≤ d.timeNs)

/-- The number of the chip whose span contains T on the grid from `base` (R228): the greatest n with
T0 + floor(n · 10^9 / f_nom) not after T. -/
def Dev.islNow (d : Dev) (base : Nat) : Nat := ((d.timeNs - base + 1) * (d.sc d.islSec).fNom - 1) / 1000000000

/-- The chip index that a tick starting now uses (R230). -/
def Dev.islTickChip (d : Dev) : Nat :=
  if d.islDue then d.islNow d.isl.toBase % 63 else if d.islTimed then d.islNow d.isl.base % 63 else d.islFld Reg.ISL_CHIP Fld.ISL_CHIP_K

/-- A run in progress still uses chip k, so its record may come (R231, R232). -/
def Dev.islBusy (d : Dev) (k : Nat) : Bool :=
  ([0, 1, 2, 3] : List Sec).any (fun s => (d.sc s).eng.run.isSome && decide ((d.sc s).eng.tin.chip = k))

/-- A closed chip is evaluated once its last record is there (R232), or at the latest at the next close. -/
def Dev.islSettle (d : Dev) (late : Bool) : Dev :=
  match d.isl.closing with
  | some k => if late || !d.islBusy k then ({ d with isl := { d.isl with closing := none } } : Dev).islEval k else d
  | none => d

/-- A section's θ has passed 0 in its committed tick (R11): where it is now the one to give the angle, the correlator
takes it from here, which restarts the window (R233). -/
def Dev.islTurn (d : Dev) (s : Sec) : Dev :=
  if d.islOn && (d.sc s).ast.st.obs.wrap && decide (d.angleFor d.islSec d.islSrc = s) && decide (d.islSrc ≠ s) then
    (d.islPut Reg.ISL_INFO Fld.ISL_INFO_SRC s.val).islRestart
  else d

/-- A chip closes (CHIP_CLOSE, R228 to R234): it is evaluated with its last record, and the next chip begins, in the
mode that holds from this boundary on. While chips follow network time, the boundary of the open chip or an accepted
T0 has to have come. -/
def chipClose (d : Dev) : Dev :=
  if !d.islOn || (d.islTimed && !d.islDue && decide (d.islNow d.isl.base ≤ d.isl.n)) then d
  else
    let k := d.islFld Reg.ISL_CHIP Fld.ISL_CHIP_K
    let d0 := d.islSettle true
    let d1 := ({ d0 with isl := { d0.isl with closing := some k } } : Dev).islSettle false
    let n := d1.islNow d1.isl.base
    if d1.islDue then d1.islAlign
    else if d1.islTimed then ({ d1 with isl := { d1.isl with n := n } } : Dev).islChip (n % 63)
    else
      let d2 := if d1.isl.toFree || d1.timeInv then d1.islFree else d1
      d2.islChip ((k + 1) % 63)

/-- The network time jumped (R229): FREE from the next chip boundary, and ISL_STAT.JUMP. -/
def Dev.islJump (d : Dev) : Dev :=
  ({ d with isl := { d.isl with toFree := true, toAligned := false } } : Dev).islPut Reg.ISL_STAT Fld.ISL_STAT_JUMP 1

/-- A write of ISL_T0 (R228): a start before the present time, or later by more than one code period, is refused. -/
def Dev.islT0 (d : Dev) (v : W) : Dev :=
  let per := if (d.sc d.islSec).fNom = 60 then 1050000000 else 1260000000
  if !d.islOn then d.islWr Reg.ISL_T0 v
  else if (v - d.stamp).toNat ≤ per then
    ({ d with isl := { d.isl with toAligned := true, toBase := d.timeNs + (v - d.stamp).toNat } } : Dev).islWr Reg.ISL_T0 v
  else d.islPut Reg.ISL_STAT Fld.ISL_STAT_T0_REF 1

/-- A software write of a correlator register (R226). -/
def Dev.islWrite (d : Dev) (o : Nat) (r : RegRow) (v : W) : Dev :=
  let m := r.merge false (d.islRd o) v
  if o = Reg.ISL_T0 then d.islT0 v
  else if o = Reg.ISL_CFG then
    (if 1 ≤ fget Fld.ISL_CFG_CONF m ∧ fget Fld.ISL_CFG_CONF m ≤ 32 then d.islWr o m
      else d.islPut Reg.ISL_STAT Fld.ISL_STAT_CFG_REF 1)
  else d.islWr o m

end Sys2Proof.Machine
end

