-- ==== Sys2Proof/Machine/Meter.lean ====
section
/-! DEFINITION. Energy and power quality (R236 to R255): the quantities of a line cycle, totals, energy windows, harmonics
and supraharmonic bands, pulse outputs and metering records. -/

namespace Sys2Proof.Machine

/-- The point has a METER_POINT record (R236). -/
def Dev.pointOn (d : Dev) (p : Nat) : Bool := d.flag (Reg.MP_STAT p) Fld.MP_STAT_ON

/-- The angle section that the record of point p names. -/
def Dev.pointSec (d : Dev) (p : Nat) : Sec := ⟨bitsN (d.rd (Reg.MP_W p 0)).toNat 15 8 % 4, by omega⟩

/-- The neutral channel of point p is enabled (R237). -/
def Dev.pointNeutral (d : Dev) (p : Nat) : Bool := wbit (d.rd (Reg.MP_W p 0)) 0

/-- N of point p. -/
def Dev.pointN (d : Dev) (p : Nat) : Nat := bitsN (d.rd (Reg.MP_W p 4)).toNat 15 0

/-- The section in use for the angle of point p. -/
def Dev.pointSrc (d : Dev) (p : Nat) : Sec := ⟨d.fld (Reg.MP_STAT p) Fld.MP_STAT_SRC % 4, by omega⟩

/-- The nominal frequency of point p, as F60 gives it. -/
def Dev.pointF (d : Dev) (p : Nat) : Nat := if wbit (d.rd (Reg.MP_W p 4)) 16 then 60 else 50

/-- Point p measures (R254), and its clock runs (R64). -/
def Dev.pointRun (d : Dev) (p : Nat) : Bool := d.pointOn p && d.flag (Reg.MP_STAT p) Fld.MP_STAT_RUN && d.metClock

/-! ### The angle of a point (R11, R238) -/

/-- Section s is a valid source for point p (R11, R238): it can give the angle, and its latest record carries VALID
and is no older than one nominal line period. -/
def Dev.sourceOk (d : Dev) (p : Nat) (s : Sec) : Bool :=
  let r := (d.sc s).ast.angle
  d.angleOk s && r.valid && decide ((d.timeNs - r.ns) * d.pointF p ≤ 1000000000)

/-- The section that is to give the angle of point p (R11). -/
def Dev.sourceFor (d : Dev) (p : Nat) : Option Sec :=
  if d.sourceOk p (d.pointSec p) then some (d.pointSec p)
  else ([0, 1, 2, 3] : List Sec).find? (d.sourceOk p)

/-- One part of 2^32 of a turn, in the units in which an angle is extrapolated: w in Q5.27 times f_nom times 1/256 ns.
-/
def angleUnit : Int := 8000000000

/-- θ(t) of R238, in 1 / angleUnit of 2^-32 turn and not reduced to a turn. -/
def AngBase.at (b : AngBase) (f : Nat) (t : Int) : Int := b.theta * angleUnit + b.w * f * (t - b.t)

/-- The quotient rounded up. -/
def ceilDiv (a b : Int) : Int := -(-a / b)

/-- The instants after `from8` and up to `now` at which the angle passes the multiples of 1/256 turn from `idx` on
(R239). A multiple that the angle has already reached, by less than half a turn, is passed at once. -/
def AngBase.passes (b : AngBase) (f idx : Nat) (from8 now : Int) : List Int :=
  let turn := 2 ^ 32 * angleUnit
  let step := 2 ^ 24 * angleUnit
  let rate := max 1 (b.w * f)
  let a0 := b.at f from8
  let first := a0 + ((idx * step - a0 + turn / 2) % turn - turn / 2)
  let last := b.at f now
  if last < first then []
  else (upTo ((last - first) / step + 1).toNat).map (fun (j : Nat) =>
    max from8 (b.t + ceilDiv (first + (j : Int) * step - b.theta * angleUnit) rate))

/-- The open cycle of a point ends. -/
def Point.endCycle (x : Point) (t : Int) (free changed : Bool) : Point :=
  match x.cyc with
  | some c => { x with cyc := none, done := x.done ++ [{ c with stop := t, smp := c.smp.reverse, free := free, changed := changed }] }
  | none => x

/-- A cycle of a point begins. -/
def Point.beginCycle (x : Point) (t : Int) : Point := { x with cyc := some { start := t, pre := x.past.reverse } }

/-- The angle passes the next multiple of 1/256 turn: a sample instant, and at 0 the end of one cycle and the start of
the next, whose first sample this is. -/
def Point.pass (x : Point) (t : Int) (free : Bool) : Point :=
  let x1 := if x.idx = 0 then (x.endCycle t free false).beginCycle t else x
  { x1 with
    idx := (x.idx + 1) % 256, past := (t :: x1.past).take 64, cyc := x1.cyc.map (fun c => { c with smp := t :: c.smp }) }

/-- The passes of the angle up to the present. -/
def Point.advance (x : Point) (f : Nat) (now : Int) (free : Bool) : Point :=
  match x.ang with
  | some b => { (b.passes f x.idx x.upto now).foldl (fun x t => x.pass t free) x with upto := max x.upto now }
  | none => x

/-- The angle of point p, which measures, taken up to the present. -/
def Dev.pointAdvance (d : Dev) (p : Nat) : Dev :=
  d.setPoint p ((d.point p).advance (d.pointF p) d.time8 (d.flag (Reg.MP_STAT p) Fld.MP_STAT_FREE))

/-- The angle record of section s. -/
def Dev.recordBase (d : Dev) (s : Sec) : AngBase :=
  let r := (d.sc s).ast.angle
  ⟨r.theta.toNat, r.w.toInt, r.ns * 256⟩

/-- Point p enters FREE (R238): its angle continues from its last value at w = 1, and METER_FREE is raised. -/
def Dev.pointFree (d : Dev) (p : Nat) : Dev :=
  if d.flag (Reg.MP_STAT p) Fld.MP_STAT_FREE then d
  else
    let d1 := d.pointAdvance p
    let x := d1.point p
    let b : AngBase := match x.ang with
      | some b => ⟨b.at (d.pointF p) d.time8 / angleUnit, 134217728, d.time8⟩
      | none => { t := x.upto }
    ((d1.setPoint p { x with ang := some b }).put (Reg.MP_STAT p) Fld.MP_STAT_FREE 1).pulse 23

/-- SRC of point p; a change is marked (R11). -/
def Dev.pointSource (d : Dev) (p : Nat) (s : Sec) : Dev :=
  if s = d.pointSrc p then d
  else (d.put (Reg.MP_STAT p) Fld.MP_STAT_SRC s.val).wr Reg.MET_STAT (d.rd Reg.MET_STAT ||| natW (2 ^ p))

/-- The angle that point p, which measures, starts with, if it has none yet: the record of its source, or FREE from 0.
-/
def Dev.pointBegin (d : Dev) (p : Nat) : Dev :=
  if (d.point p).ang.isSome then d
  else
    match d.sourceFor p with
    | some s =>
      let x := d.point p
      let b := d.recordBase s
      let i := ceilDiv (b.at (d.pointF p) x.upto) (2 ^ 24 * angleUnit) % 256
      (d.pointSource p s).setPoint p { x with ang := some b, idx := i.toNat }
    | none => d.pointFree p

/-- Point p up to the present, where it measures. -/
def Dev.pointNow (d : Dev) (p : Nat) : Dev := if d.pointRun p then (d.pointBegin p).pointAdvance p else d

/-- The source of point p becomes section s at a zero of the angle of s (R11, R238): the cycle is cut, FREE clears. -/
def Dev.pointSwitch (d : Dev) (p : Nat) (s : Sec) : Dev :=
  let x := (d.point p).endCycle d.time8 (d.flag (Reg.MP_STAT p) Fld.MP_STAT_FREE) (decide (s ≠ d.pointSrc p))
  ((d.setPoint p { x with ang := some (d.recordBase s), idx := 0 }).put (Reg.MP_STAT p) Fld.MP_STAT_FREE 0).pointSource p s

/-- The angle record of a commit of section s reaches point p (R203, R238). -/
def Dev.pointRecord1 (d : Dev) (s : Sec) (p : Nat) : Dev :=
  if !d.pointRun p then d
  else
    let d1 := d.pointNow p
    match d1.sourceFor p with
    | none => d1.pointFree p
    | some w =>
      let free := d1.flag (Reg.MP_STAT p) Fld.MP_STAT_FREE
      if w = s && (free || decide (d1.pointSrc p ≠ s)) && (d1.sc s).ast.st.obs.wrap then (d1.pointSwitch p s).pointAdvance p
      else if !free && decide (d1.pointSrc p = s) && d1.sourceOk p s then
        d1.setPoint p { d1.point p with ang := some (d1.recordBase s) }
      else d1

/-- The angle record of a commit of section s reaches the metering points. -/
def Dev.pointRecords (d : Dev) (s : Sec) : Dev := (upTo 8).foldl (fun d p => d.pointRecord1 s p) d

/-- POINT_FREE_ENTRY (R238): no section is a valid source of point p any more. -/
def pointFreeEntry (p : Fin 8) (d : Dev) : Dev :=
  let d1 := d.pointNow p.val
  if d1.pointRun p.val && (d1.sourceFor p.val).isNone then d1.pointFree p.val else d1

/-- The instants of a cycle moved by a jump of T. -/
def Cycle.shift (c : Cycle) (j : Int) : Cycle :=
  { c with start := c.start + j, stop := c.stop + j, smp := c.smp.map (· + j), pre := c.pre.map (· + j) }

/-- A jump of T by j in 1/256 ns: real time between samples stays (R239), so that all instants held move with T
(notes/assumptions/51.md). -/
def Dev.meterShift (d : Dev) (j : Int) : Dev :=
  { d with
    points := d.points.map (fun e => (e.1, { e.2 with
      ang := e.2.ang.map (fun b => { b with t := b.t + j }), upto := e.2.upto + j, past := e.2.past.map (· + j)
      cyc := e.2.cyc.map (·.shift j), done := e.2.done.map (·.shift j)
      win := { e.2.win with
        start := e.2.win.start + j, sats := e.2.win.sats.map (· + j), next := e.2.win.next.map (· + j)
        blks := e.2.win.blks.map (fun l => l.map (fun b => (b.1 + j, b.2))) } }))
    sec := d.sec.mapIdx (fun _ x => { x with
      dec := x.dec.map (fun e => (e.1, { e.2 with out := e.2.out.map (fun o => (o.1 + j, o.2)) })) }) }

/-! ### The samples of a cycle (R239) -/

/-- The resampled words of a cycle: the real times between its samples in 1/256 ns, and by phase the voltages a quarter
cycle before each sample and at it and the currents, and the neutral current. -/
structure CycleData where
  dt : List Nat
  old : List (List Int)
  v : List (List Int)
  i : List (List Int)
  n : List Int
  deriving DecidableEq, Repr

/-- The times between instants, the first since `prev`. -/
def deltas : Int → List Int → List Nat
  | _, [] => []
  | p, t :: ts => (t - p).toNat :: deltas t ts

/-- Channel j of point p in the order VA, VB, VC, IA, IB, IC, IN at the instants given. -/
def Dev.resample (d : Dev) (p j : Nat) (ts : List Int) : List Int :=
  let o := (d.stream ((d.pointChannels p).getD j 0)).out
  ts.map (fun t => Config.interpolate t o)

/-- The samples of a cycle of point p. Where fewer than 64 sample instants came before it, the voltages of the missing
ones are free values. -/
def Dev.cycleData (d : Dev) (p : Nat) (c : Cycle) : CycleData :=
  let old (j : Nat) : List Int :=
    (upTo (64 - c.pre.length)).map (fun i => sgn 24 ((Config.freeWord (d.freeCount + 64 * j + i)).toNat % 2 ^ 24)) ++
      d.resample p j c.pre
  { dt := deltas (c.pre.getLastD c.start) c.smp
    old := (upTo 3).map old
    v := (upTo 3).map (fun j => d.resample p j c.smp)
    i := (upTo 3).map (fun j => d.resample p (3 + j) c.smp)
    n := if d.pointNeutral p then d.resample p 6 c.smp else c.smp.map (fun _ => 0) }

/-- The stream words that the samples of a cycle are taken from have passed. -/
def Dev.cycleReady (d : Dev) (p : Nat) (c : Cycle) : Bool :=
  (d.pointChannels p).all (fun ch => match (d.stream ch).out with | w :: _ => decide (c.stop ≤ w.1) | [] => false)

/-! ### The quantities of one cycle (R240) -/

/-- A sum of products with weights. -/
def dot3 : List Int → List Int → List Nat → Int
  | a :: as, b :: bs, w :: ws => a * b * (w : Int) + dot3 as bs ws
  | _, _, _ => 0

/-- The cosine and sine sums of order h over a cycle of 256 angles, with 48 fraction bits. -/
def dftSum (h : Nat) : Nat → List Int → Int × Int
  | _, [] => (0, 0)
  | k, s :: t =>
    let (c, q) := dftSum h (k + 1) t
    let th : Int := ((h * k % 256 : Nat) : Int) * (fx1 / 256)
    (s * fxCos th + c, q - s * fxSin th)

/-- A quantity of a cycle as an energy over the denominator 2^54 · 3.6e9 of 2^-32 of a unit: P T, Q T and S T. -/
structure Quant where
  p : Int
  q : Int
  s : Int
  deriving DecidableEq, Repr

/-- The sum of quantities. -/
def Quant.add (a b : Quant) : Quant := ⟨a.p + b.p, a.q + b.q, a.s + b.s⟩

/-- The product of the ratios of point p. -/
def Dev.pointGain (d : Dev) (p : Nat) : Int := ((d.rd (Reg.MP_W p 5)).toNat * (d.rd (Reg.MP_W p 6)).toNat : Nat)

/-- P, Q and S of one phase with harmonics (R240); `old` holds the 64 voltage samples before the cycle. -/
def phaseQuant (g : Int) (old v i : List Int) (dt : List Nat) : Quant :=
  ⟨g * dot3 v i dt, g * dot3 (old ++ v) i dt, g * (isqrt 128 ((dot3 v v dt).toNat * (dot3 i i dt).toNat) : Nat)⟩

/-- P1, Q1 and S1 of one phase over `t` (R240), from the order-1 components of the cycle. -/
def phaseFund (g : Int) (v i : List Int) (t : Int) : Quant :=
  let (va, vb) := dftSum 1 0 v
  let (ia, ib) := dftSum 1 0 i
  let n : Int := max 1 (v.length * v.length)
  let sc (x : Int) : Int := 2 * g * t * x / (n * 2 ^ 96)
  ⟨sc (va * ia + vb * ib), sc (vb * ia - va * ib), sc (isqrt 200 ((va * va + vb * vb).toNat * (ia * ia + ib * ib).toNat) : Nat)⟩

/-- The eight quantity triples of a cycle of duration t: total and phases a to c, with harmonics and fundamental. -/
def Dev.cycleQuants (d : Dev) (p : Nat) (c : CycleData) (t : Int) : List Quant :=
  let g := d.pointGain p
  let ph (x : Nat) : Quant := phaseQuant g (c.old.getD x []) (c.v.getD x []) (c.i.getD x []) c.dt
  let fu (x : Nat) : Quant := phaseFund g (c.v.getD x []) (c.i.getD x []) t
  [((ph 0).add (ph 1)).add (ph 2), ph 0, ph 1, ph 2, ((fu 0).add (fu 1)).add (fu 2), fu 0, fu 1, fu 2]

/-- The units of an energy over 2^32: a quotient whose rounding the spec leaves open. -/
def energy32 (n : Int) (up : Bool) : Nat := (quotFree n (2 ^ 54 * 3600000000) up).toNat

/-- The energies that one quantity triple adds (R241), as total index and amount; `f` is FUND · 4 + PH. -/
def classify (load : Bool) (fc f : Nat) (x : Quant) : List (Nat × Nat) :=
  let p := if load then x.p else -x.p
  let q := if load then x.q else -x.q
  let j := 28 * (f / 4) + 7 * (f % 4)
  let re := if 0 ≤ q then (if 0 ≤ p then 2 else 3) else (if p < 0 then 4 else 5)
  [(j + (if 0 ≤ p then 0 else 1), energy32 p.natAbs (Config.freeBit (fc + 3 * f))),
   (j + re, energy32 q.natAbs (Config.freeBit (fc + 3 * f + 1))),
   (j + 6, energy32 x.s (Config.freeBit (fc + 3 * f + 2)))]

/-- All energies of a cycle. -/
def Dev.cycleEnergies (d : Dev) (p : Nat) (qs : List Quant) : List (Nat × Nat) :=
  (qs.zipIdx.map (fun e => classify (d.flag (Reg.MP_CTRL p) Fld.MP_CTRL_REF) d.freeCount e.2 e.1)).flatten

/-! ### Totals and energy windows (R242, R247, R248) -/

/-- The total of a quantity in 2^-32 of a unit. -/
def Point.total (x : Point) (j : Nat) : Nat := Tbl.get (fun _ => 0) x.tot j

/-- One energy added to its total, and for the window quantities to the live count and its tally (R247, R248). -/
def Point.addEnergy (x : Point) (j e : Nat) : Point :=
  let old := x.total j
  let new := (old + e) % 2 ^ 96
  let x1 := { x with tot := Tbl.set (fun _ => 0) x.tot j new }
  if j < 7 then
    let c := x.live.getD j 0 + ((old + e) / 2 ^ 32 - old / 2 ^ 32)
    { x1 with live := x.live.set j (c % 2 ^ 32), tally := x.tally.set j (min 15 (x.tally.getD j 0 + c / 2 ^ 32)) }
  else x1

/-- The energies of a cycle added. -/
def Point.addAll (x : Point) (es : List (Nat × Nat)) : Point := es.foldl (fun x e => x.addEnergy e.1 e.2) x

/-- The N-th cycle end, at a time in ns, latches the window (R247, R248, R254). -/
def Dev.latchWindow (d : Dev) (p : Nat) (t : W) : Dev :=
  let x := d.point p
  let wr := (upTo 7).foldl (fun m q => m + x.tally.getD q 0 * 16 ^ q) 0
  let d1 := d.setPoint p { x with
    cycles := 0, live := List.replicate 7 0, tally := List.replicate 7 0, latched := x.live.map natW, wrap := natW wr
    wtime := t, first := false }
  let d2 := (d1.wr (Reg.MP_WSEQ p) (d1.rd (Reg.MP_WSEQ p) + 1)).putB (Reg.MP_STAT p) Fld.MP_STAT_PARTIAL x.first
  if wr = 0 then d2 else (d2.put (Reg.MP_STAT p) Fld.MP_STAT_WINDOW_WRAP 1).pulse 21

/-! ### Pulse outputs (R253) -/

/-- A pulse output that has counted nothing. -/
def pulseReset (_ : Nat) : PulseOut := {}

/-- The total index that a QSEL names: QTY, PH and FUND; none for reserved codes. -/
def qselIndex (q : Nat) : Option Nat :=
  if q % 8 = 7 ∨ Nat.testBit q 3 then none else some (28 * (q / 64 % 2) + 7 * (q / 16 % 4) + q % 8)

/-- An energy in 2^-32 of a unit added at `k` pulses per 1,000 units in Q16.16, and the pulses that are then due. -/
def PulseOut.count (o : PulseOut) (e k : Nat) : PulseOut × Nat :=
  let den := Nat.lcm o.den k
  let acc := o.acc * (den / o.den) + e * den
  let step := 1000000 * 65536 * 2 ^ 32 * (den / k)
  ({ o with acc := acc % step, den := den }, acc / step)

/-- An energy reaches pulse output n at its CONST (R253): due pulses wait up to 255, the others are lost. -/
def Dev.pulseAdd (d : Dev) (n e : Nat) : Dev :=
  let (o, due) := (Tbl.get pulseReset d.pulses n).count e (d.rd (Reg.PLS_CONST n)).toNat
  let pend := d.fld (Reg.PLS_STAT n) Fld.PLS_STAT_PENDING
  let now := min 255 (pend + due)
  let lost := pend + due - now
  let d1 : Dev := { d with pulses := Tbl.set pulseReset d.pulses n o }
  let d2 := d1.put (Reg.PLS_STAT n) Fld.PLS_STAT_PENDING now
  if lost = 0 then d2
  else (d2.put (Reg.PLS_STAT n) Fld.PLS_STAT_LOST (min 255 (d.fld (Reg.PLS_STAT n) Fld.PLS_STAT_LOST + lost))).pulse 26

/-- The energies of point p reach pulse output n, where it is on and counts that point. -/
def Dev.pulseFeed (d : Dev) (p : Nat) (es : List (Nat × Nat)) (n : Nat) : Dev :=
  let cfg := d.rd (Reg.PLS_CFG n)
  if fbit Fld.PLS_CFG_EN cfg && decide (fget Fld.PLS_CFG_POINT cfg = p) && decide (d.rd (Reg.PLS_CONST n) ≠ 0) then
    d.pulseAdd n (es.foldl (fun m x => if some x.1 = qselIndex (fget Fld.PLS_CFG_QSEL cfg) then m + x.2 else m) 0)
  else d

/-- PULSE_START (R253): a due pulse starts on an output that is on and drives none. -/
def pulseStart (n : Fin 8) (d : Dev) : Dev :=
  let o := Tbl.get pulseReset d.pulses n.val
  let pend := d.fld (Reg.PLS_STAT n.val) Fld.PLS_STAT_PENDING
  if d.flag (Reg.PLS_CFG n.val) Fld.PLS_CFG_EN && !o.on && decide (pend ≠ 0) then
    let c := d.fld (Reg.PLS_STAT n.val) Fld.PLS_STAT_COUNT
    let d1 := { d with pulses := Tbl.set pulseReset d.pulses n.val { o with on := true } }
    (d1.put (Reg.PLS_STAT n.val) Fld.PLS_STAT_PENDING (pend - 1)).put (Reg.PLS_STAT n.val) Fld.PLS_STAT_COUNT (c + 1)
  else d

/-- PULSE_END (R253): the output returns to its inactive level. -/
def pulseEnd (n : Fin 8) (d : Dev) : Dev :=
  { d with pulses := Tbl.set pulseReset d.pulses n.val { Tbl.get pulseReset d.pulses n.val with on := false } }

/-- The level at ball PLSn. -/
def Dev.pulseBall (d : Dev) (n : Nat) : Bool :=
  ((Tbl.get pulseReset d.pulses n).on && d.flag (Reg.PLS_CFG n) Fld.PLS_CFG_EN) != d.flag (Reg.PLS_CFG n) Fld.PLS_CFG_POL

/-- The rule of PLS_CFG: MINPER exceeds WIDTH. -/
def plsCfgOk (v : W) : Bool := decide (fget Fld.PLS_CFG_WIDTH v < fget Fld.PLS_CFG_MINPER v)

/-- The rules of an output whose PLS_CFG and PLS_CONST these are: an output that is on has a CONST. -/
def plsOk (cfg const : W) : Bool := plsCfgOk cfg && (!fbit Fld.PLS_CFG_EN cfg || decide (const ≠ 0))

/-! ### Harmonics and supraharmonics (R250, R251) -/

/-- Two lists added element by element; the longer tail stays. -/
def addLists : List Int → List Int → List Int
  | a :: as, b :: bs => (a + b) :: addLists as bs
  | [], bs => bs
  | as, [] => as

/-- The channels of a cycle in the order VA, VB, VC, IA, IB, IC, IN. -/
def CycleData.channels (c : CycleData) : List (List Int) := (c.v ++ c.i).take 6 ++ [c.n]

/-- A cycle taken into the harmonic window in progress. -/
def HarmWin.takeCycle (w : HarmWin) (chs : List (List Int)) (len : Nat) : HarmWin :=
  { w with
    cycles := w.cycles + 1, n := w.n + len
    sums := chs.zipIdx.map (fun e => addLists (w.sums.getD e.2 []) e.1)
    sqs := chs.zipIdx.map (fun e => w.sqs.getD e.2 0 + (e.1.foldl (fun m s => m + s * s) 0).toNat) }

/-- A window that begins at a line-cycle boundary. -/
def HarmWin.begin (t : Int) (sats : List Int) : HarmWin :=
  { on := true, start := t, sats := sats.filter (fun u => decide (t ≤ u)), next := List.replicate 7 t }

/-- A value in 2^-16 of full-scale peak from stream units with `k` further fraction bits, limited to 16 bits. -/
def fs16 (n : Int) (k : Nat) (up : Bool) : Nat := (clampI 0 65535 (quotFree n (2 ^ (7 + k)) up)).toNat

/-- The result word of one channel and order: RMS magnitude and phase; order 0 holds RMS and DC. -/
def HarmWin.word (w : HarmWin) (fc ch h : Nat) : W :=
  let n := max 1 w.n
  let up := Config.freeBit (fc + 128 * ch + h)
  if h = 0 then
    let rms := isqrt 64 (w.sqs.getD ch 0 * 2 ^ 32 / n)
    let dc := quotFree ((w.sums.getD ch []).foldl (· + ·) 0) (n * 128) up
    natW (fs16 rms 16 up * 65536 + uns 16 (clampI (-32768) 32767 dc))
  else
    let (a, b) := dftSum h 0 (w.sums.getD ch [])
    let mag : Int := (isqrt 160 (2 * (a * a + b * b).toNat) : Nat)
    let m : Int := max 1 (max a.natAbs b.natAbs : Nat)
    let ph : Nat := match fxAngle (a * fx1 / m) (b * fx1 / m) with
      | some t => uns 16 (quotFree (t * 65536) (2 ^ 48) up)
      | none => (Config.freeWord (fc + 128 * ch + h)).toNat % 65536
    natW (fs16 (mag / n) 48 up * 65536 + ph)

/-- The band powers of the blocks of channel ch that end inside the window. -/
def HarmWin.inside (w : HarmWin) (ch : Nat) (stop : Int) : List (List Nat) :=
  ((w.blks.getD ch []).filter (fun b => decide (b.1 < stop))).map (·.2)

/-- The band word: RMS over the blocks inside the window, in 2^-32 of full-scale peak (R251). A block's power stands in
stream units squared with 16 fraction bits. -/
def HarmWin.band (w : HarmWin) (stop : Int) (fc ch b : Nat) : W :=
  let bs := w.inside ch stop
  let s := bs.foldl (fun m l => m + l.getD b 0) 0 / max 1 bs.length
  let r : Int := (isqrt 64 (s * 2 ^ 16) : Nat)
  natW (clampI 0 4294967295 (quotFree (r * 512) (2 ^ 16) (Config.freeBit (fc + 1024 + 74 * ch + b)))).toNat

/-- The window that ends at `stop`, delivered. -/
def HarmWin.deliver (w : HarmWin) (stop : Int) (fc : Nat) (free : Bool) : HarmRes :=
  let hs := (upTo 7).flatMap (fun ch => (upTo 128).map (fun h => (128 * ch + h, w.word fc ch h)))
  let bs := (upTo 7).flatMap (fun ch => (upTo 74).map (fun b => (128 * ch + b, w.band stop fc ch b)))
  { harm := hs.filter (fun e => e.2 ≠ 0), supra := bs.filter (fun e => e.2 ≠ 0), free := free
    sat := w.sats.any (fun t => decide (w.start ≤ t) && decide (t < stop)), time := intW (w.start / 256) }

/-- A cycle of the harmonic windows (R250): 10 or 12 cycles make one window; the next begins at its end. -/
def Point.harmCycle (x : Point) (c : Cycle) (chs : List (List Int)) (need fc : Nat) : Point :=
  let w0 := if x.win.on then x.win else HarmWin.begin c.start x.win.sats
  let w := w0.takeCycle chs c.smp.length
  let w1 := { w with drop := w.drop || c.changed }
  let next := HarmWin.begin c.stop w1.sats
  if w1.cycles < need then { x with win := w1 }
  else if w1.drop then { x with win := next }
  else { x with win := next, res := some (w1.deliver c.stop fc c.free), hseq := (x.hseq + 1) % 65536 }

/-- The Hann-weighted bin of a block of 3,125 samples, with 32 fraction bits. -/
def hannBin (bin : Nat) : Nat → List Int → Int × Int
  | _, [] => (0, 0)
  | k, s :: t =>
    let (c, q) := hannBin bin (k + 1) t
    let wn : Int := (fx1 - fxCos ((k : Int) * (fx1 / 3125))) / 2
    let th : Int := ((bin * k % 3125 : Nat) : Int) * (fx1 / 3125)
    let y := fxMul (s * 2 ^ 32) wn
    (fxMul y (fxCos th) + c, q - fxMul y (fxSin th))

/-- The power of a band of a block in stream units squared with 16 fraction bits: 16 / (3 N²) times the sum over its ten
bins, as the weighting asks for the power to be kept. -/
def bandPower (smp : List Int) (b : Nat) : Nat :=
  ((upTo 10).foldl (fun m i =>
    let (c, q) := hannBin (10 + 10 * b + i) 0 smp
    m + (c * c + q * q).toNat) 0) * 16 / (3 * 3125 * 3125 * 2 ^ 48)

/-- The next block of a channel's stream from a time on: its words in order and the time of the last, once 3,125 words
have passed. -/
def Decim.block (m : Decim) (t : Int) : Option (List Int × Int) :=
  let ws := ((m.out.filter (fun w => decide (t ≤ w.1))).reverse).take 3125
  if ws.length = 3125 then some (ws.map (·.2), (ws.getLastD (0, 0)).1) else none

/-- The next block of channel j of the point, where it has passed (R251): its band powers and its end. Without a
neutral, channel 6 has none (R237). -/
def HarmWin.takeBlock (w : HarmWin) (m : Decim) (j : Nat) : HarmWin :=
  match m.block (w.next.getD j 0) with
  | some (smp, stop) =>
    { w with
      next := w.next.set j (stop + 1)
      blks := w.blks.set j (w.blks.getD j [] ++ [(stop, (upTo 74).map (fun b => bandPower smp b))]) }
  | none => w

/-- SUPRA_BLOCK (R251): the streams of the point have passed a block, cut from the start of the window in progress. -/
def supraBlock (p : Fin 8) (d : Dev) : Dev :=
  let x := d.point p.val
  if d.pointOn p.val && x.win.on then
    let n := if d.pointNeutral p.val then 7 else 6
    d.setPoint p.val { x with
      win := (upTo n).foldl (fun w j => w.takeBlock (d.stream ((d.pointChannels p.val).getD j 0)) j) x.win }
  else d

/-! ### The cycle end (R239 to R242, R254) -/

/-- The cycle quantities that the registers show: P, Q, S and P / S (R240). -/
def Dev.pointShow (d : Dev) (p : Nat) (x : Quant) (t : Nat) : Dev :=
  let den := 2 ^ 78 * max 1 t
  let v (n : Int) (i : Nat) : W := intW (clampI (-2147483648) 2147483647 (quotFree n den (Config.freeBit (d.freeCount + i))))
  let pf : Int := if x.s = 0 then 0
    else clampI (-32768) 32767 (quotFree (x.p * 32768) x.s.toNat (Config.freeBit (d.freeCount + 27)))
  (((d.wr (Reg.MP_P p) (v x.p 24)).wr (Reg.MP_Q p) (v x.q 25)).wr (Reg.MP_S p) (v x.s 26)).put (Reg.MP_PF p)
    Fld.MP_PF_PF (uns 16 pf)

/-- The quantities of an ended cycle of point p: its energies reach the totals, the live counts and the pulse outputs
(R241 to R253), and its samples the harmonic window. -/
def Dev.pointCycle (d : Dev) (p : Nat) (c : Cycle) : Dev :=
  let cd := d.cycleData p c
  let d0 : Dev := { d with freeCount := d.freeCount + 192 }
  let qs := d0.cycleQuants p cd (c.stop - c.start)
  let es := d0.cycleEnergies p qs
  let x := (d0.point p).addAll es
  let d1 := (d0.setPoint p { x with cycles := x.cycles + 1 }).pointShow p (qs.headD ⟨0, 0, 0⟩) (c.stop - c.start).toNat
  let d2 := (upTo 8).foldl (fun d n => d.pulseFeed p es n) { d1 with freeCount := d1.freeCount + 32 }
  let need := if d.pointF p = 60 then 12 else 10
  let d3 := d2.setPoint p ((d2.point p).harmCycle c cd.channels need d2.freeCount)
  let d4 : Dev := { d3 with freeCount := d3.freeCount + 2048 }
  if d4.pointN p ≤ (d4.point p).cycles then d4.latchWindow p (intW (c.stop / 256)) else d4

/-- LINE_CYCLE_END (R239, R240): the oldest ended cycle of point p whose quantities are still to be computed, once the
stream words that it needs have passed. -/
def lineCycleEnd (p : Fin 8) (d : Dev) : Dev :=
  let d1 := d.pointNow p.val
  match (d1.point p.val).done with
  | c :: rest =>
    if d1.pointRun p.val && d1.cycleReady p.val c then
      (d1.setPoint p.val { d1.point p.val with done := rest }).pointCycle p.val c
    else d1
  | [] => d1

/-- Point p closes its cycle in progress as a short cycle (R245), and every ended cycle counts. -/
def Dev.pointClose (d : Dev) (p : Nat) : Dev :=
  if d.pointRun p then
    let d1 := d.pointNow p
    let x := d1.point p
    let y := if x.cyc.isSome then
      (x.endCycle d.time8 (d1.flag (Reg.MP_STAT p) Fld.MP_STAT_FREE) false).beginCycle d.time8 else x
    y.done.foldl (fun d c => d.pointCycle p c) (d1.setPoint p { y with done := [] })
  else d

/-! ### Records (R243 to R246) -/

/-- The payload of a metering record (R243): LAST_GASP and the 448 totals. -/
def Dev.meterRecord (d : Dev) (lastGasp : Bool) : List Byte :=
  natBytes 4 (b2n lastGasp) ++ (upTo 8).flatMap (fun p =>
    (upTo 56).flatMap (fun j => natBytes 8 ((d.point p).total j / 2 ^ 32)))

/-- A burst requested from the keep domain: it takes the place of a waiting one of its kind (R387). -/
def Dev.requestBurst (d : Dev) (kind : Nat) (payload : List Byte) : Dev :=
  { d with keep := { d.keep with waiting := d.keep.waiting.filter (fun b => b.kind ≠ kind) ++ [⟨kind, false, payload⟩] } }

/-- METER_RECORD_SAVE (R243): once per second, from base boot on. -/
def meterRecordSave (d : Dev) : Dev :=
  if d.fld Reg.MET_STAT Fld.MET_STAT_RESTORE = 3 then d else d.requestBurst 4 (d.meterRecord false)

/-- MET_CMD (R246). CLR_TOTALS is accepted in DEVELOPMENT only. -/
def Dev.metCmd (d : Dev) (lcs : Nat) (v : W) : Dev :=
  if !keyIs v 0x6E3B then d.badKey
  else
    let d1 :=
      if !wbit v 0 then d
      else if lcs ≠ 0 then d.put Reg.MET_STAT Fld.MET_STAT_CMD_REF 1
      else
        let d1 := (upTo 8).foldl (fun d p => d.setPoint p { d.point p with tot := [] }) d
        d1.requestBurst 4 (d1.meterRecord false)
    if wbit v 1 then d1.requestBurst 4 (d1.meterRecord false) else d1

/-! ### What the host reads (R242, R249, R252) -/

/-- MP_TSEL (R242): the selected total is copied for the port. A reserved code names no quantity. -/
def Dev.tselWrite (d : Dev) (k : Port) (p : Nat) (v : W) : Dev :=
  let q := v.toNat % 128
  let d1 := d.put (Reg.MP_TSEL p) Fld.MP_TSEL_QSEL q
  match qselIndex q with
  | some j =>
    let t := (d.point p).total j / 2 ^ 32
    (d1.snapWr k (Reg.MP_TOT_LO p) (natW t)).snapWr k (Reg.MP_TOT_HI p) (natW (t / 2 ^ 32))
  | none =>
    ((d1.snapWr k (Reg.MP_TOT_LO p) (Config.freeWord d.freeCount)).snapWr k (Reg.MP_TOT_HI p)
      (Config.freeWord (d.freeCount + 1))).tickFree.tickFree

/-- A read of MP_WSEQ (R249) takes the port's snapshot of the latched window. -/
def Dev.wseqRead (d : Dev) (k : Port) (p : Nat) : Dev :=
  let x := d.point p
  (upTo 7).foldl (fun d q => d.snapWr k (Reg.MP_WIN p q) (x.latched.getD q 0))
    ((d.snapWr k (Reg.MP_WRAP p) x.wrap).snapWr k (Reg.MP_WTIME p) x.wtime)

/-- HARM_SEL (R252): the latest window of the point is copied for the port, which is busy until the copy is done. -/
def Dev.harmSelWrite (d : Dev) (k : Port) (v : W) : Dev :=
  let p := v.toNat % 8
  let d0 := { d with snap := d.snap.upd k (Tbl.keep (fun a => decide (a < 0x48000 ∨ 0x4B000 ≤ a))) }
  let d1 := d0.put Reg.HARM_SEL Fld.HARM_SEL_POINT p
  match (d.point p).res with
  | none => (d1.snapWr k Reg.HARM_STAT 0x80000000).snapWr k Reg.HARM_TIME 0
  | some r =>
    let st := 0xC0000000 + b2n r.free * 0x20000000 + b2n r.sat * 0x10000000 + (d.point p).hseq
    let d2 := r.harm.foldl (fun d e => d.snapWr k (Reg.HARM e.1) e.2) d1
    let d3 := r.supra.foldl (fun d e => d.snapWr k (Reg.SUPRA e.1) e.2) d2
    (d3.snapWr k Reg.HARM_STAT (natW st)).snapWr k Reg.HARM_TIME r.time

/-- HARM_COPY_DONE (R252). -/
def harmCopyDone (k : Port) (d : Dev) : Dev := d.snapWr k Reg.HARM_STAT (d.snapRd k Reg.HARM_STAT &&& 0x7FFFFFFF)

/-- A live count (MP_WLIVE). -/
def Dev.liveView (d : Dev) (p q : Nat) : W := natW ((d.point p).live.getD q 0)

/-- A software write of the pulse registers (R253): refused settings set CFG_REF, and a closed lock leaves the
register as it is (R53). The energy accumulated so far counts at the new CONST. -/
def Dev.plsWrite (d : Dev) (a : Nat) (r : RegRow) (isOpen : Bool) (v : W) : Dev :=
  let m := r.merge isOpen (d.rd a) v
  if Reg.PLS_STAT 0 ≤ a then d.wr a m
  else if !isOpen then d
  else if a < Reg.PLS_CONST 0 then
    (if plsOk m (d.rd (a + 0x20)) then d.wr a m else d.put Reg.MET_STAT Fld.MET_STAT_CFG_REF 1)
  else if m = 0 then d.put Reg.MET_STAT Fld.MET_STAT_CFG_REF 1
  else (d.wr a m).pulseAdd ((a - Reg.PLS_CONST 0) / 4) 0

end Sys2Proof.Machine
end

