-- ==== Sys2Proof/Machine/NetTime.lean ====
section
/-! DEFINITION. The network time counter (R294 to R301): counting, the rate, steps and slews, and the snapshot of a
port. -/

namespace Sys2Proof.Machine

/-- The adjustment value of TIME_ADJ_HI and TIME_ADJ, in 1/256 ns (R298). -/
def Dev.adjValue (d : Dev) : Int := sgn 64 ((d.rd Reg.TIME_ADJ_HI).toNat * 2 ^ 32 + (d.rd Reg.TIME_ADJ).toNat)

/-- n clocks of the TIME domain (R294, R298): C counts, a running slew moves T by 1/256 ns per clock and ends when its
value is used up, and each pass of T through 0 modulo 2^32 ns is counted for the next snapshot of every port (R297).
Nothing happens while the counter is halted (R301). -/
def Dev.timeRun (d : Dev) (n : Nat) : Dev :=
  if d.timeInv then d
  else
    let rem := wint (d.rd Reg.TIME_SLEW_REM)
    let k := min n rem.natAbs
    let slew : Int := if 0 ≤ rem then k else - k
    let t0 := d.time28
    let t1 := (t0 + n * d.incr + slew * 2 ^ 20).toNat
    let wraps := t1 / 2 ^ 60 - t0 / 2 ^ 60
    let d1 := { d with time := { d.time with
      c := (d.time.c + n) % 2 ^ 64, cb := (d.time.c + n) % 2 ^ 64, tb := t1 % 2 ^ 92
      wraps := d.time.wraps.mapIdx (fun _ w => min 15 (w + wraps)), passes := d.time.passes + wraps } }
    let d2 := d1.wr Reg.TIME_SLEW_REM (intW (rem - slew))
    if rem - slew = 0 then d2.put Reg.TIME_STAT Fld.TIME_STAT_SLEW_BUSY 0 else d2

/-- n times 4 ns pass: the clocks of the TIME domain, and the time that the age of a Dorlin frame is measured by, which
no step, slew or halt of T changes (R326; notes/assumptions/50.md). -/
def Dev.pass (d : Dev) (n : Nat) : Dev := ({ d with up := d.up + n } : Dev).timeRun n

/-- SLEW_DONE (R298): the clocks that use up the running slew. -/
def slewDone (d : Dev) : Dev :=
  if d.flag Reg.TIME_STAT Fld.TIME_STAT_SLEW_BUSY && !d.timeInv then d.pass (wint (d.rd Reg.TIME_SLEW_REM)).natAbs else d

/-- A write of TIME_INCR (R294): inside ±1,000 ppm it acts from a new base pair, otherwise it is refused. -/
def Dev.incrWrite (d : Dev) (v : W) : Dev :=
  if 0x3FEF9DB3 ≤ v.toNat ∧ v.toNat ≤ 0x4010624D then
    ({ d with time := { d.time with tb := d.time28, cb := d.time.c } } : Dev).wr Reg.TIME_INCR v
  else d.put Reg.TIME_STAT Fld.TIME_STAT_ADJ_REF 1

/-- A step is accepted within JUMP_MAX, before any step since reset or halt, or when forced (R299). -/
def Dev.stepOk (d : Dev) (force : Bool) : Bool :=
  force || !d.flag Reg.TIME_STAT Fld.TIME_STAT_SET ||
    decide (d.adjValue.natAbs ≤ (d.rd Reg.JUMP_MAX).toNat * 256)

/-- A step of T (R299): an offset jump for carrier alignment (R116), the islanding correlator (R229), TIME windows
(R84) and the instants that metering holds. -/
def Dev.timeStep (d : Dev) (force : Bool) : Dev :=
  if d.stepOk force then
    let t1 := (d.time28 + d.adjValue * 2 ^ 20) % (2 ^ 92 : Int)
    let d1 := { d with
      time := { d.time with tb := t1.toNat, cb := d.time.c, stepped := Quad.all true }
      sec := d.sec.mapIdx (fun _ x => x.alignJump.timeJump (t1.toNat / 2 ^ 28)) }
    let d2 := (d1.put Reg.TIME_STAT Fld.TIME_STAT_SET 1).put Reg.TIME_STAT Fld.TIME_STAT_JUMPED 1
    let d3 := (d2.wr Reg.TIME_LAST_STEP (d.rd Reg.TIME_ADJ)).wr Reg.TIME_LAST_STEP_HI (d.rd Reg.TIME_ADJ_HI)
    (((d3.wr Reg.TIME_SLEW_REM 0).put Reg.TIME_STAT Fld.TIME_STAT_SLEW_BUSY 0).meterShift d.adjValue).islJump
  else (d.put Reg.TIME_STAT Fld.TIME_STAT_JUMP_REFUSED 1).pulse 28

/-- A slew request (R298): refused beyond 1,000,000 ns and while a slew runs. A value of 0 is used up at once. -/
def Dev.timeSlew (d : Dev) : Dev :=
  if d.flag Reg.TIME_STAT Fld.TIME_STAT_SLEW_BUSY || decide (256000000 < d.adjValue.natAbs) then
    d.put Reg.TIME_STAT Fld.TIME_STAT_ADJ_REF 1
  else if d.adjValue = 0 then d
  else (d.wr Reg.TIME_SLEW_REM (intW d.adjValue)).put Reg.TIME_STAT Fld.TIME_STAT_SLEW_BUSY 1

/-- A write of TIME_CMD with its key 0xC35A: step, slew, or both as a step (R300). -/
def Dev.timeCmd (d : Dev) (v : W) : Dev :=
  if !keyIs v 0xC35A then d.badKey
  else if wbit v 0 then d.timeStep (wbit v 2)
  else if wbit v 1 then d.timeSlew
  else d

/-- A read of TIME_NS through a port (R297, R311): TIME_AUX of that port takes the fraction, WRAPS, STEPPED and
TIMEINV, and the next snapshot of the port starts anew. -/
def Dev.timeNsRead (d : Dev) (k : Port) : Dev × W :=
  let aux := b2n d.timeInv * 2 ^ 31 + b2n (d.time.stepped.get k) * 2 ^ 30 + d.time.wraps.get k * 2 ^ 16 + d.time8 % 256
  let d1 := { d with time := { d.time with
    wraps := d.time.wraps.set k 0, stepped := d.time.stepped.set k false } }
  (d1.snapWr k Reg.TIME_AUX (natW aux), d.stamp)

/-- A read of TIME_RAW_LO through a port (R294): C[31:0], with C[63:32] copied to TIME_RAW_HI. -/
def Dev.timeRawRead (d : Dev) (k : Port) : Dev × W :=
  (d.snapWr k Reg.TIME_RAW_HI (natW (d.time.c / 2 ^ 32)), natW d.time.c)

/-- The step of the block with an empty queue: one clock of the TIME domain (notes/assumptions/1.md). -/
def idle (s : State) : Host.Outcome State Fault Refusal :=
  .next { s with dev := if s.dev.held then s.dev else s.dev.pass 1 }

end Sys2Proof.Machine
end

