-- ==== Sys2Proof/Machine/Ethernet.lean ====
section
/-! DEFINITION. The Ethernet ports (R291 to R293, R302 to R307, R317): reception and stamps, one-step correction,
foreign masters, the transmit queues and timed launch. -/

namespace Sys2Proof.Machine

/-! ### Frames -/

/-- The offset of the Ethertype behind an optional VLAN tag. -/
def frameType (f : List Byte) : Nat := if beAt f 12 2 = 0x8100 then 16 else 12

/-- The offset of the PTP header of a frame under the enabled transports (R293): layer 2, or UDP port 319 or 320 over
IPv4 or IPv6, with the offset of the UDP header and whether it is IPv6. None where the frame is no PTP message. -/
def Dev.ptpAt (d : Dev) (p : Port) (f : List Byte) : Option (Nat × Option (Nat × Bool)) :=
  let o := frameType f
  let ty := beAt f o 2
  let cfg := Reg.PTP_CFG p
  let udp (u : Nat) (v6 : Bool) : Option (Nat × Option (Nat × Bool)) :=
    if (beAt f (u + 2) 2 = 319 ∨ beAt f (u + 2) 2 = 320) ∧ u + 42 ≤ f.length then some (u + 8, some (u, v6)) else none
  if ty = 0x88F7 then
    if d.flag cfg Fld.PTP_CFG_L2 ∧ o + 36 ≤ f.length then some (o + 2, none) else none
  else if ty = 0x0800 then
    if d.flag cfg Fld.PTP_CFG_UDP4 ∧ beAt f (o + 2) 1 / 16 = 4 ∧ beAt f (o + 11) 1 = 17 ∧ beAt f (o + 8) 2 % 0x4000 = 0 then
      udp (o + 2 + 4 * (beAt f (o + 2) 1 % 16)) false else none
  else if ty = 0x86DD then
    if d.flag cfg Fld.PTP_CFG_UDP6 ∧ beAt f (o + 2) 1 / 16 = 6 ∧ beAt f (o + 8) 1 = 17 then udp (o + 42) true else none
  else none

/-- The UDP checksum of a frame recomputed (R302). -/
def udpFix (f : List Byte) (u : Nat) (v6 : Bool) : List Byte :=
  let n := beAt f (u + 4) 2
  let f0 := putAt f (u + 6) [0, 0]
  let body := (f0.drop u).take n
  let pseudo := if v6 then (f0.drop (u - 32)).take 32 ++ beBytes 4 n ++ [0, 0, 0, 17]
    else (f0.drop (frameType f + 14)).take 8 ++ [0, 17] ++ beBytes 2 n
  putAt f0 (u + 6) (beBytes 2 (inetSum (pseudo ++ body)))

/-- The one-step correction (R302): (t_egress - T_ref) times 2^16 is added to the correctionField; none where no PTP
header is found. The difference of the two 32-bit times is taken as the nearer one (notes/assumptions/40.md). -/
def Dev.oneStep (d : Dev) (p : Port) (f : List Byte) (t8 : Nat) (tref : W) : Option (List Byte) :=
  match d.ptpAt p f with
  | none => none
  | some (h, u) =>
    let diff := sgn 40 ((t8 + 2 ^ 40 - tref.toNat * 256 % 2 ^ 40) % 2 ^ 40)
    let c := uns 64 ((beAt f (h + 8) 8 : Nat) + diff * 256)
    let f1 := putAt f (h + 8) (beBytes 8 c)
    some (match u with | none => f1 | some (uo, v6) => udpFix f1 uo v6)

/-! ### Reception -/

/-- The stamp accuracy of a port at its link speed, in 1/256 ns (R292). -/
def Dev.stampAcc (d : Dev) (p : Port) : Int :=
  let sp := d.fld (Reg.ETH_STAT p) Fld.ETH_STAT_SPEED
  256 * (if sp = 2 then 8 else if sp = 1 then 48 else 408)

/-- A stamp of a frame at the balls near an instant in 1/256 ns (R292), shifted by a delay; modulo 2^32 ns. -/
def Dev.frameStamp (d : Dev) (p : Port) (t8 : Int) (delay : Int) : Nat :=
  ((t8 + clampI (- d.stampAcc p) (d.stampAcc p) (Config.freeDev d.freeCount) + 256 * delay) % (2 ^ 40 : Int)).toNat

/-- The port runs: on, and the NET domain has its clock. -/
def Dev.ethOn (d : Dev) (p : Port) : Bool := d.flag (Reg.ETH_CFG p) Fld.ETH_CFG_EN && d.netClock

/-- The port runs and its link is up. -/
def Dev.ethUp (d : Dev) (p : Port) : Bool := d.ethOn p && d.flag (Reg.ETH_STAT p) Fld.ETH_STAT_LINK

/-- The port's own address, as a number. -/
def Dev.ethMac (d : Dev) (p : Port) : Nat :=
  (d.rd (Reg.ETH_MAC_HI p)).toNat % 2 ^ 16 * 2 ^ 32 + (d.rd (Reg.ETH_MAC_LO p)).toNat

/-- The address filter of a port (R291, R317). -/
def Dev.ethAccepts (d : Dev) (p : Port) (dst : Nat) : Bool :=
  if dst / 2 ^ 40 % 2 = 0 then decide (dst = d.ethMac p)
  else decide (dst = 0xFFFFFFFFFFFF) ||
    (d.flag (Reg.PTP_CFG p) Fld.PTP_CFG_L2 && (decide (dst = 0x011B19000000) || decide (dst = 0x0180C200000E))) ||
    (upTo 4).any (fun i =>
      let hi := (d.rd (Reg.ETH_MCF_HI p i)).toNat
      decide (bitsN hi 31 31 = 1) && decide (dst = hi % 2 ^ 16 * 2 ^ 32 + (d.rd (Reg.ETH_MCF_LO p i)).toNat))

/-- The receive class of an accepted frame (R317). -/
def Dev.ethClass (d : Dev) (p : Port) (f : List Byte) : Nat :=
  if (d.ptpAt p f).isSome then 0
  else if beAt f 12 2 = 0x8100 ∧ 4 ≤ beAt f 14 1 / 32 then 1
  else if beAt f 0 1 % 2 = 1 then 2
  else 3

/-! ### Foreign masters (R303, R304) -/

/-- The data set of a foreign-master entry, from its words FM_W0 to FM_W6: the grandmaster's priority1, class, accuracy,
variance, priority2 and identity; the grandmaster, the steps, the sender. -/
structure FmSet where
  quality : List Nat
  gm : Nat
  steps : Nat
  sender : List Nat
  deriving DecidableEq, Repr

/-- The lexicographic order of two equally long lists of numbers. -/
def lexLt : List Nat → List Nat → Bool
  | a :: as, b :: bs => decide (a < b) || (decide (a = b) && lexLt as bs)
  | _, _ => false

/-- The data-set comparison of IEEE 1588-2019, 9.3.4, for two masters heard at one port: a is better than b. -/
def FmSet.better (a b : FmSet) : Bool :=
  if a.gm = b.gm then lexLt (a.steps :: a.sender) (b.steps :: b.sender)
  else lexLt (a.quality ++ [a.gm]) (b.quality ++ [b.gm])

/-- The data set of entry i. -/
def Dev.fmSet (d : Dev) (p i : Nat) : FmSet :=
  let w3 := (d.rd (Reg.FM_W3 p i)).toNat
  let w4 := (d.rd (Reg.FM_W4 p i)).toNat
  { quality := [bitsN w3 31 24, bitsN w3 23 16, bitsN w3 15 8, bitsN w4 31 16, bitsN w3 7 0]
    gm := (d.rd (Reg.FM_W5 p i)).toNat * 2 ^ 32 + (d.rd (Reg.FM_W6 p i)).toNat
    steps := bitsN w4 15 0
    sender := [(d.rd (Reg.FM_W0 p i)).toNat, (d.rd (Reg.FM_W1 p i)).toNat, (d.rd (Reg.FM_W2 p i)).toNat / 2 ^ 16] }

/-- The data set of an Announce message. -/
def announceSet (m : List Byte) : FmSet :=
  { quality := [beAt m 47 1, beAt m 48 1, beAt m 49 1, beAt m 50 2, beAt m 52 1]
    gm := beAt m 53 8
    steps := beAt m 61 2
    sender := [beAt m 20 4, beAt m 24 4, beAt m 28 2] }

/-- Entry i of the table is in use. -/
def Dev.fmUsed (d : Dev) (p i : Nat) : Bool := wbit (d.rd (Reg.FM_STAT p)) i

/-- FM_STAT.BEST and BEST_VALID after a change of the table: the best qualified entry. -/
def Dev.fmBest (d : Dev) (p : Nat) : Dev :=
  let cand := (upTo 4).filter (fun i => d.fmUsed p i && wbit (d.rd (Reg.FM_W2 p i)) 7)
  match cand with
  | [] => (d.put (Reg.FM_STAT p) Fld.FM_STAT_BEST_VALID 0).put (Reg.FM_STAT p) Fld.FM_STAT_BEST 0
  | i :: t =>
    let b := t.foldl (fun b j => if (d.fmSet p j).better (d.fmSet p b) then j else b) i
    (d.put (Reg.FM_STAT p) Fld.FM_STAT_BEST_VALID 1).put (Reg.FM_STAT p) Fld.FM_STAT_BEST b

/-- The announce interval of a message, in ns: 2^logMessageInterval seconds. -/
def announceNs (m : List Byte) : Nat :=
  let e := sgn 8 (beAt m 33 1)
  if 0 ≤ e then 1000000000 * 2 ^ e.toNat else 1000000000 / 2 ^ (- e).toNat

/-- Entry i takes an Announce: its words, and COUNT over the last four intervals with QUALIFIED at 2 (R303). -/
def Dev.fmTake (d : Dev) (p : Port) (i : Fin 4) (m : List Byte) (old : List Nat) : Dev :=
  let iv := announceNs m
  let now := d.timeNs
  let times := now :: (old.filter (fun t => decide (now < t + 4 * iv))).take 254
  let s := announceSet m
  let q (k : Nat) : Nat := s.quality.getD k 0
  let w2 := beAt m 28 2 * 2 ^ 16 + times.length * 256 + (if 2 ≤ times.length then 128 else 0)
  let d1 := { d with eth := d.eth.upd p (fun e => { e with fm := e.fm.set i ⟨times, iv⟩ }) }
  let ws := [beAt m 20 4, beAt m 24 4, w2, q 0 * 2 ^ 24 + q 1 * 2 ^ 16 + q 2 * 256 + q 4, q 3 * 2 ^ 16 + s.steps,
    s.gm / 2 ^ 32, s.gm % 2 ^ 32, now % 2 ^ 32]
  let d2 := ((upTo 8).zip ws).foldl (fun d e => d.wr (Reg.FM_W0 p i + 4 * e.1) (natW e.2)) d1
  (d2.wr (Reg.FM_STAT p) (d2.rd (Reg.FM_STAT p) ||| natW (2 ^ i.val))).fmBest p

/-- An Announce message at a port (R303, R304): it updates the entry of its source, takes a free entry, or replaces the
worst entry when it is better; otherwise it is dropped and counted. -/
def Dev.announce (d : Dev) (p : Port) (m : List Byte) : Dev :=
  let cfg := Reg.PTP_CFG p
  let ok := d.flag cfg Fld.PTP_CFG_EN && decide (64 ≤ m.length) && decide (beAt m 0 1 % 16 = 0xB) &&
    decide (beAt m 1 1 % 16 = 2) && decide (beAt m 1 1 / 16 < 2) && decide (beAt m 4 1 = d.fld cfg Fld.PTP_CFG_DOMAIN) &&
    decide (beAt m 0 1 / 16 = d.fld cfg Fld.PTP_CFG_SDOID) &&
    !(decide (beAt m 20 4 = (d.rd (Reg.PTP_ID_HI p)).toNat) && decide (beAt m 24 4 = (d.rd (Reg.PTP_ID_LO p)).toNat)) &&
    decide (beAt m 61 2 < 255)
  let ix : List (Fin 4) := [0, 1, 2, 3]
  if !ok then d
  else
    let s := announceSet m
    match ix.find? (fun (i : Fin 4) => d.fmUsed p i && decide ((d.fmSet p i).sender = s.sender)) with
    | some i => d.fmTake p i m ((d.eth.get p).fm.get i).times
    | none =>
      match ix.find? (fun (i : Fin 4) => !d.fmUsed p i) with
      | some i => d.fmTake p i m []
      | none =>
        let worst := ix.foldl (fun (w i : Fin 4) => if (d.fmSet p w).better (d.fmSet p i) then i else w) 0
        if s.better (d.fmSet p worst) then d.fmTake p worst m []
        else (d.bump (Reg.FM_STAT p) Fld.FM_STAT_DROP).pulse 29

/-- FM_TIMEOUT (R303): an entry that received no Announce is freed. -/
def fmTimeout (p : Port) (i : Fin 4) (d : Dev) : Dev :=
  if d.fmUsed p i then
    let d1 := { d with eth := d.eth.upd p (fun e => { e with fm := e.fm.set i {} }) }
    let d2 := (upTo 8).foldl (fun d w => d.wr (Reg.FM_W0 p i + 4 * w) 0) d1
    (d2.wr (Reg.FM_STAT p) (d2.rd (Reg.FM_STAT p) &&& ~~~natW (2 ^ i.val))).fmBest p
  else d

/-- ETH_FRAME_RX (R291, R292, R317): a frame of 64 to 1,522 bytes with a good FCS that is no pause frame, has at most
one VLAN tag and passes the filter is stamped and goes to the queue of its class, without its FCS
(notes/assumptions/41.md). An Announce enters the foreign-master table. -/
def ethFrameRx (p : Port) (frame : List Byte) (d : Dev) : Dev :=
  let n := frame.length
  if !d.ethUp p then d
  else if n < 64 ∨ 1522 < n ∨ bytesNat (frame.drop (n - 4)) ≠ crc32 (frame.take (n - 4)) then
    d.bump (Reg.ETH_CNT p) Fld.ETH_CNT_RX_ERR
  else
    let f := frame.take (n - 4)
    let ty := beAt f (frameType f) 2
    if (beAt f 12 2 = 0x8100 ∧ beAt f 16 2 = 0x8100) ∨ (ty = 0x8808 ∧ beAt f (frameType f + 2) 2 = 1) ∨
        !d.ethAccepts p (beAt f 0 6) then d
    else
      let t8 := d.frameStamp p d.time8 (- (d.fld (Reg.ETH_DELAY p) Fld.ETH_DELAY_RX : Int))
      let c := d.ethClass p f
      let w0 := 0x84000000 + b2n d.timeInv * 0x2000000 + t8 % 256 * 2 ^ 16 + f.length
      let d1 := d.tickFree.qPush (8 * p.val + 4 + c) (natW w0) 0 (natW c) (natW (t8 / 256)) f
      match d.ptpAt p f with
      | some (h, _) => d1.announce p (f.drop h)
      | none => d1

/-! ### Transmission -/

/-- Whether a ring entry is in a launch slot or already completed. -/
def EthPort.taken (e : EthPort) (q r : Nat) : Bool :=
  e.slots.any (fun s => decide (s.queue = q) && decide (s.ring = r)) || e.done.contains (q, r)

/-- The entry at the head of a transmit queue (R305): the first that is neither in a slot nor completed. -/
def Dev.ethHead (d : Dev) (p : Port) (q : Nat) : Option Nat :=
  if d.qLog q < 2 then none
  else
    ((upTo (d.qFill q)).map (fun j => (d.qGet q + j) % (2 * d.qLen q))).find? (fun r => !(d.eth.get p).taken q r)

/-- A descriptor asks for a timed launch. -/
def Dev.ethTimed (d : Dev) (q r : Nat) : Bool := wbit (d.qWord q r 0) 28

/-- GET moves past every completed entry at its front (R315). -/
def Dev.ethRetire (d : Dev) (p : Port) (q : Nat) : Nat → Dev
  | 0 => d
  | n + 1 =>
    if (d.eth.get p).done.contains (q, d.qGet q) && d.qHas q then
      Dev.ethRetire ({ d with eth := d.eth.upd p (fun e => { e with done := e.done.erase (q, d.qGet q) }) }.qAdvance q) p q n
    else d

/-- An entry is completed: written back, and retired once it stands at the front. -/
def Dev.ethComplete (d : Dev) (p : Port) (q r : Nat) (bits : W) (stamp : Option Nat) : Dev :=
  let d1 := d.qWriteBack q r bits stamp d.timeInv
  let d2 := { d1 with eth := d1.eth.upd p (fun e => { e with
    slots := e.slots.filter (fun s => !(decide (s.queue = q) && decide (s.ring = r))), done := e.done ++ [(q, r)] }) }
  d2.ethRetire p q (2 * d2.qLen q)

/-- The bytes of an entry. -/
def Dev.ethBytes (d : Dev) (q r : Nat) : List Byte :=
  Memory.readBytes d.pool (d.qData q r) (bitsN (d.qWord q r 0).toNat 15 0)

/-- An entry's LEN is not 0 and fits its buffer (R316). -/
def Dev.ethLenOk (d : Dev) (q r : Nat) : Bool :=
  let n := bitsN (d.qWord q r 0).toNat 15 0
  decide (0 < n) && decide (n ≤ d.qBuf q)

/-- A frame padded to the least length of Ethernet, without its FCS. -/
def ethPad (f : List Byte) : List Byte := f ++ List.replicate (60 - f.length) 0

/-- An entry leaves at the balls near an instant in 1/256 ns (R292, R302): the one-step correction, or OS_FAIL where no
PTP header is found; the FCS; the stamp in the write-back. -/
def Dev.ethSend (d : Dev) (p : Port) (q r : Nat) (at8 : Int) : Dev :=
  let t8 := d.frameStamp p at8 (d.fld (Reg.ETH_DELAY p) Fld.ETH_DELAY_TX)
  let f := d.ethBytes q r
  let one := wbit (d.qWord q r 0) 27
  let fixed := if one then d.oneStep p f t8 (d.qWord q r 2) else some f
  let d1 := match fixed with | some _ => d | none => d.bump (Reg.ETH_CNT p) Fld.ETH_CNT_OS_FAIL
  let out := ethPad (fixed.getD f)
  let d2 := { d1 with eth := d1.eth.upd p (fun e => { e with lastTx := out ++ natBytes 4 (crc32 out) }) }
  d2.tickFree.ethComplete p q r 0 (some t8)

/-- The ns that a frame occupies at the balls, with its preamble and the interframe gap. -/
def Dev.ethNs (d : Dev) (p : Port) (q r : Nat) : Nat :=
  let sp := d.fld (Reg.ETH_STAT p) Fld.ETH_STAT_SPEED
  (8 + max 60 (bitsN (d.qWord q r 0).toNat 15 0) + 4 + 12) * (if sp = 2 then 8 else if sp = 1 then 80 else 800)

/-- ETH_FRAME_TX (R306, R317): the lowest-numbered queue with an untimed head is served, and its frame starts when it
ends before the earliest launch; an entry without a valid LEN is completed with ERR. -/
def ethFrameTx (p : Port) (d : Dev) : Dev :=
  let qs := [8 * p.val, 8 * p.val + 1, 8 * p.val + 2, 8 * p.val + 3]
  let heads := qs.filterMap (fun q => (d.ethHead p q).bind (fun r => if d.ethTimed q r then none else some (q, r)))
  if !d.ethUp p then d
  else
    match heads with
    | [] => d
    | (q, r) :: _ =>
      if !d.ethLenOk q r then d.ethComplete p q r 0x40000000 none
      else if decide ((d.eth.get p).busy ≤ d.up) &&
          (d.eth.get p).slots.all (fun s => decide (d.ethNs p q r < (s.l - d.stamp).toNat)) then d.ethSend p q r d.time8
      else d

/-- A timed frame is dropped (R307): completed with MISSED, counted, LAUNCH_MISSED raised. -/
def Dev.ethMiss (d : Dev) (p : Port) (q r : Nat) : Dev :=
  ((d.ethComplete p q r 0x20000000 none).bump (Reg.LAUNCH_STAT p) Fld.LAUNCH_STAT_MISSED).pulse 30

/-- A launch time lies in the past (R300, R307): T has passed it by more than the TIME clock that reaches it. -/
def Dev.launchPast (d : Dev) (l : W) : Bool := decide (2 ^ 31 ≤ (l - d.stamp).toNat) && decide (8 ≤ (d.stamp - l).toNat)

/-- The launch of a frame that waits in its queue can no longer be met (R307). -/
def Dev.launchLost (d : Dev) (l : W) : Bool :=
  let left := (l - d.stamp).toNat
  decide (left < 2000) || decide (2 ^ 31 ≤ left)

/-- LAUNCH_SLOT_LOAD (R305, R307): the timed frame at the head of the lowest-numbered queue that has one takes a free
slot, or is dropped where its launch can no longer be met. An entry without a valid LEN is completed with ERR. -/
def launchSlotLoad (p : Port) (d : Dev) : Dev :=
  let qs := [8 * p.val, 8 * p.val + 1, 8 * p.val + 2, 8 * p.val + 3]
  let heads := qs.filterMap (fun q => (d.ethHead p q).bind (fun r => if d.ethTimed q r then some (q, r) else none))
  let slots := (d.eth.get p).slots
  if !d.ethOn p then d
  else
    match heads, (upTo 16).find? (fun i => !slots.any (fun s => decide (s.slot = i))) with
    | (q, r) :: _, some i =>
      if !d.ethLenOk q r then d.ethComplete p q r 0x40000000 none
      else if d.launchLost (d.qWord q r 1) then d.ethMiss p q r
      else { d with eth := d.eth.upd p (fun e => { e with slots := e.slots ++ [⟨i, q, r, d.qWord q r 1⟩] }) }
    | _, _ => d

/-- The frame of a slot at its launch time (R305, R307): it leaves, unless the link is down or the port still sends an
earlier timed frame. -/
def Dev.launch (d : Dev) (p : Port) (s : LaunchSlot) : Dev :=
  let ahead := sgn 32 (s.l.toNat + 2 ^ 32 - d.stamp.toNat % 2 ^ 32)
  let start := d.up + ahead.toNat / 4
  if d.ethUp p && decide ((d.eth.get p).busy ≤ start) then
    let stop := start + (d.ethNs p s.queue s.ring + 3) / 4
    let d1 : Dev := { d with eth := d.eth.upd p (fun e => { e with busy := stop }) }
    d1.ethSend p s.queue s.ring ((d.time8 : Int) + 256 * ahead - d.time8 % 256)
  else d.ethMiss p s.queue s.ring

/-- TIMED_LAUNCH (R300, R305, R307): when T reaches L, which is compared with T as it stands, the frame of the slot
leaves, or, of several slots with the same L, the one of the lowest-numbered queue, and the others are dropped. One
whose L a step has put in the past is dropped, one whose L is still to come waits. While the counter is halted nothing
is launched (R301). -/
def timedLaunch (p : Port) (i : Fin 16) (d : Dev) : Dev :=
  let slots := (d.eth.get p).slots
  match slots.find? (fun s => decide (s.slot = i.val)) with
  | none => d
  | some s0 =>
    if d.timeInv || !d.ethOn p then d
    else if d.launchPast s0.l then d.ethMiss p s0.queue s0.ring
    else if decide (2000 ≤ (s0.l - d.stamp).toNat) && decide (8 ≤ (d.stamp - s0.l).toNat) then d
    else
      let same := slots.filter (fun s => decide (s.l = s0.l))
      let w := same.foldl (fun w s => if s.queue < w.queue then s else w) s0
      (same.filter (fun s => s != w)).foldl (fun d s => d.ethMiss p s.queue s.ring) (d.launch p w)

/-- LAUNCH_MISSED (R307): the frame in the named slot is dropped when its L lies in the past; without a slot, the first
timed frame that waits in queue 8p + q and can no longer be launched. -/
def launchMissed (p : Port) (q : Fin 4) (slot : Option (Fin 16)) (d : Dev) : Dev :=
  let qn := 8 * p.val + q.val
  match slot with
  | some i =>
    match (d.eth.get p).slots.find? (fun s => decide (s.slot = i.val) && decide (s.queue = qn)) with
    | some s => if d.launchPast s.l then d.ethMiss p qn s.ring else d
    | none => d
  | none =>
    if d.qLog qn < 2 then d
    else
      match ((upTo (d.qFill qn)).map (fun j => (d.qGet qn + j) % (2 * d.qLen qn))).find? (fun r =>
          !(d.eth.get p).taken qn r && d.ethTimed qn r && d.launchLost (d.qWord qn r 1)) with
      | some r => d.ethMiss p qn r
      | none => d

/-- ETH_LINK_DOWN (R291): LINK clears, the loss is counted and ETH_LINK raised. -/
def ethLinkDown (p : Port) (d : Dev) : Dev :=
  if d.flag (Reg.ETH_STAT p) Fld.ETH_STAT_LINK then
    ((d.put (Reg.ETH_STAT p) Fld.ETH_STAT_LINK 0).bump (Reg.ETH_CNT p) Fld.ETH_CNT_LINK_DOWN).pulse 31
  else d

/-- ETH_LINK_UP (R291): LINK sets and SPEED takes the speed of the SGMII control word; there is no speed 3. -/
def ethLinkUp (p : Port) (speed : BitVec 2) (d : Dev) : Dev :=
  if speed = 3 then d
  else (d.put (Reg.ETH_STAT p) Fld.ETH_STAT_LINK 1).put (Reg.ETH_STAT p) Fld.ETH_STAT_SPEED speed.toNat

end Sys2Proof.Machine
end

