-- ==== Sys2Proof/Machine/FieldBus.lean ====
section
/-! DEFINITION. The field links: CAN (R320), UART (R321, R322), I2C (R323), the Dorlin links (R324 to R326), and the
queue indices that a host writes (R315). -/

namespace Sys2Proof.Machine

/-! ### Queue indices -/

/-- Whether the host produces into a queue, and so owns PUT (R313). -/
def hostProduces (q : Nat) : Bool :=
  decide (q < 32 ∧ q % 8 < 4) || q == 40 || q == 42 || q == 44 || q == 46

/-- Whether the host owns GET: it consumes every other queue, a section ring only with DEST 0 (R313, R318). -/
def Dev.hostConsumes (d : Dev) (q : Nat) : Bool :=
  !hostProduces q && (decide (q < 56) || decide (d.fld (Reg.Q_CFG q) Fld.Q_CFG_DEST = 0))

/-- A host write of Q_PTR (R315): the index that the host owns moves forward, not past its partner; any other value is
refused with PTR_REF. The index that it does not own is read-only. -/
def Dev.qPtrWrite (d : Dev) (q : Nat) (v : W) : Dev :=
  let n := d.qLen q
  let ref := d.put (Reg.Q_STAT q) Fld.Q_STAT_PTR_REF 1
  let put := bitsN v.toNat 31 16
  let get := bitsN v.toNat 15 0
  if hostProduces q then
    if put = d.qPut q then d
    else if 2 ≤ d.qLog q ∧ put < 2 * n ∧ d.qFill q + (put + 2 * n - d.qPut q) % (2 * n) ≤ n then
      d.put (Reg.Q_PTR q) Fld.Q_PTR_PUT put
    else ref
  else if d.hostConsumes q then
    if get = d.qGet q then d
    else if 2 ≤ d.qLog q ∧ get < 2 * n ∧ (get + 2 * n - d.qGet q) % (2 * n) ≤ d.qFill q then
      d.put (Reg.Q_PTR q) Fld.Q_PTR_GET get
    else ref
  else d

/-- Word 0 of a received entry with a stamp: DONE, TSV, TIMEINV, the fraction, LEN. -/
def Dev.rxWord (d : Dev) (err : Bool) (t8 len : Nat) : W :=
  natW (0x84000000 + b2n err * 0x40000000 + b2n d.timeInv * 0x2000000 + t8 % 256 * 2 ^ 16 + len)

/-- The head entry of a transmit ring leaves: completed with ERR when its LEN is 0 or exceeds its buffer (R316), else
sent and completed with its stamp. -/
def Dev.txHead (d : Dev) (q : Nat) (send : Dev → Dev) : Dev :=
  if !d.qHas q then d
  else if !d.qLenOk q then d.qComplete q 0x40000000 none d.timeInv
  else (send d).qComplete q 0 (some (d.time8 % 2 ^ 40)) d.timeInv

/-! ### CAN FD -/

/-- The port takes part in the bus: on, clocked from NET, and not in bus-off. -/
def Dev.canOn (d : Dev) (n : Fin 2) : Bool :=
  d.flag (Reg.CAN_CFG n) Fld.CAN_CFG_EN && d.netClock && !d.flag (Reg.CAN_STAT n) Fld.CAN_STAT_BUSOFF

/-- The acceptance filters of a port (R320): no filter enabled, or an enabled one with the same IDE bit and the same ID
under its mask. -/
def Dev.canAccepts (d : Dev) (n : Nat) (id : W) : Bool :=
  let on := (upTo 16).filter (fun i => d.flag (Reg.CAN_FLT n i) Fld.CAN_FLT_EN)
  on.isEmpty || on.any (fun i =>
    decide (d.flag (Reg.CAN_FLT n i) Fld.CAN_FLT_IDE = wbit id 31) &&
    decide ((id ^^^ d.rd (Reg.CAN_FLT n i)) &&& d.rd (Reg.CAN_MSK n i) &&& 0x1FFFFFFF = 0))

/-- Error passive follows the error counters (ISO 11898-1). -/
def Dev.canPassive (d : Dev) (n : Nat) : Dev :=
  d.putB (Reg.CAN_STAT n) Fld.CAN_STAT_PASSIVE
    (decide (128 ≤ d.fld (Reg.CAN_STAT n) Fld.CAN_STAT_TEC) || decide (128 ≤ d.fld (Reg.CAN_STAT n) Fld.CAN_STAT_REC))

/-- The length of the data field that a DLC encodes (ISO 11898-1). -/
def canLen (fd : Bool) (dlc : Nat) : Nat :=
  if dlc ≤ 8 then dlc
  else if !fd then 8
  else [12, 16, 20, 24, 32, 48, 64].getD (dlc - 9) 64

/-- The stamp of an instant `ago` (1/256 ns) before now, in 1/256 ns modulo 2^40 (R316). -/
def Dev.stampAgo (d : Dev) (ago : Nat) : Nat := ((d.time8 : Int) - ago).toNat % 2 ^ 40

/-- CAN_FRAME_RX (R320): an accepted frame goes to the receive queue with the stamp of its start of frame, `ago` before
now. A frame that was received takes one from REC, an error-passive receiver going to a count from 119 to 127; an error
adds 1, a dominant bit after the port's own error flag 8 (ISO 11898-1). A port with FD 0 takes no FD frame. -/
def canFrameRx (n : Fin 2) (id flags : W) (data : List Byte) (ago : Nat) (r : CanRx) (d : Dev) : Dev :=
  let rec0 := d.fld (Reg.CAN_STAT n) Fld.CAN_STAT_REC
  if !d.canOn n then d
  else
    match r with
    | .error => (d.put (Reg.CAN_STAT n) Fld.CAN_STAT_REC (min 255 (rec0 + 1))).canPassive n
    | .dominant => (d.put (Reg.CAN_STAT n) Fld.CAN_STAT_REC (min 255 (rec0 + 8))).canPassive n
    | .frame =>
      if wbit id 30 && !d.flag (Reg.CAN_CFG n) Fld.CAN_CFG_FD then d
      else
        let rec1 := if 127 < rec0 then 119 + (Config.freeWord d.freeCount).toNat % 9 else rec0 - 1
        let d1 := ((if 127 < rec0 then d.tickFree else d).put (Reg.CAN_STAT n) Fld.CAN_STAT_REC rec1).canPassive n
        if d1.canAccepts n id then
          let t8 := d1.stampAgo ago
          d1.qPush (41 + 2 * n.val) (d1.rxWord false t8 data.length) id (flags &&& 0x1800000F) (natW (t8 / 256)) data
        else d1

/-- CAN_BUS_OFF (R320): the port leaves the bus and CAN_BUSOFF is raised. TEC has passed the range of its field, and
what the error fields then read is not stated: they are free. -/
def canBusOff (n : Fin 2) (d : Dev) : Dev :=
  if d.canOn n then
    let d1 := (d.put (Reg.CAN_STAT n) Fld.CAN_STAT_BUSOFF 1).put (Reg.CAN_STAT n) Fld.CAN_STAT_TEC
      (Config.freeWord d.freeCount).toNat
    (d1.putB (Reg.CAN_STAT n) Fld.CAN_STAT_PASSIVE (Config.freeBit d.freeCount)).tickFree.pulse 43
  else d

/-- The head entry of a port can be sent: FD only with FD 1, and LEN bytes as its DLC says, but for a remote frame
(notes/assumptions/44.md). -/
def Dev.canEntryOk (d : Dev) (n : Fin 2) : Bool :=
  let q := 40 + 2 * n.val
  let w i := d.qWord q (d.qGet q) i
  let fd := wbit (w 1) 30
  (!fd || d.flag (Reg.CAN_CFG n) Fld.CAN_CFG_FD) &&
    (wbit (w 2) 28 || decide (bitsN (w 0).toNat 15 0 = canLen fd (bitsN (w 2).toNat 3 0)))

/-- CAN_FRAME_TX (R320): the head entry is sent; with lost arbitration or after an error it is retried. An error takes
TEC up by 8, and beyond 255 the port to bus-off (ISO 11898-1). -/
def canFrameTx (n : Fin 2) (r : CanTx) (d : Dev) : Dev :=
  let q := 40 + 2 * n.val
  let tec := d.fld (Reg.CAN_STAT n) Fld.CAN_STAT_TEC
  if !d.canOn n || !d.qHas q then d
  else if !d.canEntryOk n then d.qComplete q 0x40000000 none d.timeInv
  else
    match r with
    | .lost => d
    | .error =>
      if 255 < tec + 8 then canBusOff n d else (d.put (Reg.CAN_STAT n) Fld.CAN_STAT_TEC (tec + 8)).canPassive n
    | .sent =>
      d.txHead q (fun d =>
        let w i := d.qWord q (d.qGet q) i
        let d1 := (d.put (Reg.CAN_STAT n) Fld.CAN_STAT_TEC (tec - 1)).canPassive n
        { d1 with can := Tbl.set (fun _ => ({} : CanPort)) d1.can n ⟨([w 0, w 1, w 2, w 3], d.qPayload q)⟩ })

/-- The port joins the bus again with its error counters at 0 (ISO 11898-1). -/
def Dev.canRecover (d : Dev) (n : Nat) : Dev :=
  if d.flag (Reg.CAN_STAT n) Fld.CAN_STAT_BUSOFF then d.wr (Reg.CAN_STAT n) 0 else d

/-- CAN_AUTO_RECOVER (R320): with AUTO_REC set. -/
def canAutoRecover (n : Fin 2) (d : Dev) : Dev :=
  if d.flag (Reg.CAN_CFG n) Fld.CAN_CFG_AUTO_REC then d.canRecover n else d

/-- A write of CAN_CMD: RECOVER (R320). -/
def Dev.canCmd (d : Dev) (n : Nat) (v : W) : Dev := if wbit v 0 then d.canRecover n else d

/-! ### UART -/

/-- UART_TX (R321, R322): the head entry is sent; while the last gasp owns UART1 its entries wait. -/
def uartTx (n : Fin 2) (d : Dev) : Dev :=
  if !d.flag (Reg.UART_CFG n) Fld.UART_CFG_EN || d.flag (Reg.UART_STAT n) Fld.UART_STAT_LG_BUSY then d
  else d.txHead (44 + 2 * n.val) (fun d =>
    { d with uart := Tbl.set (fun _ => ({} : UartPort)) d.uart n ⟨d.qPayload (44 + 2 * n.val)⟩ })

/-- The last gasp takes UART1 (R322): a transmit entry in progress, which is the head of the queue of a port that is on,
ends at its current character and is completed with ERR. How many characters have left is free. -/
def Dev.uartCut (d : Dev) : Dev :=
  if d.flag (Reg.UART_CFG 1) Fld.UART_CFG_EN && !d.flag (Reg.UART_STAT 1) Fld.UART_STAT_LG_BUSY && d.qHas 46 then
    let sent := (d.qPayload 46).take (Config.freeWord d.freeCount).toNat
    ({ d with uart := Tbl.set (fun _ => ({} : UartPort)) d.uart 1 ⟨sent⟩ } : Dev).tickFree.qComplete 46 0x40000000 none d.timeInv
  else d

/-- The bits of one character of a UART with a UART_CFG: start, eight data, parity, stop (R321, R392). -/
def charBits (cfg : W) : Nat :=
  9 + (if fget Fld.UART_CFG_PARITY cfg = 1 ∨ fget Fld.UART_CFG_PARITY cfg = 2 then 1 else 0) +
    (if fbit Fld.UART_CFG_STOP2 cfg then 2 else 1)

/-- The duration of a character on a UART in 1/256 ns: DIVF times 0.5 ns a bit (R321). -/
def Dev.uartChar (d : Dev) (n : Nat) : Nat := 128 * d.fld (Reg.UART_BAUD n) Fld.UART_BAUD_DIVF * charBits (d.rd (Reg.UART_CFG n))

/-- One receive entry: its characters with their parity and framing errors, the first of which began `ago` before now.
-/
def Dev.uartEntry (d : Dev) (n : Nat) (chars : List (Byte × Bool × Bool)) (ago : Nat) : Dev :=
  let t8 := d.stampAgo ago
  let err := chars.any (fun c => c.2.1 || c.2.2)
  d.qPush (45 + 2 * n) (d.rxWord err t8 chars.length) 0 0 (natW (t8 / 256)) (chars.map (·.1))

/-- The entries of a reception, at most a buffer each: an entry closes when its buffer is full (R321), and the next
begins with the next character. -/
def Dev.uartEntries (n : Nat) : Nat → List (Byte × Bool × Bool) → Nat → Dev → Dev
  | 0, _, _, d => d
  | k + 1, cs, ago, d =>
    if cs.isEmpty then d
    else
      let m := max 1 (d.qBuf (45 + 2 * n))
      Dev.uartEntries n k (cs.drop m) (ago - m * d.uartChar n) (d.uartEntry n (cs.take m) ago)

/-- UART_RX_CLOSE (R321): the characters received since the last close, each with its parity and framing error, the
first begun `ago` (1/256 ns) before now. Without parity there is no parity error. Errors are counted and mark their
entry. -/
def uartRxClose (n : Fin 2) (chars : List (Byte × Bool × Bool)) (ago : Nat) (d : Dev) : Dev :=
  let st := Reg.UART_STAT n
  if !d.flag (Reg.UART_CFG n) Fld.UART_CFG_EN || chars.isEmpty then d
  else
    let par := decide (d.fld (Reg.UART_CFG n) Fld.UART_CFG_PARITY ≠ 0)
    let cs := chars.map (fun c => (c.1, par && c.2.1, c.2.2))
    let d1 := (d.put st Fld.UART_STAT_PAR_ERR (min 255 (d.fld st Fld.UART_STAT_PAR_ERR + (cs.filter (·.2.1)).length))).put st
      Fld.UART_STAT_FRM_ERR (min 255 (d.fld st Fld.UART_STAT_FRM_ERR + (cs.filter (·.2.2)).length))
    Dev.uartEntries n.val cs.length cs ago d1

/-! ### I2C -/

/-- The bytes of the I2C_WDATA registers. -/
def Dev.i2cBytes (d : Dev) (n : Nat) : List Byte := wordBytes (d.rd (Reg.I2C_WDATA n 0)) ++ wordBytes (d.rd (Reg.I2C_WDATA n 1))

/-- The address byte of a transaction: the 7-bit address and the direction, 1 for a read. -/
def i2cAddr (v : W) (rd : Nat) : Byte := BitVec.ofNat 8 (2 * bitsN v.toNat 6 0 + rd)

/-- The bytes that a transaction writes after its address: its data, and with PEC set and nothing to read the packet
error code over address and data (R323). -/
def i2cOut (v : W) (ws : List Byte) : List Byte :=
  if wbit v 30 && decide (bitsN v.toNat 19 16 = 0) then ws ++ [crc8 (i2cAddr v 0 :: ws)] else ws

/-- A write of I2C_CMD (R323): GO starts a transaction, and is refused while BUSY. Lengths above 8 are refused alike
(notes/assumptions/45.md). -/
def Dev.i2cGo (d : Dev) (n : Nat) (v : W) : Dev :=
  let st := Reg.I2C_STAT n
  let wl := bitsN v.toNat 11 8
  if !wbit v 31 then d
  else if d.flag st Fld.I2C_STAT_BUSY || decide (8 < wl) || decide (8 < bitsN v.toNat 19 16) then d.put st Fld.I2C_STAT_REF 1
  else
    { d.put st Fld.I2C_STAT_BUSY 1 with
      i2c := Tbl.set (fun _ => ({} : I2cPort)) d.i2c n ⟨some (v, i2cOut v ((d.i2cBytes n).take wl))⟩ }

/-- The packet error code of a read is wrong (R323): the byte after the RLEN bytes is not the code over both addresses
and all data, or is missing. -/
def i2cPecBad (v : W) (ws rd : List Byte) : Bool :=
  let n := bitsN v.toNat 19 16
  let head := if ws.isEmpty then [] else i2cAddr v 0 :: ws
  wbit v 30 && decide (n ≠ 0) && decide (rd[n]? ≠ some (crc8 (head ++ i2cAddr v 1 :: rd.take n)))

/-- I2C_DONE (R323): the transaction ends, with the bytes that were read and its result bit. -/
def i2cDone (n : Fin 2) (r : I2cResult) (rd : List Byte) (d : Dev) : Dev :=
  let st := Reg.I2C_STAT n
  match (Tbl.get (fun _ => ({} : I2cPort)) d.i2c n).cmd with
  | none => d
  | some (v, sent) =>
    let got := rd.take (bitsN v.toNat 19 16)
    let old := wordBytes (d.rd (Reg.I2C_RDATA n 0)) ++ wordBytes (d.rd (Reg.I2C_RDATA n 1))
    let ws := bytesWords (putAt old 0 got)
    let d1 := (d.wr (Reg.I2C_RDATA n 0) (ws.getD 0 0)).wr (Reg.I2C_RDATA n 1) (ws.getD 1 0)
    let d2 := { d1 with i2c := Tbl.set (fun _ => ({} : I2cPort)) d1.i2c n {} }
    let f := match r with
      | .done => if i2cPecBad v sent rd then Fld.I2C_STAT_PEC_ERR else Fld.I2C_STAT_DONE
      | .nack => Fld.I2C_STAT_NACK | .arb => Fld.I2C_STAT_ARB | .timeout => Fld.I2C_STAT_TIMEOUT
    (d2.put st Fld.I2C_STAT_BUSY 0).put st f 1

/-! ### Dorlin links -/

/-- Link j replaced. -/
def Dev.setDl (d : Dev) (j : Nat) (l : DlLink) : Dev := { d with dl := Tbl.set (fun _ => ({} : DlLink)) d.dl j l }

/-- Link j. -/
def Dev.dl1 (d : Dev) (j : Nat) : DlLink := Tbl.get (fun _ => ({} : DlLink)) d.dl j

/-- Byte i of the latest valid upward frame of link j. -/
def Dev.dlByte (d : Dev) (j i : Nat) : Nat := bitsN (d.rd (Reg.DL_UP j (i / 4))).toNat (8 * (i % 4) + 7) (8 * (i % 4))

/-- The alarm bits of the latest valid frames at the detectors of a section (R259). -/
def Dev.alarmRoute (d : Dev) (s : Sec) : Dev :=
  d.onSec s (fun x => (upTo 32).foldl (fun x i =>
    let j := 2 * s.val + i / 16
    x.route (0x100 + i) (Nat.testBit (d.dlByte j 10 + 256 * d.dlByte j 11) (i % 16))) x)

/-- The temperature of the driver board of local leg l of section s in 1/16 °C: link l div 2 of the section, its board
A or B (R324). -/
def Dev.boardTemp (d : Dev) (s : Sec) (l : Fin 4) : Int :=
  let j := 2 * s.val + l.val / 2
  let o := 2 + 2 * (l.val % 2)
  sgn 16 (d.dlByte j o + 256 * d.dlByte j (o + 1))

/-- The thermal units of the bridges that link j serves, at a valid frame (R216): TMAX is the highest temperature of the
boards of the bridge's legs whose link is VALID, in °C / 256 as an engine word, and is valid from now on. -/
def Dev.thermUpdate (d : Dev) (j : Fin 8) : Dev :=
  let s : Sec := ⟨j.val / 2, by omega⟩
  ([0, 1, 2, 3] : List Bridge).foldl (fun d b =>
    let legs := (d.sc s).brLegs b
    let live := legs.filter (fun l => d.flag (Reg.DL_STAT (2 * s.val + l.val / 2)) Fld.DL_STAT_VALID)
    if decide (((d.sc s).bridges.get b).kind = 0) || !legs.any (fun l => decide (2 * s.val + l.val / 2 = j.val)) then d
    else
      match live.map (d.boardTemp s) with
      | [] => d
      | t :: ts => d.onSec s (fun x =>
          (x.wr (Reg.BR_TMAX b.val) (intW (ts.foldl max t * 2 ^ 15))).put (Reg.BR_STAT b.val) Fld.BR_STAT_THERM_OK 1)) d

/-- DL_FRAME_RX (R325): a frame with a code error or a bad CRC is counted and discarded; a valid frame replaces DL_UP,
is logged, builds the identity records over sixteen consecutive SEQ, gives the bridges their temperatures (R216), and
drives the routed alarm detectors (R259). The log entry carries no stamp (notes/assumptions/46.md). -/
def dlFrameRx (j : Fin 8) (frame : List Byte) (codeErr : Bool) (d : Dev) : Dev :=
  let st := Reg.DL_STAT j
  let b (i : Nat) : Byte := frame.getD i 0
  if !d.flag (Reg.DL_CFG j) Fld.DL_CFG_EN then d
  else if codeErr || decide (frame.length ≠ 16) || decide (b 0 ≠ 0xBC) then d.bump st Fld.DL_STAT_CODE_ERR
  else if crc16 ((frame.drop 1).take 13) ≠ (b 14).toNat * 256 + (b 15).toNat then d.bump st Fld.DL_STAT_CRC_ERR
  else
    let l := d.dl1 j
    let seq := (b 1).toNat / 16
    let run := if l.lastSeq = some ((seq + 15) % 16) then min 16 (l.run + 1) else 1
    let l1 := { l with run := run, lastSeq := some seq, idA := l.idA.set seq (b 12), idB := l.idB.set seq (b 13)
                       stamp := d.up, lost := false }
    let d1 := ((upTo 4).zip (bytesWords frame)).foldl (fun d e => d.wr (Reg.DL_UP j e.1) e.2) (d.setDl j l1)
    let d2 := if run = 16 then
        let d3 := ((upTo 8).zip (bytesWords (l1.idA ++ l1.idB))).foldl (fun d e => d.wr (Reg.DL_ID j e.1) e.2) d1
        (d3.put st Fld.DL_STAT_ID_A 1).put st Fld.DL_STAT_ID_B 1
      else d1
    let d4 := (d2.put st Fld.DL_STAT_VALID 1).qPush (48 + j.val) (natW (0x80000000 + 13)) 0 0 0 ((frame.drop 1).take 13)
    (d4.thermUpdate j).alarmRoute ⟨j.val / 2, by omega⟩

/-- DL_FRAME_TX (R324): the next downward frame. -/
def dlFrameTx (j : Fin 8) (d : Dev) : Dev :=
  if d.flag (Reg.DL_CFG j) Fld.DL_CFG_EN then
    let l := d.dl1 j
    let body := BitVec.ofNat 8 (l.seq * 16 + 1) :: l.down
    d.setDl j { l with seq := (l.seq + 1) % 16, lastDown := 0xBC :: body ++ beBytes 2 (crc16 body) }
  else d

/-- DL_LOST (R325): an enabled link has had no valid frame for TIMEOUT frame periods: VALID clears and DL_LOST is
raised, once until the next valid frame. -/
def dlLost (j : Fin 8) (d : Dev) : Dev :=
  if d.flag (Reg.DL_CFG j) Fld.DL_CFG_EN && !(d.dl1 j).lost then
    ((d.setDl j { d.dl1 j with lost := true }).put (Reg.DL_STAT j) Fld.DL_STAT_VALID 0).pulse 42
  else d

/-- A write of DL_CFG: a link that is off looks for no frame, and once on again for the first one anew. -/
def Dev.dlCfg (d : Dev) (j : Nat) (m : W) : Dev :=
  let d1 := d.wr (Reg.DL_CFG j) m
  if fbit Fld.DL_CFG_EN m then d1 else d1.setDl j { d1.dl1 j with lost := false }

/-- A write of DL_CMD (R325): GO makes the next downward frame and every later one carry DL_DOWN0 to DL_DOWN2. -/
def Dev.dlCmd (d : Dev) (j : Nat) (v : W) : Dev :=
  if wbit v 0 then
    d.setDl j { d.dl1 j with down := (upTo 3).flatMap (fun i => wordBytes (d.rd (Reg.DL_DOWN j i))) }
  else d

end Sys2Proof.Machine
end

