-- ==== Sys2Proof/Machine/Outputs.lean ====
section
/-! DEFINITION. What a section's commands bring about outside it: the contactor requests at the safety outputs (R207,
R287) and the records of bridge-state changes (R319). Every command of a section goes through `Dev.secDo`. -/

namespace Sys2Proof.Machine

/-- SAFE_STATE.STATE (R284): 0 INIT, 1 TRIPPED, 2 READY, 3 RAMP, 4 LOCKOUT. -/
def Dev.safeSt (d : Dev) : Nat := d.fld Reg.SAFE_STATE Fld.SAFE_STATE_STATE

/-- FBK_MODE of the adopted seal: read-back only (R282). -/
def Dev.fbkMode (d : Dev) : Bool := wbit (d.rd Reg.SAFE_SEAL) 13

/-- SAFE_OUT.CLOSED: the contactors whose main contacts are closed. -/
def Dev.soClosed (d : Dev) : BitVec 4 := BitVec.ofNat 4 (d.fld Reg.SAFE_OUT Fld.SAFE_OUT_CLOSED)

/-- The outputs that count as confirmed (R207, R287). -/
def Dev.soConfirmed (d : Dev) : BitVec 4 := if d.fbkMode then d.safe.conf else d.soClosed

/-- The outputs that any bridge of the device requests (R207). -/
def Dev.soRequests (d : Dev) : BitVec 3 :=
  (d.sc 0).soAll ||| (d.sc 1).soAll ||| (d.sc 2).soAll ||| (d.sc 3).soAll

/-- The output levels replaced (R287): the read-back follows the output, but where it was found high without it. -/
def Dev.setSo (d : Dev) (so : BitVec 4) : Dev :=
  let stuck : BitVec 4 := BitVec.ofNat 4 (d.fld Reg.SAFE_OUT Fld.SAFE_OUT_SOMON) &&&
    ~~~(BitVec.ofNat 4 (d.fld Reg.SAFE_OUT Fld.SAFE_OUT_SO))
  let d1 := (d.put Reg.SAFE_OUT Fld.SAFE_OUT_SO so.toNat).put Reg.SAFE_OUT Fld.SAFE_OUT_SOMON (so ||| stuck).toNat
  { d1 with safe := { d1.safe with conf := d1.safe.conf &&& so } }

/-- SO0 to SO2 follow their requests (R287): energised only in READY; in RAMP an output keeps its level. A change opens
the 100 ms in which the contactor follows. -/
def Dev.soSync (d : Dev) : Dev :=
  let req := d.soRequests
  let d1 := d.put Reg.SAFE_OUT Fld.SAFE_OUT_REQ req.toNat
  if d1.safeSt = 2 then
    let old : BitVec 4 := BitVec.ofNat 4 (d1.fld Reg.SAFE_OUT Fld.SAFE_OUT_SO)
    let so : BitVec 4 := (old &&& 8) ||| req.zeroExtend 4
    let d2 := d1.setSo so
    { d2 with safe := { d2.safe with win := d2.safe.win ||| (old ^^^ so) } }
  else d1

/-- The records of the bridges of a section whose state has changed (R319). -/
def Dev.bridgeEvents (d : Dev) (s : Sec) (old : SecState) : Dev :=
  (upTo 4).foldl (fun d b =>
    if old.brState b = (d.sc s).brState b then d
    else d.stateEvent 4 (natW (16 * s.val + b)) ((d.sc s).rd (Reg.BR_STAT b))) d

/-- The part of port k in compatibility mode changed. -/
def Dev.onCp (d : Dev) (k : Port) (f : CompatPort → CompatPort) : Dev :=
  { d with hp := d.hp.upd k (fun p => { p with cp := f p.cp }) }

/-- What the claiming port of section s sees of a change (R365, EVCNT): B0 that leaves RUN or STOPPING for another cause
than a RUN write clears RUN and sets ESD, and activations of the trip inputs are counted. -/
def Dev.compatWatch (d : Dev) (s : Sec) (old : SecState) : Dev :=
  if d.portCompat s.val then
    let x := d.sc s
    let was := old.brState 0
    let now := x.brState 0
    let trips := ((upTo 4).filter (fun m => wbit (x.rd Reg.WM_LATCH) (8 + m) && !wbit (old.rd Reg.WM_LATCH) (8 + m))).length
    d.onCp s (fun p =>
      let own := !p.run && (decide (was = 4 ∧ now = 6) || decide (was = 6 ∧ now = 0))
      let p1 := if decide (was = 4 ∨ was = 6) && decide (now ≠ was) && !own then { p with run := false, esd := true } else p
      { p1 with tripEv := min 255 (p1.tripEv + trips) })
  else d

/-- What follows a change inside section s: latches take their bridges to SAFE (R205), the contactor requests follow,
and changes of bridge states are recorded and seen by a claiming port. -/
def Dev.secAct (d : Dev) (s : Sec) (f : Dev → Dev) : Dev :=
  ((((f d).onSec s (·.brLatches)).soSync).bridgeEvents s (d.sc s)).compatWatch s (d.sc s)

/-- A section command carried out. -/
def Dev.secDo (d : Dev) (s : Sec) (f : SecState → SecState) : Dev := d.secAct s (fun d => d.onSec s f)

/-- The logic of a section is there: the section is neither OFF nor REJECTED (R22, R26). -/
def Dev.secUp (d : Dev) (s : Sec) : Bool := decide (d.secSt s ≠ 0) && decide (d.secSt s ≠ 2)

/-- A section command, carried out where the section's logic is there. -/
def Dev.secIf (d : Dev) (s : Sec) (f : SecState → SecState) : Dev := if d.secUp s then d.secDo s f else d

end Sys2Proof.Machine
end

