-- ==== Sys2Proof/Machine/Tick.lean ====
section
/-! DEFINITION. The tick of a section (R12 to R18, R150 to R174): its start, what ends a run, mismatches and stale
ticks, the commit, and the part that ticks have in couching (R349 to R352). -/

namespace Sys2Proof.Machine

/-! ### Couching hooks that ticks need -/

/-- COUCH_STAT.PHASE of a section. -/
def Dev.couchPhase (d : Dev) (s : Sec) : Nat := d.fld (Reg.COUCH_STAT s.val) Fld.COUCH_STAT_PHASE

/-- The couching state of a section changed. -/
def SecState.onCouch (x : SecState) (f : Couch → Couch) : SecState := { x with couch := f x.couch }

/-- The proof ticks that must pass (R50). -/
def Dev.proofTicks (d : Dev) (s : Sec) : Nat :=
  let n := bitsN (d.policy.get s).toNat 31 16
  if n = 0 then 1024 else n

/-- A couching is abandoned before takeover (R353): the reason, COUCH_ABANDON, UPDATE_REJ for reason 0x4, and the
proof entry rejected for reasons 0x4, 0x9 and 0xA. Engine B is to be reloaded and to rejoin. -/
def Dev.couchAbandon (d : Dev) (s : Sec) (reason : Nat) : Dev :=
  let d1 := ((d.put (Reg.COUCH_STAT s.val) Fld.COUCH_STAT_REASON reason).put (Reg.COUCH_STAT s.val)
    Fld.COUCH_STAT_PHASE 6).pulse 39
  let d2 := if reason = 4 then d1.pulse 38 else d1
  let d3 : Dev := if reason = 4 ∨ reason = 9 ∨ reason = 10 then
    { d2 with nvOut := d2.nvOut ++ [.proofStatus (s.val + 1) 2] } else d2
  ({ d3 with crypto := d3.crypto.erase (4 + s.val) } : Dev).onSec s (fun x => { x with
    couch := { back := true }
    eng := { x.eng with prun := none } })

/-- A compare value set resolved for a leg: X of word j, and the scale 16 p PRD (R101, R350). -/
def SecState.resolveSet (x : SecState) (l : Fin 4) (w : List W) (j : Nat) : Nat :=
  let L := x.lg l
  let prd := max 16 ((w.getD 0 0).toNat % 65536)
  (resolveX L.cfg L.lim (w.getD (1 + j) 0) prd).1

/-- The tolerance of COUCH_TOL holds for every compare of the legs in a COMMIT mask (R350). -/
def SecState.proofTol (x : SecState) (tol legs : Nat) (w : Quad (List W)) : Bool :=
  tol == 0 || ([0, 1, 2, 3] : List (Fin 4)).all (fun l =>
    !Nat.testBit legs l.val || (upTo 6).all (fun j =>
      let a := x.shadow l
      let xa : Int := x.resolveSet l a j
      let xb : Int := x.resolveSet l (w.get l) j
      let prd := max 16 ((a.getD 0 0).toNat % 65536)
      decide ((xb - xa).natAbs * 65536 ≤ tol * (16 * presc (x.lg l).cfg * prd))))

/-- The outcome of a proof tick once both engines have committed (R350). -/
def Dev.proofEval (d : Dev) (s : Sec) : Dev :=
  let x := d.sc s
  match x.couch.done, x.eng.prun with
  | some legs, some r =>
    if !x.couch.aDone then d
    else if x.proofTol (d.fld (Reg.COUCH_TOL s.val) Fld.COUCH_TOL_TOL) legs r.buf then
      (d.onSec s (fun x => ({ x with eng := { x.eng with pst := r.st, prun := none, pfirst := false } } : SecState).onCouch
        (fun c => { c with done := none }))).bump (Reg.COUCH_STAT s.val) Fld.COUCH_STAT_PROOF
    else d.couchAbandon s 10
  | _, _ => d

/-- B's state through the STATE_MAP at its first tick (R349). -/
def SecState.mapState (x : SecState) : EngSt :=
  let c := x.couch
  let a := x.eng.st
  let wreg := (c.map.drop 2).foldl (fun (t : Tbl W) m =>
    let n := m.toNat
    Tbl.set (fun _ => (0 : W)) t (64 * bitsN n 29 28 + bitsN n 27 22)
      (Tbl.get (fun _ => (0 : W)) a.wreg (64 * bitsN n 21 20 + bitsN n 19 14))) c.init.wreg
  let w1 := c.map.getD 1 0
  { wreg := wreg, prof := (if wbit w1 0 then a.prof else []), sel := (if wbit w1 1 then a.sel else Quad.all 0xFAC688)
    plim := [] }

/-- Takeover (R351): SOLO_B, the new deadline and fault map, with the escalation windows of changed entries closed,
the builds and the layout, COUCH_TAKE, FIRST. -/
def Dev.takeover (d : Dev) (s : Sec) : Dev :=
  let x := d.sc s
  let c := x.couch
  let put (x : SecState) (p : Nat × W) : SecState :=
    if x.rd (Reg.FC_MAP p.1) = p.2 then x
    else (x.wr (Reg.FC_MAP p.1) p.2).wr (Reg.FC_ESC p.1) 0
  let x1 := ((upTo 128).zip c.fcmap).foldl put x
  let x2 := (((x1.wr Reg.TICK_DEADLINE c.deadline).wr Reg.SHEET_BUILD c.builds.1).wr Reg.PROG_BUILD c.builds.2).wr
    Reg.ENG_LAYOUT c.img.layout
  let x3 : SecState := { x2 with eng := { x2.eng with
    mode := 2, st := { x2.eng.pst with plim := [] }, first := true, prun := none, init := c.init }, mSheet := c.meas.1 }
  ((({ d with sec := d.sec.set s x3 } : Dev).put (Reg.COUCH_STAT s.val) Fld.COUCH_STAT_PHASE 4).wr
    (Reg.COUCH_TAKE s.val) d.stamp)

/-- The pair is in LOCKSTEP again, both engines with the program of the one that ran; a couching after its takeover is
done. -/
def Dev.relock (d : Dev) (s : Sec) : Dev :=
  let x := d.sc s
  let img := if x.eng.mode = 2 then x.eng.imgB else x.eng.imgA
  let meas := if x.eng.mode = 2 then x.mProgB else x.mProgA
  let d1 := d.onSec s (fun x => { x with
    eng := { x.eng with mode := 0, imgA := img, imgB := img }, couch := {}, mProgA := meas, mProgB := meas })
  if x.eng.mode = 2 then d1.put (Reg.COUCH_STAT s.val) Fld.COUCH_STAT_PHASE 5 else d1

/-- The engine that was reloaded takes its partner's state, and the pair returns to LOCKSTEP (R352). The section returns
to the state it came from. -/
def Dev.rejoin (d : Dev) (s : Sec) : Dev := (d.relock s).setSec s ((d.sc s).fld Reg.SEC_STATE Fld.SEC_STATE_PREV)

/-! ### Tick start -/

/-- Words found uncorrectable are repaired from the partner at a tick boundary (R163). -/
def SecState.repair (x : SecState) : SecState :=
  let a := x.eng.imgA.bad
  let b := x.eng.imgB.bad
  if a.isEmpty && b.isEmpty then x
  else if x.eng.mode ≠ 0 then x.put Reg.ECC_STAT Fld.ECC_STAT_NOREPAIR 1
  else
    let both := a.filter (fun w => b.contains w)
    let n := (a.length - both.length) + (b.length - both.length)
    let x1 : SecState := { x with eng := { x.eng with
      imgA := { x.eng.imgA with bad := both }, imgB := { x.eng.imgB with bad := both } } }
    let x2 := x1.put Reg.ENG_EVCNT Fld.ENG_EVCNT_REPAIR (min 255 (x1.fld Reg.ENG_EVCNT Fld.ENG_EVCNT_REPAIR + n))
    if both.isEmpty then x2 else x2.put Reg.ECC_STAT Fld.ECC_STAT_NOREPAIR 1

/-- A run at its beginning (R152), at an engine clock. -/
def freshRun (img : EngImg) (st : EngSt) (buf : Quad (List W)) (clk : Nat) (again : Bool) : EngRun :=
  { again := again, clk := clk, pc := img.entry.q0, st := st, buf := buf }

/-- The tick starts in the section (R13, R154, R156): the tracing, the fixed inputs, the run. -/
def SecState.startRun (x : SecState) (stamp : W) (ns : Nat) (inv : Bool) (chip clk : Nat) : SecState :=
  let n := x.rd Reg.TRIG_CNT + 1
  let delta := min 255 ((n - x.eng.lastTrig).toNat)
  let buf := x.legs.mapIdx (fun l _ => x.shadow l)
  let tin : TickIn := {
    delta := delta, first := x.eng.first, time := stamp, timeNs := ns, inv := inv
    derate := (if x.derate then x.rd Reg.DERATE_STEP else 0)
    host := x.eng.live, items := [], buf := buf, assist := false, chip := chip, cfg := x.legs.mapIdx (fun l _ => x.cfgNow l) }
  let x1 := ((x.wr Reg.TRIG_CNT n).put Reg.ENG_STAT Fld.ENG_STAT_TRIG_DELTA delta).clearFixed
  { x1 with
    eng := { x1.eng with tin := tin, run := some (freshRun (x1.imgOf .run) x1.eng.st buf clk false), ctx := 0 }
    ast := { x1.ast with pend := none } }

/-- What couching does at a tick start (R346, R349, R351, R352): the couching begins, B maps its state, takes over, or a
reloaded engine rejoins. It answers the engine clocks by which the pair's run and B's run start late. -/
def Dev.couchStart (d : Dev) (s : Sec) : Dev × Nat × Option Nat :=
  let x := d.sc s
  let ph := d.couchPhase s
  if x.couch.due ∧ (x.state = 3 ∨ x.state = 4) then
    let d1 := (d.onSec s (fun x => { x with
      eng := { x.eng with mode := 1 }, couch := { x.couch with due := false } })).setSec s 7
    ({ d1.put (Reg.COUCH_STAT s.val) Fld.COUCH_STAT_PHASE 2 with crypto := d1.crypto ++ [4 + s.val] }, 0, none)
  else if x.state ≠ 7 then (d, 0, none)
  else if x.couch.ready then (d.rejoin s, 32, none)
  else if ph = 2 ∧ x.couch.loaded = true then
    let d1 := d.onSec s (fun x => { x with eng := { x.eng with
      imgB := x.couch.img, pst := x.mapState, pfirst := true, pdead := bitsN x.couch.deadline.toNat 19 0 } })
    (d1.put (Reg.COUCH_STAT s.val) Fld.COUCH_STAT_PHASE 3, 0, some 32)
  else if ph = 3 then
    if d.proofTicks s ≤ d.fld (Reg.COUCH_STAT s.val) Fld.COUCH_STAT_PROOF then (d.takeover s, 0, none) else (d, 0, some 0)
  else (d, 0, none)

/-- A tick starts (R13): bridge commands that wait take effect, and B's proof run starts beside the pair's. -/
def Dev.tickStart (d : Dev) (s : Sec) : Dev :=
  let d0 := if (d.sc s).eng.prun.isSome then d.couchAbandon s 9 else d
  let (d1, lateA, lateB) := d0.couchStart s
  let ang := d1.islOn && decide (d1.islSrc = s)
  let chip := d1.islTickChip
  let d2 : Dev := if ang then { d1 with isl := { d1.isl with ticks := Tbl.upd (fun _ => 0) d1.isl.ticks chip (· + 1) } } else d1
  (d2.islSettle false).secDo s (fun x =>
    let x1 := (x.brTick.repair).startRun d2.stamp d2.timeNs d2.timeInv chip lateA
    let x2 := x1.onCouch (fun c => { c with done := none, aDone := false })
    match lateB with
    | none => x2
    | some c => { x2 with eng := { x2.eng with prun := some (freshRun x2.eng.imgB x2.eng.pst x2.eng.tin.buf c false) } })

/-- The states in which ticks run (R26, R172). -/
def SecState.ticks (x : SecState) : Bool := decide (x.state = 3) || decide (x.state = 4) || decide (x.state = 7)

/-- A trigger as TICK_CFG selects it has come (R12): a carrier event of the master leg that has triggered no tick yet,
or an expiry of the running section time base, whole periods after the last accepted trigger
(notes/assumptions/36.md). -/
def SecState.triggered (x : SecState) (clk : Nat) : Bool :=
  let per := x.fld Reg.TICK_CFG Fld.TICK_CFG_TB_PERIOD
  if x.fld Reg.TICK_CFG Fld.TICK_CFG_SRC = 3 then
    decide (per ≠ 0) && (decide (x.rd Reg.TRIG_CNT = 0) || decide (clk % per = 0))
  else x.trig.isSome

/-- A trigger `clk` engine clocks after the last accepted one (R12). -/
def tickTrigger (s : Sec) (clk : Nat) (d : Dev) : Dev :=
  let x := d.sc s
  let d1 := d.onSec s (fun x => { x with trig := none })
  if !x.ticks || !x.triggered clk then d
  else if clk < 500 ∨ x.eng.run.isSome = true then
    d1.onSec s (fun x => (x.bump Reg.TICK_STAT Fld.TICK_STAT_OVERRUN).pulse 4)
  else d1.tickStart s

/-! ### Stale ticks and mismatches (R16, R17, R168 to R173) -/

/-- The tick is stale (R17, R169, R171): nothing of the run remains, and B's tick is not counted. -/
def SecState.stale (x : SecState) : SecState :=
  let n := x.eng.stale + 1
  let x1 := ((x.bump Reg.TICK_STAT Fld.TICK_STAT_STALE_TOTAL).put Reg.ENG_STAT Fld.ENG_STAT_STALE_RUN (min 255 n)).pulse 41
  let x2 := if n % x.fld Reg.ENG_CFG Fld.ENG_CFG_N_STALE = 0 then x1.pulse 42 else x1
  ({ x2 with
    eng := { x2.eng with stale := n, run := none, prun := none }
    ast := { x2.ast with pend := none } } : SecState).onCouch (fun c => { c with done := none })

/-- A mismatch detected at an engine clock (R16, R168, R169): the first starts a rollback of 32 clocks, the second
makes the tick stale. -/
def SecState.mismatch (x : SecState) (r : EngRun) (detect : Nat) : SecState :=
  let x1 := (x.bump Reg.ENG_EVCNT Fld.ENG_EVCNT_MISMATCH).pulse 40
  if r.again then x1.stale
  else (x1.bump Reg.TICK_STAT Fld.TICK_STAT_RECOMPUTE).setRun .run (some { r with stall := false, wait := none, roll := some (detect + 32) })

/-- A program fault of the pair (R152, R173). -/
def SecState.progFault (x : SecState) (r : EngRun) (cause : Nat) : SecState :=
  let x1 := if x.flag Reg.PROG_FAULT Fld.PROG_FAULT_VALID then x
    else x.wr Reg.PROG_FAULT (natW (0x80000000 + cause * 0x1000000 + r.ctx * 0x10000 + r.pc % 2048))
  ((x1.bump Reg.ENG_EVCNT Fld.ENG_EVCNT_PROG_FLT).pulse 43).stale

/-- An uncorrectable error recorded (ECC_STAT, ENGINE_ECC_UE). -/
def SecState.eccUe (x : SecState) (inA inB : Bool) (mem addr : Nat) : SecState :=
  let w := x.rd Reg.ECC_STAT &&& 0xF0000000
  (x.wr Reg.ECC_STAT (w ||| (if inA then 0x80000000 else 0) ||| (if inB then 0x40000000 else 0) |||
    natW (mem * 0x4000000 + addr % 4096))).pulse 45

/-- A run that hits an uncorrectable word (R162, R173): a mismatch in LOCKSTEP, a stale tick in SOLO. -/
def SecState.badRun (x : SecState) (r : EngRun) (mem addr : Nat) : SecState :=
  let x1 := x.eccUe (x.eng.mode ≠ 2 && x.eng.imgA.bad.contains (mem, addr))
    (x.eng.mode ≠ 1 && x.eng.imgB.bad.contains (mem, addr)) mem addr
  if x.eng.mode = 0 then x1.mismatch r (r.clk + 1) else x1.stale

/-- What an engine instruction's fault or bad word does: to the pair's tick, or to the couching (R350). -/
def Dev.engEff (d : Dev) (s : Sec) (e : EngSel) (eff : EngEff) : Dev :=
  match e, eff with
  | _, .done => d
  | .proof, _ => d.couchAbandon s 9
  | _, .fault c =>
    match (d.sc s).eng.run with
    | some r => d.onSec s (·.progFault r c)
    | none => d
  | _, .bad m a =>
    match (d.sc s).eng.run with
    | some r => d.onSec s (·.badRun r m a)
    | none => d

/-- An engine instruction in section s. -/
def Dev.eng (d : Dev) (s : Sec) (e : EngSel) (f : SecState → SecState × EngEff) : Dev :=
  let (x, eff) := f (d.sc s)
  let x1 : SecState := { x with eng := { x.eng with ctx := (match x.eng.run with | some r => r.ctx | none => x.eng.ctx) } }
  ({ d with sec := d.sec.set s x1 } : Dev).engEff s e eff

/-- The run in which the engines of the pair differ at an instruction (R168): in LOCKSTEP, where the run stands at it.
-/
def SecState.splitAt (x : SecState) (e : EngSel) (op : Nat) (args : BitVec 26) : Option EngRun :=
  if e = .split ∧ x.eng.mode = 0 then (match x.issue e op args with | .no => none | _ => x.eng.run) else none

/-- An instruction at which the engines of the pair may differ: where they do, it is a mismatch in the next clock
(R168), and the instruction is done by neither. -/
def Dev.unlessSplit (d : Dev) (s : Sec) (e : EngSel) (op : Nat) (args : BitVec 26) (same : Dev → Dev) : Dev :=
  match (d.sc s).splitAt e op args with
  | some r => d.onSec s (·.mismatch r (r.clk + 1))
  | none => same d

/-- An instruction that only works on its run. -/
def Dev.engOp (d : Dev) (s : Sec) (e : EngSel) (op : Nat) (args : BitVec 26)
    (f : EngEnv → EngRun → Nat → Except Nat EngRun) (jump : Bool := false) : Dev :=
  d.unlessSplit s e op args (fun d =>
    d.eng s e (fun x => x.engExec e op args f jump (x.envOf e (fun _ => 0) none 0)))

/-- A window read of the engine (R90, R185). -/
def Dev.engWindow (d : Dev) (s : Sec) (e : EngSel) (op : Nat) (args : BitVec 26) (slot : Nat)
    (f : EngEnv → EngRun → Nat → Except Nat EngRun) : Dev :=
  d.unlessSplit s e op args (fun d => d.eng s e (fun x => x.windowRead e op args slot f))

/-! ### RDI (R154, R186, R195, R326) -/

/-- A telemetry item 0x80 to 0xBF of section s (R326). The age is in µs; before the first valid frame it is open. -/
def Dev.dlItem (d : Dev) (s : Sec) (sel : Nat) : W :=
  let j := 2 * s.val + (sel - 0x80) / 0x20
  let s16 (i : Nat) : W := intW (sgn 16 (d.dlByte j i + 256 * d.dlByte j (i + 1)))
  match (sel - 0x80) % 0x20 with
  | 0 => s16 2 | 1 => s16 4 | 2 => natW (d.dlByte j 6) | 3 => natW (d.dlByte j 7)
  | 4 => natW (d.dlByte j 8 % 64) | 5 => natW (d.dlByte j 9 % 64) | 6 => natW (d.dlByte j 10 + 256 * d.dlByte j 11)
  | 7 => natW (d.fld (Reg.DL_STAT j) Fld.DL_STAT_VALID)
  | _ =>
    if (d.dl1 j).lastSeq.isNone then natW (min 65535 (Config.freeWord d.freeCount).toNat)
    else
      let t := 4 * (d.up - (d.dl1 j).stamp)
      natW (min 65535 (quotFree t 1000 (Config.freeBit d.freeCount)).toNat)

/-- An item from 0x40 on, as it stands now. -/
def Dev.engItem (d : Dev) (s : Sec) (ctx sel : Nat) : W :=
  if sel < 0x60 then (d.sc s).assistItem ctx sel
  else if sel < 0x80 then d.islItem s ctx sel
  else d.dlItem s sel

/-- The item that an RDI of context ctx fixes for the tick: the items of a bridge are its own, all others are one for
the section (R154, R184). -/
def itemKey (ctx sel : Nat) : Nat :=
  if (0x50 ≤ sel ∧ sel < 0x60) ∨ sel = 0x60 then 256 * ctx + sel else sel

/-- RDI: an assist item before the tick's update stalls, and so does the vector shift of the tick, 0x65
(notes/assumptions/39.md); an item is fixed for the tick at its first read. -/
def Dev.rdiSame (s : Sec) (e : EngSel) (args : BitVec 26) (d : Dev) : Dev :=
  let x := d.sc s
  let sel := args.toNat % 256
  match x.issue e 0x2A args with
  | .go r =>
    if !x.eng.tin.assist && ((decide (0x50 ≤ sel) && decide (sel ≤ 0x5F)) ||
        (((decide (0x40 ≤ sel) && decide (sel < 0x50)) || decide (sel = 0x65)) && x.gridOn)) then
      d.onSec s (·.stallRun e r)
    else if sel < 0x40 then d.engOp s e 0x2A args opRdi
    else
      let key := itemKey r.ctx sel
      let v := match Tbl.get (fun _ => none) x.eng.tin.items key with
        | some w => w
        | none => d.engItem s r.ctx sel
      let d1 := (d.onSec s (fun x => { x with eng := { x.eng with
        tin := { x.eng.tin with items := Tbl.set (fun _ => none) x.eng.tin.items key (some v) } } })).tickFree
      d1.eng s e (fun x => x.engExec e 0x2A args opRdi false (x.envOf e (fun _ => v) none 0))
  | _ => d.engOp s e 0x2A args opRdi

/-- RDI of a run whose engines may differ at it (R168). -/
def Dev.rdi (d : Dev) (s : Sec) (e : EngSel) (args : BitVec 26) : Dev :=
  d.unlessSplit s e 0x2A args (Dev.rdiSame s e args)

/-! ### Commit (R15, R156) -/

/-- The ring of a section (R313). -/
def ringQ (s : Sec) (r : Nat) : Nat := 56 + 2 * s.val + r

/-- A ring message is sent at a commit (R189, R318). -/
def Dev.ringSend (d : Dev) (s : Sec) (r : Nat) (ws : List W) : Dev :=
  let q := ringQ s r
  let dest := d.fld (Reg.Q_CFG q) Fld.Q_CFG_DEST
  let rcv : Sec := ⟨dest % 4, by omega⟩
  let drop := decide (8 ≤ dest) &&
    (decide (32 < d.fld (Reg.Q_CFG q) Fld.Q_CFG_OFF + ws.length) || decide (rcv = s) || !(d.sc rcv).ticks)
  if d.qLog q < 2 then d
  else if drop then d.qDrop q
  else d.qPush q (natW (0x80000000 + 4 * ws.length)) 0 0 0 (ws.flatMap wordBytes)

/-- The committed results of a run inside the section (R15, R156, R157, R159, R171). -/
def SecState.commitRun (x : SecState) (r : EngRun) (legs imm : Nat) (clk : Nat) : SecState :=
  let n := x.rd Reg.COMMIT_CNT + 1
  let x1 := ((x.wr Reg.COMMIT_CNT n).put Reg.TICK_LAST Fld.TICK_LAST_COMMIT_CLK clk).put Reg.TICK_PEAK
    Fld.TICK_PEAK_MAX_CLK (max clk (x.fld Reg.TICK_PEAK Fld.TICK_PEAK_MAX_CLK))
  let sat := x1.rd Reg.SAT_STICKY
  let x2 := if r.marks = 0 then x1 else
    let y := x1.wr Reg.SAT_STICKY (sat ||| 0x80000000 ||| r.marks.zeroExtend 32)
    if wbit sat 31 then y else y.pulse 46
  let outs := (upTo 32).foldl (fun (t : Tbl W) i =>
    match Tbl.get (fun _ => none) r.outs i with | some w => Tbl.set (fun _ => (0 : W)) t i w | none => t) x2.eng.outs
  let x3 : SecState := { x2 with eng := { x2.eng with
    st := r.st, outs := outs, seq := n, first := false, lastTrig := x2.rd Reg.TRIG_CNT, stale := 0, run := none, ctx := r.ctx } }
  let x4 := x3.put Reg.ENG_STAT Fld.ENG_STAT_STALE_RUN 0
  let x5 := (upTo 16).foldl (fun x i => if r.reqs.getLsbD i then x.pulse (48 + i) else x) x4
  ([0, 1, 2, 3] : List (Fin 4)).foldl (fun x l =>
    if Nat.testBit legs l.val then x.engineCommitLeg l (r.buf.get l) (Nat.testBit imm l.val) else x) x5

/-- A successful commit (R15, R156, R194, R203, R223, R231). -/
def Dev.commit (d : Dev) (s : Sec) (r : EngRun) (args clk : Nat) : Dev :=
  let legs := bitsN args 3 0
  let imm := bitsN args 7 4 &&& legs
  let closed := d.soConfirmed
  let d1 := d.secDo s (fun x => ((x.commitRun r legs imm clk).asstCommit closed).islCommit.onCouch (fun c => { c with aDone := true }))
  let d2 := r.sends.foldl (fun d m => d.ringSend s m.1 m.2) d1
  (((d2.islRecord s).islSettle false |>.islTurn s).pointRecords s).proofEval s

/-- COMMIT of both engines (R15, R16, R152, R350). -/
def Dev.commitBoth (s : Sec) (e : EngSel) (args : BitVec 26) (agree : Bool) (d : Dev) : Dev :=
  let x := d.sc s
  match x.issue e 0x07 args with
  | .go r =>
    if (x.nextCtx r.ctx).isSome then d.engEff s e (.fault 2)
    else
      match r.charge (x.envOf e (fun _ => 0) none 0) 1 with
      | .error c => d.engEff s e (.fault c)
      | .ok r1 =>
        match e with
        | .proof =>
          (d.onSec s (fun x => (x.setRun .proof (some { r1 with stall := true })).onCouch
            (fun c => { c with done := some (args.toNat % 16) }))).proofEval s
        | _ =>
          if decide (x.eng.mode = 0) && (!agree || x.eng.injMis) then
            d.onSec s (fun x => ({ x with eng := { x.eng with injMis := false } } : SecState).mismatch r (r.clk + 4))
          else d.commit s r1 args.toNat r.clk
  | .fault c => d.engEff s e (.fault c)
  | .bad m a => d.engEff s e (.bad m a)
  | .no => d

/-- COMMIT: one by a single engine of the pair is a mismatch in the next clock (R168). -/
def Dev.commitOp (d : Dev) (s : Sec) (e : EngSel) (args : BitVec 26) (agree : Bool) : Dev :=
  d.unlessSplit s e 0x07 args (Dev.commitBoth s e args agree)

/-! ### The other events of a run -/

/-- A run stands at an RDI: what it stalls on is the assist update, not a window result (R153, R195). -/
def SecState.atItem (x : SecState) (e : EngSel) (r : EngRun) : Bool :=
  decide (r.pc < 2048) && decide ((Tbl.get (fun _ => (0 : W)) (x.imgOf e).prog r.pc).toNat / 2 ^ 26 = 0x2A)

/-- What stalled runs wait for is there: a run stalled on an item (`item`) or on a window result goes on at this
clock. -/
def SecState.unstall (x : SecState) (clk : Nat) (item : Bool) : SecState :=
  let go (e : EngSel) (r : EngRun) : EngRun :=
    if r.stall && (x.atItem e r == item) then { r with stall := false, clk := max r.clk clk } else r
  { x with eng := { x.eng with
    run := x.eng.run.map (go .run)
    prun := (if x.couch.done.isSome then x.eng.prun else x.eng.prun.map (go .proof)) } }

/-- WINDOW_RESULT_ARRIVAL (R89, R90). -/
def windowResultArrival (s : Sec) (clk : Nat) (d : Dev) : Dev := d.onSec s (fun x => x.resultArrival.unstall clk false)

/-- ASSIST_UPDATE_COMPLETE (R195), once in a tick and when no window it uses is still awaited. -/
def assistUpdateComplete (s : Sec) (clk : Nat) (d : Dev) : Dev :=
  let x := d.sc s
  if (x.eng.run.isSome || x.eng.prun.isSome) && !x.eng.tin.assist && !(x.assistAccs.any x.awaited) then
    let d1 := d.onSec s (fun x => (x.assistUpdate d.freeCount).unstall clk true)
    { d1 with freeCount := d.freeCount + 64 }
  else d

/-- WAIT_COMPLETE (R191): the held run goes on at the clock it waited for, if that is no later than the deadline. -/
def SecState.waitComplete (x : SecState) (e : EngSel) : SecState :=
  match x.engRun e with
  | some r =>
    match r.wait with
    | some c => if x.deadlineOf e < c then x else x.setRun e (some { r with wait := none, clk := max r.clk c })
    | none => x
  | none => x

/-- RECOMPUTE_START (R16): the tracing is restored and the program runs again from its start. -/
def SecState.recomputeStart (x : SecState) : SecState :=
  match x.eng.run with
  | some r =>
    match r.roll with
    | some c => if x.deadlineOf .run < c then x else
        x.setRun .run (some (freshRun (x.imgOf .run) x.eng.st x.eng.tin.buf c true))
    | none => x
  | none => x

/-- TICK_DEADLINE_EXPIRY (R16, R169, R350). -/
def tickDeadlineExpiry (s : Sec) (d : Dev) : Dev :=
  let x := d.sc s
  if x.eng.run.isSome then d.onSec s (·.stale)
  else if x.eng.prun.isSome && x.couch.done.isNone then d.couchAbandon s 9
  else d

/-- COUCH_TAKEOVER (R351): at a tick start with the proof complete. -/
def couchTakeover (s : Sec) (d : Dev) : Dev :=
  let x := d.sc s
  if decide (x.state = 7) && decide (d.couchPhase s = 3) && x.eng.run.isNone && x.eng.prun.isNone &&
      decide (d.proofTicks s ≤ d.fld (Reg.COUCH_STAT s.val) Fld.COUCH_STAT_PROOF) then d.takeover s
  else d

/-- PARAM_COMMIT (R155): the staging words become live. -/
def SecState.paramCommit (x : SecState) : SecState :=
  { x with eng := { x.eng with
    live := (upTo 32).foldl (fun (t : Tbl W) i => Tbl.set (fun _ => (0 : W)) t i (x.rd (Reg.HOST_PARAM i))) [] } }

/-- RING_DELIVERY (R318): the oldest message goes to its section's staging words, which become live. Each write of the
queue engine to a section that does not answer, or that its port claims, is a bus error and is ignored (R22, R358). -/
def ringDelivery (s : Sec) (r : Fin 2) (d : Dev) : Dev :=
  let q := ringQ s r.val
  let dest := d.fld (Reg.Q_CFG q) Fld.Q_CFG_DEST
  if 8 ≤ dest ∧ d.qHas q = true then
    let rcv : Sec := ⟨dest % 4, by omega⟩
    let ws := bytesWords (d.qPayload q)
    let off := d.fld (Reg.Q_CFG q) Fld.Q_CFG_OFF
    let d1 := d.qComplete q 0 none false
    let refuse (cause : Nat) : Dev :=
      ((upTo ws.length).foldl (fun d i => d.busErr cause true (secBase rcv + Reg.HOST_PARAM (off + i))) d1).busErr cause true
        (secBase rcv + Reg.PARAM_COMMIT)
    if d.secDead rcv then refuse 1
    else if d.claimed rcv then refuse 3
    else d1.onSec rcv (fun x =>
      (((upTo ws.length).zip ws).foldl (fun (x : SecState) p => x.wr (Reg.HOST_PARAM (off + p.1)) p.2) x).paramCommit)
  else d

/-- ENG_OUT_SEQ_READ (R157): the port's snapshot of the published words. -/
def engOutSeqRead (k : Port) (s : Sec) (d : Dev) : Dev :=
  let x := d.sc s
  let b := secBase s
  (upTo 32).foldl (fun d i => d.snapWr k (b + Reg.ENG_OUT i) (Tbl.get (fun _ => (0 : W)) x.eng.outs i))
    (d.snapWr k (b + Reg.ENG_OUT_SEQ) (natW (x.eng.seq.toNat % 65536)))

/-- SCRUB_READ (R162, R163): what the error correction finds in one word of an engine's memory. -/
def scrubRead (s : Sec) (b : Bool) (mem : Fin 4) (addr : Fin 4096) (ecc : EccResult) (partnerOk : Bool) (d : Dev) : Dev :=
  let x := d.sc s
  match ecc with
  | .clean => d
  | .corrected => d.onSec s (fun x => (x.bump Reg.ENG_EVCNT Fld.ENG_EVCNT_ECC_CE).pulse 44)
  | .uncorrectable =>
    let w := (mem.val, addr.val)
    let add (l : List (Nat × Nat)) : List (Nat × Nat) := if l.contains w then l else l ++ [w]
    let inA := !b || !partnerOk
    let inB := b || !partnerOk
    let x1 := x.eccUe inA inB mem.val addr.val
    if mem.val ≠ 0 then
      let x2 : SecState := { x1 with eng := { x1.eng with
        imgA := (if inA then { x1.eng.imgA with bad := add x1.eng.imgA.bad } else x1.eng.imgA)
        imgB := (if inB then { x1.eng.imgB with bad := add x1.eng.imgB.bad } else x1.eng.imgB) } }
      { d with sec := d.sec.set s x2 }
    else
      let d1 : Dev := { d with sec := d.sec.set s x1 }
      if b && x1.eng.prun.isSome then d1.couchAbandon s 9
      else
        match x1.eng.run with
        | some r =>
          if r.roll.isSome || decide (x.eng.mode = 1 ∧ b = true) || decide (x.eng.mode = 2 ∧ b = false) then d1
          else if x.eng.mode = 0 then d1.onSec s (·.mismatch r (r.clk + 1))
          else d1.onSec s (·.stale)
        | none => d1

end Sys2Proof.Machine
end

