-- ==== Sys2Proof/Machine/Reactions.lean ====
section
/-! DEFINITION. What an event does at its severity (R262 to R269): stops of sections, SAFE and LOCKOUT of the device,
broken pairs, the collectors' own errors, and the clock failures that act directly (R71). -/

namespace Sys2Proof.Machine

/-- OPERATE while a section is ENABLED or COUCHING from ENABLED, else SERVICE (R24). -/
def Dev.operate (d : Dev) : Dev :=
  let on := (d.sc 0).enabled || (d.sc 1).enabled || (d.sc 2).enabled || (d.sc 3).enabled
  if on && decide (d.devState = 3) then d.setState 4
  else if !on && decide (d.devState = 4) then d.setState 3
  else d

/-- Every leg of the section starts the two-step turn-off with all switches (R26); `dead` leaves its plateau to the
delay line. An unused leg has no gate to turn off. -/
def SecState.stopLegs (x : SecState) (dead : Bool) : SecState :=
  ([0, 1, 2, 3] : List (Fin 4)).foldl (fun x l =>
    if x.legType l = 0 then x
    else
      let x1 := x.startSeq l true
      (if dead then x1.setLeg l { x1.lg l with clockDead := true } else x1).drive l x.now) x

/-- A couching that has not reached takeover (R353). -/
def Dev.couchEarly (d : Dev) (s : Sec) : Bool :=
  (d.sc s).couch.due || decide (d.couchPhase s = 2) || decide (d.couchPhase s = 3)

/-- A stop cause of section s (R26, R28, R172, R353): STOPPING, no run goes on, every leg turns off, every bridge goes
to SAFE, SEC_STOPs is raised. During a boot it is kept for its end. -/
def Dev.stopSec (d : Dev) (s : Sec) (dead : Bool := false) : Dev :=
  let st := d.secSt s
  if st = 1 then d.onSec s (fun x => { x with bootStop := true })
  else if st = 3 ∨ st = 4 ∨ st = 7 then
    let d1 := if d.couchEarly s then d.couchAbandon s 11 else d
    let d2 := d1.setSec s 5
    let d3 := d2.secDo s (fun x =>
      let x1 := (x.stopLegs dead).brStopAll
      { x1 with eng := { x1.eng with run := none, prun := none } })
    (d3.pulse (44 + s.val)).operate
  else if st = 5 ∧ dead = true then
    d.onSec s (fun x => ([0, 1, 2, 3] : List (Fin 4)).foldl (fun x l =>
      if (x.lg l).step = 1 then x.setLeg l { x.lg l with clockDead := true } else x) x)
  else d

/-- Every section stops (R24). -/
def Dev.stopAll (d : Dev) : Dev := (((d.stopSec 0).stopSec 1).stopSec 2).stopSec 3

/-- The FC_LAST_SAFE record (R275). -/
def Dev.lastSafe (d : Dev) (cause src : Nat) : Dev := d.wr Reg.FC_LAST_SAFE (natW (cause * 0x40000000 + src))

/-- The SAFE history as it is committed: the last four entries, oldest first, and the reserved bytes (R388). An entry
that has not come about reads as one that lies outside the window of R269. -/
def safeHistory (now : W) (hist : List W) : List Byte :=
  let four := (hist ++ List.replicate 4 (now - 600)).take 4
  four.reverse.flatMap wordBytes ++ List.replicate 40 0

/-- The device enters SAFE (R24): from every state but SAFE and LOCKOUT. The entry is counted by the keep domain; the
fourth within 600 s raises RESTART_LIMIT (R269). A metering record is committed before the restart (R245). -/
def Dev.goSafe (d : Dev) (cause src : Nat) : Dev :=
  if d.devState = 5 ∨ d.devState = 6 then d
  else
    let d1 := (((d.lastSafe cause src).setState 5)).stopAll
    let now := d1.rd Reg.RTC_SEC
    let hist := now :: d1.keep.hist.filter (fun t => decide ((now - t).toNat < 600))
    let d2 := ({ d1 with keep := { d1.keep with hist := hist.take 4 } } : Dev).requestBurst 3 (safeHistory now hist)
    let d3 := meterRecordSave d2
    if 4 ≤ hist.length then d3.pulse 56 else d3

/-- The device enters LOCKOUT (R24), from any state. -/
def Dev.goLockout (d : Dev) (cause src : Nat) : Dev :=
  if d.devState = 6 then d else ((d.lastSafe cause src).setState 6).stopAll

/-- The reaction of the device collector to an event of source n (R262, R266). -/
def Dev.devReact (d : Dev) (n sev : Nat) : Dev :=
  if sev = 3 then d.syncDerate
  else if sev = 4 then
    ([0, 1, 2, 3] : List Sec).foldl (fun d s => if devScope n s && d.secUp s then d.onSec s (·.pulse 2) else d) d
  else if sev = 5 then d.goSafe 1 n
  else if 6 ≤ sev then d.goLockout 1 n
  else d

/-- The reaction of a section collector (R262, R266, R268). -/
def Dev.secReact (d : Dev) (s : Sec) (sev : Nat) : Dev :=
  if sev = 4 then d.stopSec s
  else if sev = 5 then d.pulse (48 + s.val)
  else if 6 ≤ sev then d.pulse (52 + s.val)
  else d

/-- A log entry goes to the fault rings (R319). -/
def Dev.logEvent (d : Dev) (sev : Nat) (e : Option LogEntry) : Dev :=
  match e with
  | some e => d.faultEvent sev e.head e.time
  | none => d

/-- An event of device source n is applied (R262 to R271). -/
def Dev.devEvent (d : Dev) (n : Nat) (inj brk : Bool) : Dev :=
  let (io, sev, e) := d.fcIO.apply n inj brk d.stamp d.timeInv
  (((d.setFcIO io).logEvent sev e).devReact n sev)

/-- An event of source n of section s is applied. -/
def Dev.secEvent (d : Dev) (s : Sec) (n : Nat) (inj brk : Bool) : Dev :=
  let (io, sev, e) := ((d.sc s).fcIO s).apply n inj brk d.stamp d.timeInv
  (((d.onSec s (·.setFcIO io)).logEvent sev e).secReact s sev)

/-- The section and the local source of a global number from 64 on (R256). -/
def srcSec (g : Nat) : Sec := ⟨(g - 64) / 128 % 4, by omega⟩

/-- The local source of a global number from 64 on. -/
def srcLoc (g : Nat) : Nat := (g - 64) % 128

/-- The pair of local source n of section s arrives asserted. -/
def Dev.secArrive (d : Dev) (s : Sec) (n : Nat) : Dev :=
  let (io, ev) := ((d.sc s).fcIO s).arrive n
  let d1 := d.onSec s (·.setFcIO io)
  if ev then d1.secEvent s n ((d.sc s).fc.pair n).inj false else d1

/-- The lower-numbered sources that arise with source n at a commit, ISL_UV to ISL_VS with RIDE_LIMIT of a bridge, and
are recorded before it (R225). -/
def sourcesBefore (n : Nat) : List Nat :=
  if n = 81 ∨ n = 91 ∨ n = 101 ∨ n = 111 then [66, 67, 68, 69, 70, 71] else []

/-- SOURCE_EVENT (R260, R262): the pair of a source arrives asserted at its collector. A pair that is not driven, or is
already asserted, gives no event; a collector without a clock takes none. -/
def sourceEvent (g : Fin 576) (d : Dev) : Dev :=
  if g.val < 64 then
    let n := g.val
    let (io, ev) := d.fcIO.arrive n
    if ev then (d.setFcIO io).devEvent n (d.fc.pair n).inj false else d.setFcIO io
  else
    let s := srcSec g.val
    let n := srcLoc g.val
    if d.secUp s then (sourcesBefore n ++ [n]).foldl (fun d k => d.secArrive s k) d else d

/-- The register file of the collector that source g belongs to, changed. -/
def Dev.onFc (d : Dev) (g : Nat) (f : FcIO → Nat → FcIO) : Dev :=
  if g < 64 then d.setFcIO (f d.fcIO g)
  else if d.secUp (srcSec g) then
    d.onSec (srcSec g) (fun x => x.setFcIO (f (x.fcIO (srcSec g)) (srcLoc g)))
  else d

/-- ESC_WINDOW_EXPIRY (R263): the window of a source has run. -/
def escWindowExpiry (g : Fin 576) (d : Dev) : Dev :=
  d.onFc g.val (fun io n => if fbit Fld.FC_ESC_OPEN (io.rd (0x400 + 4 * n)) then io.wr (0x400 + 4 * n) 0 else io)

/-- A pair is declared broken (R261): FC_BROKEN, FC_RAIL for the first, and RAIL_BROKEN of the collector. -/
def FcIO.breakPair (io : FcIO) (n : Nat) (both1 : Bool) : FcIO :=
  let io1 := { io with fc := (io.fc.setPair n { io.fc.pair n with broken := true }).pulse 0 }
  let io2 := io1.setBit 0x80 n
  if fbit Fld.FC_RAIL_VALID (io2.rd 0x20) then io2
  else io2.wr 0x20 (natW (0x80000000 + b2n both1 * 0x40000000 + (io.gbase + n)))

/-- PAIR_BROKEN (R261): the third clock at (0, 0) or (1, 1). A source that was idle has an event. -/
def pairBroken (g : Fin 576) (both1 : Bool) (d : Dev) : Dev :=
  let p := if g.val < 64 then d.fc.pair g.val else (d.sc (srcSec g.val)).fc.pair (srcLoc g.val)
  if p.broken then d
  else
    let d1 := d.onFc g.val (fun io n => io.breakPair n both1)
    if p.level then d1
    else if g.val < 64 then d1.devEvent g.val p.inj true
    else if d.secUp (srcSec g.val) then d1.secEvent (srcSec g.val) (srcLoc g.val) p.inj true
    else d1

/-- PAIR_RESTORED (R261): three valid clocks; the source follows its pair again. -/
def pairRestored (g : Fin 576) (d : Dev) : Dev :=
  (d.onFc g.val (fun io n =>
    let p := io.fc.pair n
    if p.broken then
      { io with fc := io.fc.setPair n { p with
        broken := false, level := p.drive && !p.pulse, drive := p.drive && !p.pulse, pulse := false } }
    else io)).syncDerate

/-- COLLECTOR_SCRUB (R274, R275): a word of a collector is read; `none` is the device collector. -/
def collectorScrub (c : Option Sec) (ecc : EccResult) (d : Dev) : Dev :=
  match c with
  | none =>
    match ecc with
    | .clean => d
    | .corrected => d.setFcIO (let io := d.fcIO.bump8 0x24 Fld.FC_ECC_CE_CNT; { io with fc := io.fc.pulse 1 })
    | .uncorrectable => d.goSafe 2 0
  | some s =>
    if d.secUp s then
      match ecc with
      | .clean => d
      | .corrected =>
        d.onSec s (fun x => x.setFcIO (let io := (x.fcIO s).bump8 0x24 Fld.FC_ECC_CE_CNT; { io with fc := io.fc.pulse 1 }))
      | .uncorrectable => (d.stopSec s true).pulse (10 + s.val)
    else d

/-- STOPPING_COMPLETE (R26): step 2 is complete on every leg. -/
def stoppingComplete (s : Sec) (d : Dev) : Dev :=
  let x := d.sc s
  let busy := ([0, 1, 2, 3] : List (Fin 4)).any (fun l => decide ((x.lg l).step = 1) || decide ((x.lg l).step = 2))
  if x.state = 5 ∧ busy = false then d.setSec s 6 else d

/-- SYS_CLOCK_LOST (R71): the device enters SAFE directly, and every AXG ball goes low (R371). -/
def sysClockLost (unlock : Bool) (d : Dev) : Dev :=
  if d.clockWatched 0 then
    let d1 := d.pllLose 0 unlock
    { d1 with aux := { d1.aux with on := 0 } }.goSafe 3 0
  else d

/-- SEC_CLOCK_MISSING (R71): two-step turn-off on the delay lines, then STOPPED. -/
def secClockMissing (s : Sec) (d : Dev) : Dev :=
  if d.secSt s = 0 ∨ d.secSt s = 2 ∨ d.secSt s = 6 then d else d.stopSec s true

end Sys2Proof.Machine
end

