-- ==== Sys2Proof/Machine/SafeBlock.lean ====
section
/-! DEFINITION. The safety block (R278 to R290): inputs, seal, trips and their categories, gate removal, the outputs with
their monitoring, and the resets. -/

namespace Sys2Proof.Machine

/-- Switch n of the seal byte in force (R282). -/
def Dev.seal (d : Dev) (n : Nat) : Bool := Nat.testBit (d.fld Reg.SAFE_SEAL Fld.SAFE_SEAL_ADOPTED) n

/-- Input n is evaluated (R280): 0 ESTOP, 1 DOOR, 2 RSD, 3 ARC. -/
def Dev.safeEnabled (d : Dev) (n : Nat) : Bool := decide (n = 0) || d.seal (n - 1)

/-- The accepted level of channel ch: 0 to 5 the A and B channels, 6 ARC, 7 SRESET. -/
def Dev.safeLevel (d : Dev) (ch : Nat) : Bool := wbit (d.rd Reg.SAFE_IN) ch

/-- Channel A of input n is healthy: high. -/
def Dev.chanA (d : Dev) (n : Nat) : Bool := if n = 3 then d.safeLevel 6 else d.safeLevel (2 * n)

/-- Channel B of input n is healthy: low; ARC has none. -/
def Dev.chanB (d : Dev) (n : Nat) : Bool := if n = 3 then d.safeLevel 6 else !d.safeLevel (2 * n + 1)

/-- Every channel of input n is healthy. -/
def Dev.inputOk (d : Dev) (n : Nat) : Bool := d.chanA n && d.chanB n

/-- Every enabled input is healthy, with its channels in agreement. -/
def Dev.inputsOk (d : Dev) : Bool := (upTo 4).all (fun n => !d.safeEnabled n || d.inputOk n)

/-- HEALTHY and DISC of SAFE_IN follow the levels (R280, R281). -/
def Dev.safeInputs (d : Dev) : Dev :=
  let h := (upTo 4).foldl (fun m n => if !d.safeEnabled n || d.inputOk n then m + 2 ^ n else m) 0
  let q := (upTo 3).foldl (fun m n =>
    if d.safeEnabled n && d.chanA n != d.chanB n && decide (d.safeSt ≠ 0) then m + 2 ^ n else m) 0
  (d.put Reg.SAFE_IN Fld.SAFE_IN_HEALTHY h).put Reg.SAFE_IN Fld.SAFE_IN_DISC q

/-- The safety state changes (R284, R312, R319). Leaving TRIPPED ends the grace of the first exit after INIT. -/
def Dev.setSafe (d : Dev) (st : Nat) : Dev :=
  let d1 := (d.put Reg.SAFE_STATE Fld.SAFE_STATE_PREV d.safeSt).put Reg.SAFE_STATE Fld.SAFE_STATE_STATE st
  let d2 := ({ d1 with safe := { d1.safe with fresh := d1.safe.fresh && decide (d.safeSt ≠ 1) } } : Dev).stateEvent 5 0
    (d1.rd Reg.SAFE_STATE)
  (upTo 4).foldl (fun d k => d.wr (Reg.HP_IRQ_STAT k) (d.rd (Reg.HP_IRQ_STAT k) ||| 0x40)) d2

/-- The stamp of a trip or lock-out (R290). -/
def Dev.safeStamp (d : Dev) : Dev :=
  (d.wr Reg.SAFE_TRIP_TIME d.stamp).putB Reg.SAFE_CAUSE Fld.SAFE_CAUSE_TIMEINV d.timeInv

/-- Stage 5 takes every leg of a section (R127, R286): its levels freeze for the plateau, and inserted pulses stop. -/
def SecState.safeFreeze (x : SecState) : SecState :=
  let x0 := { x with safe5 := 1 }
  ([0, 1, 2, 3] : List (Fin 4)).foldl (fun x l =>
    (x.setLeg l { x.lg l with
      frozen5 := (x.lg l).ball, bsPulse := false, bsEnd := none, train := 0 }).drive l x.now) x0

/-- The plateau ends (R286): outer switches of NPC3 and ANPC3 legs with STEP2_INNER first; a leg in its own sequence
and every other leg lose what is still on. -/
def SecState.safeRemove (x : SecState) : SecState :=
  let x0 := { x with safe5 := 2 }
  ([0, 1, 2, 3] : List (Fin 4)).foldl (fun x l =>
    let L := x.lg l
    let own := decide (L.step = 1) || decide (L.step = 2)
    let inner := (decide (x.legType l = 2) || decide (x.legType l = 3)) &&
      decide (x.fld (Reg.OC_CFG l.val) Fld.OC_CFG_STEP2_INNER ≠ 0)
    let f : BitVec 6 := if own || !inner then 0 else L.frozen5 &&& ~~~(0x09 : BitVec 6)
    (x.setLeg l { L with frozen5 := f }).drive l x.now) x0

/-- Every gate of a section is off at stage 5. -/
def SecState.safeOff (x : SecState) : SecState :=
  let x0 := { x with safe5 := 2 }
  ([0, 1, 2, 3] : List (Fin 4)).foldl (fun x l => (x.setLeg l { x.lg l with frozen5 := 0 }).drive l x.now) x0

/-- Stage 5 lets the legs of a section go (R286). -/
def SecState.safeRelease (x : SecState) : SecState :=
  if x.safe5 = 0 then x
  else ([0, 1, 2, 3] : List (Fin 4)).foldl (fun x l => x.tryRelease l true x.now) { x with safe5 := 0 }

/-- A change of stage 5 in every section. -/
def Dev.onStage5 (d : Dev) (f : SecState → SecState) : Dev := { d with sec := d.sec.mapIdx (fun _ x => f x) }

/-- KIND and TARGET of an INJ_CFG word. -/
def injKind (w : W) : Nat := fget Fld.INJ_CFG_KIND w

/-- TARGET, with bit 0 the register's bit 16. -/
def injTarget (w : W) : Nat := fget Fld.INJ_CFG_TARGET w

/-- The held injection drives safety input n (R401). -/
def Dev.inputInjected (d : Dev) (n : Nat) : Bool :=
  match d.inj.act with
  | some w => decide (injKind w = 4) && decide (injTarget w = n) && !d.inj.noEff
  | none => false

/-- The sources of the inputs whose trip removal carries out are raised (R286), an injected one with INJ (R404). -/
def Dev.raiseTrips (d : Dev) : Dev :=
  let d1 := (upTo 4).foldl (fun (d : Dev) n =>
    if d.safe.ramp.getLsbD n then { d with fc := d.fc.pulse (14 + n) (d.safe.rampInj.getLsbD n) } else d) d
  { d1 with safe := { d1.safe with shunt := d1.safe.shunt || d1.safe.ramp.getLsbD 3, ramp := 0, rampInj := 0 } }

/-- Gate removal starts and the block enters a state (R285, R286, R288). -/
def Dev.removal (d : Dev) (st : Nat) : Dev :=
  let d1 := (d.setSafe st).raiseTrips
  { d1.onStage5 (·.safeFreeze) with safe := { d1.safe with offPend := true, step5 := 1 } }

/-- A lock-out with its cause (R290): from READY and RAMP with a category-0 stop. In LOCKOUT the cause
is recorded, and nothing else changes. -/
def Dev.lockOut (d : Dev) (bit : Nat) : Dev :=
  let d0 := d.wr Reg.SAFE_CAUSE (d.rd Reg.SAFE_CAUSE ||| natW (2 ^ bit))
  if d.safeSt = 4 then d0
  else
    let d2 := (d0.safeStamp.bump Reg.SAFE_EVCNT Fld.SAFE_EVCNT_LOCKS).pulse 20
    if d2.safeSt = 2 ∨ d2.safeSt = 3 then d2.removal 4 else d2.setSafe 4

/-- A failure of the output monitoring (R287): read-back 19, mirror contact 18. -/
def Dev.safeMonFail (d : Dev) (ossd : Bool) : Dev := if ossd then (d.pulse 19).lockOut 11 else (d.pulse 18).lockOut 10

/-- A trip of input n (R285). -/
def Dev.trip (d : Dev) (n : Nat) : Dev :=
  let d1 := ((d.wr Reg.SAFE_CAUSE (d.rd Reg.SAFE_CAUSE ||| natW (2 ^ n))).bump Reg.SAFE_EVCNT Fld.SAFE_EVCNT_TRIPS).safeStamp
  let b : BitVec 4 := BitVec.ofNat 4 (2 ^ n)
  let d2 : Dev := { d1 with safe := { d1.safe with since := d1.safe.since ||| b } }
  let cat1 := d.seal 3 && (decide (n = 0) || (decide (n = 1) && d.seal 4))
  if d.safeSt = 2 ∨ d.safeSt = 3 then
    let d3 : Dev := { d2 with safe := { d2.safe with
      ramp := d2.safe.ramp ||| b, rampInj := if d.inputInjected n then d2.safe.rampInj ||| b else d2.safe.rampInj } }
    if cat1 = false then d3.removal 1
    else if d.safeSt = 2 then
      ([0, 1, 2, 3] : List Sec).foldl (fun d s => d.secIf s (·.brSafeStop)) (d3.setSafe 3)
    else d3
  else d2

/-- SAFE_INPUT_CHANGE (R280, R281): a channel is accepted in a new state. A trip is the change of an enabled input from
healthy to tripped; none counts before INIT has ended. -/
def safeInputChange (ch : Fin 8) (level : Bool) (d : Dev) : Dev :=
  let n := if ch.val < 6 then ch.val / 2 else 3
  let was := d.inputOk n
  let d1 := (d.wr Reg.SAFE_IN (if level then d.rd Reg.SAFE_IN ||| natW (2 ^ ch.val) else d.rd Reg.SAFE_IN &&& ~~~(natW (2 ^ ch.val)))).safeInputs
  if decide (ch.val ≠ 7) && decide (d.safeSt ≠ 0) && d.safeEnabled n && was && !d1.inputOk n then d1.trip n else d1

/-- An odd number of switches is closed (R282). -/
def sealOk (sv : BitVec 8) : Bool :=
  decide ((upTo 8).foldl (fun m n => if sv.getLsbD n then m + 1 else m) 0 % 2 = 1)

/-- The seal byte is adopted (R283). -/
def Dev.adoptSeal (d : Dev) (sv : BitVec 8) : Dev :=
  ((d.put Reg.SAFE_SEAL Fld.SAFE_SEAL_ADOPTED sv.toNat).put Reg.SAFE_SEAL Fld.SAFE_SEAL_LIVE sv.toNat).safeInputs

/-- SAFE_INIT_DONE (R284): the seal read in INIT is adopted; TRIPPED, or LOCKOUT on a parity fault. -/
def safeInitDone (sv : BitVec 8) (d : Dev) : Dev :=
  if d.safeSt = 0 then
    let d1 := d.adoptSeal sv
    (if sealOk sv then d1.setSafe 1 else d1.lockOut 9).safeInputs
  else d

/-- DISCREPANCY_TIMEOUT (R281): the channels of input n still disagree. -/
def discrepancyTimeout (n : Fin 3) (d : Dev) : Dev :=
  if Nat.testBit (d.fld Reg.SAFE_IN Fld.SAFE_IN_DISC) n.val then d.lockOut 8 else d

/-- SAFE_SELF_FAIL (R279, R281): GATE_EN stops, the outputs are de-energised, LOCKOUT with cause SELF, device SAFE. The
check for a welded main contactor begins where SO1 was energised (R288). -/
def safeSelfFail (d : Dev) : Dev :=
  let so : BitVec 4 := BitVec.ofNat 4 (d.fld Reg.SAFE_OUT Fld.SAFE_OUT_SO)
  let d1 := (d.wr Reg.SAFE_CAUSE (d.rd Reg.SAFE_CAUSE ||| 0x1000)).put Reg.SAFE_OUT Fld.SAFE_OUT_GATE_EN 0
  let d2 := d1.setSo 0
  let d3 := if d2.safeSt = 4 then d2 else ((d2.safeStamp.bump Reg.SAFE_EVCNT Fld.SAFE_EVCNT_LOCKS).pulse 20).setSafe 4
  ({ d3 with safe := { d3.safe with self := true, offPend := false, weld := d3.safe.weld || so.getLsbD 1, win := d3.safe.win ||| (so &&& 7) } } : Dev).goSafe 3 0

/-- The live seal byte differs from the adopted one or has the wrong parity (R283). -/
def Dev.sealBroken (d : Dev) : Bool :=
  let v := d.fld Reg.SAFE_SEAL Fld.SAFE_SEAL_LIVE
  decide (v ≠ d.fld Reg.SAFE_SEAL Fld.SAFE_SEAL_ADOPTED) || !sealOk (BitVec.ofNat 8 v)

/-- SEAL_READ (R282, R283): every 10 ms after INIT; a byte that differs from the adopted one locks the block out. In
LOCKOUT the cause is recorded at the read that finds the change, not again at each read that follows. -/
def sealRead (sv : BitVec 8) (d : Dev) : Dev :=
  let d1 := d.put Reg.SAFE_SEAL Fld.SAFE_SEAL_LIVE sv.toNat
  if decide (d.safeSt ≠ 0) && d1.sealBroken && !(decide (d.safeSt = 4) && d.sealBroken) then d1.lockOut 9 else d1

/-- RAMP_EXPIRY (R285): the category-1 ramp ends. -/
def rampExpiry (d : Dev) : Dev := if d.safeSt = 3 then d.removal 1 else d

/-- SAFE_PLATEAU_END (R286). -/
def safePlateauEnd (d : Dev) : Dev :=
  if d.safe.step5 = 1 then { d.onStage5 (·.safeRemove) with safe := { d.safe with step5 := 2 } } else d

/-- GATE_EN_STOP (R286): step 2 is complete on every leg, and the toggle stops. -/
def gateEnStop (d : Dev) : Dev :=
  if d.safe.step5 = 2 then (d.onStage5 (·.safeOff)).put Reg.SAFE_OUT Fld.SAFE_OUT_GATE_EN 0 else d

/-- GATE_EN_LOSS (R281, R286): the toggle has been missing for 2 µs, and every gate is removed. -/
def gateEnLoss (d : Dev) : Dev :=
  if d.flag Reg.SAFE_OUT Fld.SAFE_OUT_GATE_EN then d
  else { (d.raiseTrips.onStage5 (·.safeOff)) with safe := { d.raiseTrips.safe with step5 := 2 } }

/-- SO_DEENERGISE (R286, R288): 5 ms after removal started. The check for a welded main contactor begins. -/
def soDeenergise (d : Dev) : Dev :=
  if d.safe.offPend && decide (d.safeSt ≠ 2) then
    let so : BitVec 4 := BitVec.ofNat 4 (d.fld Reg.SAFE_OUT Fld.SAFE_OUT_SO)
    let d1 := d.setSo (so &&& 8)
    { d1 with safe := { d1.safe with offPend := false, weld := so.getLsbD 1, win := d1.safe.win ||| (so &&& 7) } }
  else d

/-- OFF_PULSE_TEST (R287, R288): the read-back of output n is checked, in an off-pulse and at every other time. A
failure locks the block out; an output that fails while de-energised reads high. Nothing is checked before INIT has
ended. -/
def offPulseTest (n : Fin 4) (ok : Bool) (d : Dev) : Dev :=
  let so : BitVec 4 := BitVec.ofNat 4 (d.fld Reg.SAFE_OUT Fld.SAFE_OUT_SO)
  let mon : BitVec 4 := BitVec.ofNat 4 (d.fld Reg.SAFE_OUT Fld.SAFE_OUT_SOMON)
  let b : BitVec 4 := BitVec.ofNat 4 (2 ^ n.val)
  if d.safeSt = 0 then d
  else
    let high := so.getLsbD n.val || !ok
    let d1 := d.put Reg.SAFE_OUT Fld.SAFE_OUT_SOMON (if high then mon ||| b else mon &&& ~~~b).toNat
    if ok then d1 else d1.safeMonFail true

/-- CONTACTOR_CONFIRM (R207, R287): FBKn reports its contactor open or closed. With mirror contacts monitored, a
closed one is confirmed for the sequencers, and one that no longer equals its output outside the 100 ms is a failure.
-/
def contactorConfirm (n : Fin 4) (closed : Bool) (d : Dev) : Dev :=
  let c := d.fld Reg.SAFE_OUT Fld.SAFE_OUT_CLOSED
  let b := 2 ^ n.val
  let c' := if closed then c ||| b else c - (if Nat.testBit c n.val then b else 0)
  let d1 := d.put Reg.SAFE_OUT Fld.SAFE_OUT_CLOSED c'
  if d.fbkMode then d1
  else
    let d2 := ([0, 1, 2, 3] : List Sec).foldl (fun d s => d.secIf s (fun x => x.contactor d1.soClosed)) d1
    if decide (n.val < 3) && decide (d.safeSt ≠ 0) && !d.safe.win.getLsbD n.val &&
        closed != Nat.testBit (d.fld Reg.SAFE_OUT Fld.SAFE_OUT_SO) n.val then d2.safeMonFail false
    else d2

/-- READ_BACK_CONFIRMED (R287): with FBK_MODE 1 an energised output counts as confirmed. -/
def readBackConfirmed (n : Fin 4) (d : Dev) : Dev :=
  if d.fbkMode && decide (n.val < 3) && Nat.testBit (d.fld Reg.SAFE_OUT Fld.SAFE_OUT_SO) n.val then
    let d1 : Dev := { d with safe := { d.safe with conf := d.safe.conf ||| BitVec.ofNat 4 (2 ^ n.val) } }
    ([0, 1, 2, 3] : List Sec).foldl (fun d s => d.secIf s (fun x => x.contactor d1.safe.conf)) d1
  else d

/-- MIRROR_TIMEOUT (R287, R288): the 100 ms after a change of output n end. A contactor that has not followed is a
failure; a main contactor still closed after a trip or lock-out is welded, and the shunt trip is owed. -/
def mirrorTimeout (n : Fin 4) (d : Dev) : Dev :=
  if d.safe.win.getLsbD n.val && decide (n.val < 3) then
    let closed := d.soClosed.getLsbD n.val
    let welded := decide (n.val = 1) && d.safe.weld && closed && !d.fbkMode
    let d1 : Dev := { d with safe := { d.safe with
      win := d.safe.win &&& ~~~(BitVec.ofNat 4 (2 ^ n.val)), shunt := d.safe.shunt || welded
      weld := d.safe.weld && decide (n.val ≠ 1) } }
    if !d.fbkMode && closed != Nat.testBit (d.fld Reg.SAFE_OUT Fld.SAFE_OUT_SO) n.val then d1.safeMonFail false else d1
  else d

/-- SHUNT_TRIP_PULSE (R288): an owed SO3 pulse starts. -/
def shuntTripPulse (d : Dev) : Dev :=
  if d.safe.shunt then
    let so : BitVec 4 := BitVec.ofNat 4 (d.fld Reg.SAFE_OUT Fld.SAFE_OUT_SO)
    let d1 := (d.bump Reg.SAFE_EVCNT Fld.SAFE_EVCNT_SHUNT).setSo (so ||| 8)
    { d1 with safe := { d1.safe with shunt := false } }
  else d

/-- SHUNT_PULSE_END (R288): the pulse ends, and the breaker must be open 100 ms later. -/
def shuntPulseEnd (opened : Bool) (d : Dev) : Dev :=
  let so : BitVec 4 := BitVec.ofNat 4 (d.fld Reg.SAFE_OUT Fld.SAFE_OUT_SO)
  if so.getLsbD 3 then
    let d1 := d.setSo (so &&& 7)
    let c := d1.fld Reg.SAFE_OUT Fld.SAFE_OUT_CLOSED % 8
    let d2 := d1.put Reg.SAFE_OUT Fld.SAFE_OUT_CLOSED (if opened then c else c + 8)
    if opened then d2 else d2.safeMonFail false
  else d

/-- The block enters READY (R286, R287, R289): GATE_EN toggles, stage 5 lets go, the outputs follow their requests. An
input that a byte adopted at this reset enables and that is tripped trips at once. -/
def Dev.safeReady (d : Dev) : Dev :=
  let d1 := (d.setSafe 2).put Reg.SAFE_OUT Fld.SAFE_OUT_GATE_EN 1
  let d2 : Dev := { d1 with safe := { d1.safe with
    fresh := false, since := 0, offPend := false, weld := false, step5 := 0, self := false } }
  let d3 := (d2.onStage5 (·.safeRelease)).safeInputs
  let d4 := d3.soSync
  (upTo 4).foldl (fun d n => if d.safeEnabled n && !d.inputOk n then d.trip n else d) d4

/-- SRESET_PULSE (R289): the falling edge of a pulse of `ms` milliseconds. -/
def sresetPulse (ms : Nat) (d : Dev) : Dev :=
  if d.safeSt = 1 ∨ d.safeSt = 4 then
    let live : BitVec 8 := BitVec.ofNat 8 (d.fld Reg.SAFE_SEAL Fld.SAFE_SEAL_LIVE)
    let quiet := decide (d.fld Reg.SAFE_OUT Fld.SAFE_OUT_SOMON = 0) && decide (d.fld Reg.SAFE_OUT Fld.SAFE_OUT_SO < 8)
    let ok := decide (100 ≤ ms) && decide (ms ≤ 3000) && d.inputsOk &&
      (d.fbkMode || decide (d.soClosed &&& 7 = 0)) && quiet && (decide (d.safeSt = 1) || sealOk live)
    if ok then (if d.safeSt = 4 then d.adoptSeal live else d).safeReady else d.bump Reg.SAFE_EVCNT Fld.SAFE_EVCNT_RST_IGN
  else d

/-- SAFE_AUTO_RESET (R284, R289): with RESET_MODE 1, the first exit from TRIPPED after INIT with every enabled input
healthy for 1 s, and a trip by DOOR or RSD alone once those inputs have been healthy for 1 s; ESTOP and ARC need a
pulse. -/
def safeAutoReset (d : Dev) : Dev :=
  let c := d.safe.since
  let ok := if d.safe.fresh then d.inputsOk else decide (c ≠ 0) && (upTo 4).all (fun n => !c.getLsbD n || d.inputOk n)
  if decide (d.safeSt = 1) && d.seal 6 && decide (c &&& 9 = 0) && ok then d.safeReady else d

/-- SAFE_TIMER.RAMP_MS (R285): the rest of the ramp, which the commands do not time, is open within its bound. -/
def Dev.safeTimer (d : Dev) : W := if d.safeSt = 3 then natW ((clampI 0 100 (Config.freeDev d.freeCount)).toNat) else 0

end Sys2Proof.Machine
end

