-- ==== Sys2Proof/Machine/Aes.lean ====
section
/-! DEFINITION. AES-256 (FIPS 197), its Galois/counter mode (SP 800-38D) as encrypted images use it (R39), and its key wrap
(RFC 3394) as the plate key uses it (R337, R340). -/

namespace Sys2Proof.Machine

/-! ### The field and the S-box -/

/-- A byte times x in the field of AES. -/
def aesTwice (a : Nat) : Nat := if 0x80 ≤ a then (a * 2 % 0x100).xor 0x1B else a * 2

/-- The product of two bytes in the field of AES; the first argument counts the bits of `b` to go. -/
def aesMul : Nat → Nat → Nat → Nat
  | 0, _, _ => 0
  | n + 1, a, b => (if b % 2 = 1 then a else 0).xor (aesMul n (aesTwice a) (b / 2))

/-- The square of a byte. -/
def aesSquare (a : Nat) : Nat := aesMul 8 a a

/-- The inverse of a byte, its 254th power; 0 for 0. -/
def aesInverse (a : Nat) : Nat :=
  let a2 := aesSquare a
  let a4 := aesSquare a2
  let a8 := aesSquare a4
  let a16 := aesSquare a8
  let a32 := aesSquare a16
  let a64 := aesSquare a32
  [a4, a8, a16, a32, a64, aesSquare a64].foldl (fun p x => aesMul 8 p x) a2

/-- A byte rotated left. -/
def aesRot (a k : Nat) : Nat := a * 2 ^ k % 0x100 + a / 2 ^ (8 - k)

/-- The S-box. -/
def aesSub (a : Nat) : Nat :=
  let b := aesInverse a
  ((((b.xor (aesRot b 1)).xor (aesRot b 2)).xor (aesRot b 3)).xor (aesRot b 4)).xor 0x63

/-- The S-box undone. -/
def aesUnsub (a : Nat) : Nat := aesInverse (((aesRot a 1).xor (aesRot a 3)).xor (aesRot a 6) |>.xor 0x05)

/-! ### The cipher -/

/-- Two byte lists combined byte by byte. -/
def xorBytes (a b : List Nat) : List Nat := List.zipWith Nat.xor a b

/-- The words of the key schedule after the first eight, newest first; the first argument counts the words to go. -/
def aesExpand : Nat → Nat → List (List Nat) → List (List Nat)
  | 0, _, ws => ws
  | n + 1, i, ws =>
    let prev := ws.headD []
    let t := if i % 8 = 0 then
        xorBytes (((prev.drop 1 ++ prev.take 1)).map aesSub) [2 ^ (i / 8 - 1), 0, 0, 0]
      else if i % 8 = 4 then prev.map aesSub else prev
    aesExpand n (i + 1) (xorBytes (ws.getD 7 []) t :: ws)

/-- A byte list in pieces of n bytes; the first argument bounds their number. -/
def pieces {α : Type} : Nat → Nat → List α → List (List α)
  | 0, _, _ => []
  | k + 1, n, l => if l.isEmpty then [] else l.take n :: pieces k n (l.drop n)

/-- The fifteen round keys of a 32-byte key. -/
def aesKeys (key : List Byte) : List (List Nat) :=
  let ws := (aesExpand 52 8 ((pieces 8 4 (key.map BitVec.toNat)).reverse)).reverse
  (pieces 15 4 ws).map List.flatten

/-- A block whose byte i is byte p of another, by a list of the p. -/
def aesShuffle (ps b : List Nat) : List Nat := ps.map (fun p => b.getD p 0)

/-- ShiftRows. -/
def aesShift : List Nat → List Nat := aesShuffle [0, 5, 10, 15, 4, 9, 14, 3, 8, 13, 2, 7, 12, 1, 6, 11]

/-- ShiftRows undone. -/
def aesUnshift : List Nat → List Nat := aesShuffle [0, 13, 10, 7, 4, 1, 14, 11, 8, 5, 2, 15, 12, 9, 6, 3]

/-- A column of four bytes times the circulant matrix whose first row is given. -/
def aesColumn (row c : List Nat) : List Nat :=
  (upTo 4).map (fun r => (upTo 4).foldl (fun s k => s.xor (aesMul 8 (c.getD k 0) (row.getD ((k + 4 - r) % 4) 0))) 0)

/-- The columns of a block times a matrix. -/
def aesMix (row b : List Nat) : List Nat := (pieces 4 4 b).flatMap (aesColumn row)

/-- One block encrypted under the round keys. -/
def aesRounds (ks : List (List Nat)) (b : List Nat) : List Nat :=
  let start := xorBytes b (ks.headD [])
  let mid := ((ks.drop 1).take 13).foldl (fun s k => xorBytes (aesMix [2, 3, 1, 1] (aesShift (s.map aesSub))) k) start
  xorBytes (aesShift (mid.map aesSub)) (ks.getD 14 [])

/-- One block decrypted under the round keys. -/
def aesUnrounds (ks : List (List Nat)) (b : List Nat) : List Nat :=
  let start := ((aesUnshift (xorBytes b (ks.getD 14 []))).map aesUnsub)
  let mid := ((ks.drop 1).take 13).reverse.foldl
    (fun s k => (aesUnshift (aesMix [14, 11, 13, 9] (xorBytes s k))).map aesUnsub) start
  xorBytes mid (ks.headD [])

/-! ### Galois/counter mode -/

/-- The product of two blocks in the field of GHASH, as numbers with the first bit of a block the most significant: the
first argument counts the bits of `x` to go, and `v` is the other factor times the power of the element reached. -/
def ghashMul : Nat → Nat → Nat → Nat
  | 0, _, _ => 0
  | n + 1, x, v =>
    (if x / 2 ^ n % 2 = 1 then v else 0).xor (ghashMul n x (if v % 2 = 1 then (v / 2).xor (0xE1 * 2 ^ 120) else v / 2))

/-- A byte list in blocks of sixteen, the last filled with zeros. -/
def gcmBlocks (bs : List Byte) : List Nat :=
  (pieces bs.length 16 bs).map (fun b => beNat ((b ++ List.replicate 16 0).take 16))

/-- GHASH of the additional data and the ciphertext under the hash key. -/
def ghash (h : Nat) (aad ct : List Byte) : Nat :=
  (gcmBlocks aad ++ gcmBlocks ct ++ [8 * aad.length * 2 ^ 64 + 8 * ct.length]).foldl (fun y x => ghashMul 128 (y.xor x) h) 0

/-- A counter block encrypted: the IV of 12 bytes and the counter. -/
def gcmPad (ks : List (List Nat)) (iv : List Byte) (ctr : Nat) : List Byte :=
  (aesRounds ks ((iv ++ beBytes 4 ctr).map BitVec.toNat)).map (BitVec.ofNat 8)

/-- Decryption with its tag (R39): the plaintext, of the length of the ciphertext, or none where the tag differs. -/
def gcmOpen (key iv tag aad ct : List Byte) : Option (List Byte) :=
  let ks := aesKeys key
  let h := beNat ((aesRounds ks (List.replicate 16 0)).map (BitVec.ofNat 8))
  if beNat (gcmPad ks iv 1) ^^^ ghash h aad ct = beNat tag ∧ tag.length = 16 then
    some ((pieces ct.length 16 ct).zipIdx.flatMap (fun p =>
      List.zipWith (· ^^^ ·) p.1 (gcmPad ks iv (p.2 + 2))))
  else none

/-! ### Key wrap -/

/-- The check value of a wrapped key (RFC 3394). -/
def wrapCheck : List Byte := List.replicate 8 0xA6

/-- One step of wrapping: the step's number, the check register and the registers, the next to be wrapped first. -/
def wrapStep (ks : List (List Nat)) (s : List Byte × List (List Byte)) (t : Nat) : List Byte × List (List Byte) :=
  match s.2 with
  | r :: rs =>
    let b := (aesRounds ks ((s.1 ++ r).map BitVec.toNat)).map (BitVec.ofNat 8)
    (List.zipWith (· ^^^ ·) (b.take 8) (beBytes 8 t), rs ++ [b.drop 8])
  | [] => s

/-- A key wrapped under another. -/
def aesWrap (kek key : List Byte) : List Byte :=
  let rs := pieces key.length 8 key
  let (a, out) := ((upTo (6 * rs.length)).map (· + 1)).foldl (wrapStep (aesKeys kek)) (wrapCheck, rs)
  a ++ out.flatten

/-- One step of unwrapping; the registers stand last first. -/
def unwrapStep (ks : List (List Nat)) (s : List Byte × List (List Byte)) (t : Nat) : List Byte × List (List Byte) :=
  match s.2 with
  | r :: rs =>
    let b := (aesUnrounds ks ((List.zipWith (· ^^^ ·) s.1 (beBytes 8 t) ++ r).map BitVec.toNat)).map (BitVec.ofNat 8)
    (b.take 8, rs ++ [b.drop 8])
  | [] => s

/-- A key unwrapped; none where the check value does not come out. -/
def aesUnwrap (kek w : List Byte) : Option (List Byte) :=
  let rs := (pieces w.length 8 (w.drop 8)).reverse
  let (a, out) := ((upTo (6 * rs.length)).map (· + 1)).reverse.foldl (unwrapStep (aesKeys kek)) (w.take 8, rs)
  if a = wrapCheck then some out.reverse.flatten else none

end Sys2Proof.Machine
end

