-- ==== Sys2Proof/Machine/Curve.lean ====
section
/-! DEFINITION. The curve P-384 and the verification of ECDSA with SHA-384 (FIPS 186-5), which R37 names, and the shared
secret of R340. -/

namespace Sys2Proof.Machine

/-- The prime of the field of P-384. -/
def p384 : Nat := 2 ^ 384 - 2 ^ 128 - 2 ^ 96 + 2 ^ 32 - 1

/-- The order of the base point. -/
def p384Order : Nat :=
  0xFFFFFFFFFFFFFFFFFFFFFFFFFFFFFFFFFFFFFFFFFFFFFFFFC7634D81F4372DDF581A0DB248B0A77AECEC196ACCC52973

/-- The coefficient b of the curve y² = x³ − 3x + b. -/
def p384B : Nat :=
  0xB3312FA7E23EE7E4988E056BE3F82D19181D9C6EFE8141120314088F5013875AC656398D8A2ED19D2A85C8EDD3EC2AEF

/-- A point of the curve; none is the point at infinity. -/
abbrev Point384 := Option (Nat × Nat)

/-- The base point. -/
def p384Base : Point384 := some
  (0xAA87CA22BE8B05378EB1C71EF320AD746E1D3B628BA79B9859F741E082542A385502F25DBF55296C3A545E3872760AB7,
   0x3617DE4A96262C6F5D9E98BF9292DC29F8F41DBD289A147CE9DA3113B5F0B8C00A60B1CE1D7E819D7A431D7C90EA0E5F)

/-- A power modulo m; the first argument counts the bits of the exponent to go. -/
def powMod : Nat → Nat → Nat → Nat → Nat
  | 0, _, _, m => 1 % m
  | n + 1, a, e, m =>
    let r := powMod n (a * a % m) (e / 2) m
    if e % 2 = 1 then a * r % m else r

/-- The inverse modulo a prime below 2^384. -/
def invMod (a m : Nat) : Nat := powMod 384 (a % m) (m - 2) m

/-- A difference modulo the prime of the field. -/
def subP (a b : Nat) : Nat := (a + p384 - b % p384) % p384

/-- The point on a chord or tangent of the given slope, reflected. -/
def slopePoint (l x1 y1 x2 : Nat) : Point384 :=
  let x := subP (subP (l * l) x1) x2
  some (x, subP (l * subP x1 x) y1)

/-- The sum of two points. -/
def addPoint : Point384 → Point384 → Point384
  | none, q => q
  | p, none => p
  | some (x1, y1), some (x2, y2) =>
    if x1 = x2 then
      if (y1 + y2) % p384 = 0 then none
      else slopePoint ((3 * x1 * x1 + (p384 - 3)) * invMod (2 * y1) p384 % p384) x1 y1 x1
    else slopePoint (subP y2 y1 * invMod (subP x2 x1) p384 % p384) x1 y1 x2

/-- A multiple of a point; the first argument counts the bits of the factor to go. -/
def mulPoint : Nat → Nat → Point384 → Point384
  | 0, _, _ => none
  | n + 1, k, p =>
    let r := mulPoint n (k / 2) (addPoint p p)
    if k % 2 = 1 then addPoint p r else r

/-- The point of a public key x‖y of 96 bytes; none where it is not on the curve. -/
def keyPoint (key : List Byte) : Point384 :=
  let x := beNat (key.take 48)
  let y := beNat (key.drop 48)
  if key.length = 96 ∧ x < p384 ∧ y < p384 ∧ y * y % p384 = (x * x * x + (p384 - 3) * x + p384B) % p384 then some (x, y)
  else none

/-- An ECDSA signature r‖s of a message verifies with a public key. -/
def ecdsaOk (key sig msg : List Byte) : Bool :=
  let r := beNat (sig.take 48)
  let s := beNat (sig.drop 48)
  match keyPoint key with
  | none => false
  | some q =>
    if sig.length = 96 ∧ 0 < r ∧ r < p384Order ∧ 0 < s ∧ s < p384Order then
      let w := invMod s p384Order
      let u1 := beNat (sha384 msg) * w % p384Order
      let u2 := r * w % p384Order
      match addPoint (mulPoint 384 u1 p384Base) (mulPoint 384 u2 (some q)) with
      | some (x, _) => decide (x % p384Order = r)
      | none => false
    else false

/-- The shared secret of an own number and a public key: the x coordinate in 48 bytes; none for an invalid key. -/
def sharedSecret (own : Nat) (key : List Byte) : Option (List Byte) :=
  match keyPoint key with
  | none => none
  | some q => (mulPoint 384 own (some q)).map (fun p => beBytes 48 p.1)

end Sys2Proof.Machine
end

