-- ==== Sys2Proof/Machine/Run.lean ====
section
/-! DEFINITION. How a command acts on the state: on the device alone, or on the device with its non-volatile storage,
whose writes the command orders and which are carried out at its end. -/

namespace Sys2Proof.Machine

/-- The offset of the proof bank in the MRAM windows (R327). -/
def proofBank : Nat := 0x380000

/-- An anti-rollback counter (R336, R38): 0 the base image, 1 + s the sheet, 5 + s the engine program of section s. Each
is kept in two copies, and the larger one is its value. -/
def Keys.counter (k : Keys) (i : Nat) : W :=
  let a := Tbl.get (fun _ => (0 : W)) k.arb (2 * i)
  let b := Tbl.get (fun _ => (0 : W)) k.arb (2 * i + 1)
  if a.toNat < b.toNat then b else a

/-- A counter raised: the copy that is not its value takes the new one (R336). -/
def Keys.raise (k : Keys) (i : Nat) (v : W) : Keys :=
  let a := Tbl.get (fun _ => (0 : W)) k.arb (2 * i)
  let b := Tbl.get (fun _ => (0 : W)) k.arb (2 * i + 1)
  if (k.counter i).toNat < v.toNat then
    { k with arb := Tbl.set (fun _ => (0 : W)) k.arb (if a.toNat < b.toNat then 2 * i else 2 * i + 1) v }
  else k

/-- Where the FeRAM keeps both copies of the HSS leaf index, and their length (R332, R388). -/
def hssObject : Nat × Nat := (0x2000, 32)

/-- One ordered write carried out. A counter of R336 only rises; the security state never goes back, and RETURNED
burns the device secret to all ones and erases the plate key and the HSS state, which then reads 0 (R342;
notes/assumptions/59.md); BOOT_COUNT saturates (R431); a third owner is not burned (R335). -/
def NonVol.apply (nv : NonVol) (op : NvOp) : NonVol :=
  match op with
  | .mram off bs => { nv with mram := Memory.writeBytes nv.mram off bs }
  | .feram off bs => { nv with feram := Memory.writeBytes nv.feram off bs }
  | .proofStatus e st =>
    let a := proofBank + 0x04 + 12 * e + 8
    { nv with mram := Memory.writeWord nv.mram a (fput ⟨1, 0⟩ (Memory.readWord nv.mram a) st) }
  | .arb i v => { nv with keys := nv.keys.raise i v }
  | .owner e h =>
    if nv.fuses.owners.length < 2 then { nv with fuses := { nv.fuses with owners := nv.fuses.owners ++ [(e, h)] } } else nv
  | .revoke m => { nv with fuses := { nv.fuses with revoked := nv.fuses.revoked ||| m } }
  | .field => if nv.fuses.lcs = 0 then { nv with fuses := { nv.fuses with lcs := 1 } } else nv
  | .returned =>
    { nv with
      fuses := { nv.fuses with lcs := 2, secret := List.replicate 32 0xFF }
      keys := { nv.keys with plateKey := none }
      feram := Memory.writeBytes nv.feram hssObject.1 (List.replicate hssObject.2 0) }
  | .plateKey k => { nv with keys := { nv.keys with plateKey := some k } }
  | .boot => { nv with keys := { nv.keys with boots := min 0xFFFFFFFF (nv.keys.boots + 1) } }

/-- The answer of a command that acts on the whole state. -/
abbrev Out := Host.Outcome State Fault Refusal

/-- The device with no write to non-volatile storage ordered: so a command begins and ends. -/
def Dev.quiet (d : Dev) : Dev := { d with nvOut := [] }

/-- The state with a change of the device and with the non-volatile writes that it ordered carried out. -/
def State.onNv (s : State) (f : NonVol → Dev → Dev) : State :=
  let d := f s.nv s.dev.quiet
  { s with dev := d.quiet, nv := d.nvOut.foldl NonVol.apply s.nv }

/-- The state with a change of the device that leaves non-volatile storage alone. -/
def State.onDev (s : State) (f : Dev → Dev) : State := { s with dev := f s.dev }

/-- A command or event of the device. Nothing happens in a device that is held in reset (R396). -/
def run (s : State) (f : Dev → Dev) : Out := .next (s.onDev (fun d => if d.held then d else f d))

/-- A command or event of the device that may write non-volatile storage. -/
def runNv (s : State) (f : NonVol → Dev → Dev) : Out := .next (s.onNv (fun nv d => if d.held then d else f nv d))

/-- An event of the keep domain, which device reset does not hold (R381). -/
def runKeep (s : State) (f : NonVol → Dev → Dev) : Out := .next (s.onNv f)

end Sys2Proof.Machine
end

