-- ==== Sys2Proof/Machine/KeepDomain.lean ====
section
/-! DEFINITION. The keep domain (R381 to R395, R430): supplies and measurements, bursts with their admission, the A/B
objects of the FeRAM, main power failure with the last gasp, the RTC, tamper and wake. Device reset leaves it alone. -/

namespace Sys2Proof.Machine

/-! ### The objects of the FeRAM (R388, R389) -/

/-- The two copies of an object and the size of a copy, by the burst kind that commits it: the metering record, the HSS
leaf index, the SAFE history. -/
def feObject (kind : Nat) : Nat × Nat × Nat :=
  if kind = 2 then (0x2000, 0x2010, 16) else if kind = 3 then (0x2100, 0x2140, 64) else (0x0000, 0x1000, 3596)

/-- SEQ of a copy, when its CRC is valid. -/
def feSeq (nv : NonVol) (off size : Nat) : Option Nat :=
  let bs := Memory.readBytes nv.feram off size
  if bytesNat (bs.drop (size - 4)) = crc32 (bs.take (size - 4)) then some (bytesNat (bs.take 4)) else none

/-- The copy of an object in force, with its SEQ: the valid one with the larger SEQ. -/
def feNewest (nv : NonVol) (kind : Nat) : Option (Nat × Nat) :=
  let (a, b, n) := feObject kind
  match feSeq nv a n, feSeq nv b n with
  | some x, some y => if x < y then some (b, y) else some (a, x)
  | some x, none => some (a, x)
  | none, some y => some (b, y)
  | none, none => none

/-- The payload of the copy in force. -/
def fePayload (nv : NonVol) (kind : Nat) : Option (List Byte) :=
  (feNewest nv kind).map (fun c => Memory.readBytes nv.feram (c.1 + 4) ((feObject kind).2.2 - 8))

/-- What a commit writes: the copy that is not in force, the new SEQ, and the bytes of the copy. -/
def feCommit (nv : NonVol) (kind : Nat) (payload : List Byte) : Nat × Nat × List Byte :=
  let (a, b, _) := feObject kind
  let (off, seq) := match feNewest nv kind with
    | some (o, s) => (if o = a then b else a, (s + 1) % 2 ^ 32)
    | none => (a, 1)
  let body := natBytes 4 seq ++ payload
  (off, seq, body ++ natBytes 4 (crc32 body))

/-- The next unused HSS leaf (HSS_LEAF.NEXT): what the leaf object holds, 0 while none was committed. -/
def leafNext (nv : NonVol) : Nat := match fePayload nv 2 with | some p => bytesNat (p.take 4) % 2 ^ 30 | none => 0

/-- RTC_SEC of the last SAFE entries as the FeRAM keeps them, newest first. -/
def safeEntries (nv : NonVol) : List W :=
  match fePayload nv 3 with | some p => (bytesWords (p.take 16)).reverse | none => []

/-! ### Supplies (R382, R384) -/

/-- KEEP_SUPPLY_CHANGE (R382): VDDIO33 at 3.10 V or above, else the store at 2.00 V or above, or above 2.20 V when it
is to take over from the backup cell, else the cell. -/
def keepSupplyChange (main store _vbat : Nat) (_nv : NonVol) (d : Dev) : Dev :=
  let wasBat := d.flag Reg.KEEP_STAT Fld.KEEP_STAT_ON_VBAT
  let ok := decide (3100 ≤ main)
  let st := !ok && (if wasBat then decide (2200 < store) else decide (2000 ≤ store))
  let bat := !ok && !st
  let d1 := ((d.putB Reg.KEEP_STAT Fld.KEEP_STAT_MAIN_OK ok).putB Reg.KEEP_STAT Fld.KEEP_STAT_ON_STORE st).putB
    Reg.KEEP_STAT Fld.KEEP_STAT_ON_VBAT bat
  if bat && !wasBat then d1.bump Reg.KEEP_EVCNT Fld.KEEP_EVCNT_VBAT_SW else d1

/-- The threshold flags (R384). -/
def Dev.keepFlags (d : Dev) : Dev :=
  let v := d.fld Reg.KEEP_VSTORE Fld.KEEP_VSTORE_VSTORE
  (d.putB Reg.KEEP_STAT Fld.KEEP_STAT_MEAS_OK (decide (d.fld Reg.KEEP_TH Fld.KEEP_TH_VTH_MEAS ≤ v))).putB
    Reg.KEEP_STAT Fld.KEEP_STAT_TX_OK (decide (d.fld Reg.KEEP_TH Fld.KEEP_TH_VTH_TX ≤ v))

/-- A device source raised by the keep domain while SYS is not held in reset. -/
def Dev.keepRaise (d : Dev) (n : Nat) : Dev := if d.held then d else d.pulse n

/-- Whether the chargers stand still at a store voltage in mV (R383): from 5.25 V within 2 % on, until it is below
5.10 V. -/
def Dev.storeFull (d : Dev) (store : Nat) : Bool :=
  if 5250 + clampI (-105) 105 (Config.freeDev d.freeCount) ≤ (store : Int) then true else decide (5100 ≤ store) && d.keep.full

/-- The voltages measured, in mV (R382, R383): VBAT below 2.20 V raises VBAT_LOW. -/
def Dev.keepVolts (d : Dev) (store vbat hv0 hv1 : Nat) : Dev :=
  let d0 := { d with keep := { d.keep with full := d.storeFull store } }
  let d1 := ((d0.tickFree.wr Reg.KEEP_VSTORE (natW (min 65535 vbat * 65536 + min 65535 store))).wr Reg.KEEP_VHV
    (natW (min 65535 hv1 * 65536 + min 65535 hv0))).keepFlags
  if vbat < 2200 then d1.keepRaise 37 else d1

/-- The chargers that deliver into the store (R383): harvest input 0 or 1 at its operating voltage, and VDDIO33 as 2. -/
def Dev.charges (d : Dev) (src : Fin 3) : Bool :=
  !d.keep.full &&
    (match src with
     | 0 => d.flag Reg.KEEP_CFG Fld.KEEP_CFG_HV0_EN && decide (d.keep.vop.1 ≤ 1000 * d.fld Reg.KEEP_VHV Fld.KEEP_VHV_HV0)
     | 1 => d.flag Reg.KEEP_CFG Fld.KEEP_CFG_HV1_EN && decide (d.keep.vop.2 ≤ 1000 * d.fld Reg.KEEP_VHV Fld.KEEP_VHV_HV1)
     | 2 => d.flag Reg.KEEP_CFG Fld.KEEP_CFG_MAIN_CHG && d.flag Reg.KEEP_STAT Fld.KEEP_STAT_MAIN_OK)

/-- One second of the RTC: 32,768 clocks, with one more or one less when RTC_TRIM has gathered 2^20 (R394). -/
def Dev.rtcSecond (d : Dev) : Dev :=
  let t := d.keep.trim + sgn 16 (d.fld Reg.RTC_TRIM Fld.RTC_TRIM_TRIM)
  let adj : Int := if (2 ^ 20 : Int) ≤ t then 1 else if t ≤ - (2 ^ 20 : Int) then -1 else 0
  let sub := ((d.fld Reg.RTC_SUB Fld.RTC_SUB_SUB : Nat) : Int) + 32768 + adj
  let secs := (d.rd Reg.RTC_SEC).toNat + (sub / 32768).toNat
  ({ d with keep := { d.keep with trim := t - adj * 2 ^ 20 } }.wr Reg.RTC_SEC (natW secs)).put Reg.RTC_SUB Fld.RTC_SUB_SUB
    (sub % 32768).toNat

/-- KEEP_MEASURE (R382): the sampling instant of every second, which is also when the RTC has counted a second. -/
def keepMeasure (store vbat hv0 hv1 : Nat) (_nv : NonVol) (d : Dev) : Dev := d.rtcSecond.keepVolts store vbat hv0 hv1

/-- MPPSET_READ (R383): V_op is 5 times 10 µA times the resistance. -/
def mppsetRead (n : Fin 2) (ohms : Nat) (_nv : NonVol) (d : Dev) : Dev :=
  let v := 50 * ohms
  { d with keep := { d.keep with vop := if n = 0 then (v, d.keep.vop.2) else (d.keep.vop.1, v) } }

/-! ### Bursts (R385 to R387) -/

/-- The place of a burst in the order of R387; a rewrite runs at the place of the SAFE-history commit (R430). -/
def Burst.rank (b : Burst) : Nat := if b.refresh then 3 else b.kind

/-- The bytes of a last-gasp frame (R392). -/
def Dev.gaspBytes (nv : NonVol) (d : Dev) : List Byte :=
  let host := ((upTo 8).flatMap (fun i => wordBytes (d.rd (Reg.LG_DATA i)))).take (d.fld Reg.LG_CFG Fld.LG_CFG_LEN)
  if d.flag Reg.LG_CFG Fld.LG_CFG_TRAIL then
    let t := [0x47, 0x4C] ++ wordBytes (nv.fuses.uid.get 0) ++ wordBytes d.keep.pfRtc ++ wordBytes d.keep.lgSeq
    host ++ t ++ beBytes 2 (crc16 (host ++ t))
  else host

/-- E_need of a burst in nJ (R385). -/
def Dev.burstNeed (nv : NonVol) (d : Dev) (b : Burst) : Nat :=
  if b.kind = 5 then
    ((d.gaspBytes nv).length * charBits d.keep.pfUart + 2) * d.fld Reg.LG_EBIT Fld.LG_EBIT_EBIT
  else 8000 + 10 * (feObject b.kind).2.2

/-- 2,000 times E_avail in nJ for a store voltage in mV (R386). -/
def Dev.burstAvail (d : Dev) (mv : Nat) : Int :=
  (d.fld Reg.KEEP_CFG Fld.KEEP_CFG_CAP : Int) * ((mv : Int) * mv - 3240000)

/-- A commit of metering that ended without a record (R243): SAVE_ERR and METER_SAVE. -/
def Dev.saveErr (d : Dev) : Dev :=
  if d.held then d else (d.put Reg.MET_STAT Fld.MET_STAT_SAVE_ERR 1).pulse 25

/-- The last-gasp transmission is requested once the last-gasp commit has ended (R392). -/
def Dev.gaspNext (d : Dev) : Dev := if d.flag Reg.LG_CFG Fld.LG_CFG_EN then d.requestBurst 5 [] else d

/-- The requester of a refused burst learns of it (R386, R243, R345, R392). -/
def Dev.burstRefused (d : Dev) (b : Burst) : Dev :=
  let d1 := ((d.put Reg.KEEP_STAT Fld.KEEP_STAT_BURST_REFUSED 1).bump Reg.KEEP_EVCNT Fld.KEEP_EVCNT_REFUSED).keepRaise 35
  if b.refresh then d1
  else if b.kind = 1 then ({ d1.saveErr with keep := { d1.saveErr.keep with lgSeq := 0xFFFFFFFF } }).gaspNext
  else if b.kind = 2 then
    if d1.rpt = 1 then
      { (d1.put Reg.RPT_STAT Fld.RPT_STAT_ERR 2).put Reg.RPT_STAT Fld.RPT_STAT_BUSY (b2n d1.rptWait) with rpt := 0 }
    else d1
  else if b.kind = 4 then d1.saveErr
  else if b.kind = 5 then d1.put Reg.LG_STAT Fld.LG_STAT_REFUSED 1
  else d1

/-- A burst runs. A transmission takes UART1, where an entry in progress ends (R322). -/
def Dev.burstRun (d : Dev) (b : Burst) : Dev :=
  let d1 := { d.put Reg.KEEP_STAT Fld.KEEP_STAT_BUSY 1 with keep := { d.keep with running := some b } }
  if b.kind = 5 ∧ !d.held then d1.uartCut.put (Reg.UART_STAT 1) Fld.UART_STAT_LG_BUSY 1 else d1

/-- BURST_START (R386, R387): the waiting burst of the highest priority is decided on the measured voltages. -/
def burstStart (store vbat hv0 hv1 : Nat) (nv : NonVol) (d : Dev) : Dev :=
  match d.keep.running, d.keep.waiting with
  | none, b0 :: t =>
    let b := t.foldl (fun m x => if x.rank < m.rank then x else m) b0
    let d1 := { d with keep := { d.keep with waiting := d.keep.waiting.erase b } }.keepVolts store vbat hv0 hv1
    let need := d1.burstNeed nv b
    let head (adm main : Nat) : W := natW (b.kind * 2 ^ 28 + adm * 2 ^ 27 + main * 2 ^ 26 +
      (if need < 2 ^ 24 then need else (Config.freeWord d1.freeCount).toNat % 2 ^ 24))
    if d1.flag Reg.KEEP_STAT Fld.KEEP_STAT_MAIN_OK then (d1.tickFree.wr Reg.KEEP_BURST (head 1 1)).burstRun b
    else
      let av := d1.burstAvail store
      let ok := decide (d1.fld Reg.KEEP_CFG Fld.KEEP_CFG_CAP ≠ 0) &&
        decide ((need : Int) * d1.fld Reg.KEEP_CFG Fld.KEEP_CFG_MARGIN * 2000 ≤ av * 16)
      let d2 := d1.tickFree.wr Reg.KEEP_AVAIL
        (if 0 ≤ av then natW (quotFree av 2000 (Config.freeBit d1.freeCount)).toNat else Config.freeWord d1.freeCount)
      if ok then (d2.wr Reg.KEEP_BURST (head 1 0)).burstRun b else (d2.wr Reg.KEEP_BURST (head 0 0)).burstRefused b
  | _, _ => d

/-- The burst that runs has ended, sent or cut off; a transmission gives UART1 back (R322). -/
def Dev.burstIdle (d : Dev) : Dev :=
  let d1 := { d.put Reg.KEEP_STAT Fld.KEEP_STAT_BUSY 0 with keep := { d.keep with running := none } }
  if d.keep.running.any (fun b => decide (b.kind = 5)) && !d.held then d1.put (Reg.UART_STAT 1) Fld.UART_STAT_LG_BUSY 0 else d1

/-- BURST_DONE (R389, R392): a commit is written, SEQ first and CRC last; a transmission has been sent. -/
def burstDone (nv : NonVol) (d : Dev) : Dev :=
  match d.keep.running with
  | none => d
  | some b =>
    let d1 := d.burstIdle
    if b.kind = 5 then
      { d1.put Reg.LG_STAT Fld.LG_STAT_SENT 1 with keep := { d1.keep with lastTx := d1.gaspBytes nv } }
    else
      let (off, seq, bytes) := feCommit nv b.kind b.payload
      let d2 := { d1 with nvOut := d1.nvOut ++ [.feram off bytes] }
      let d3 := if (b.kind = 1 ∨ b.kind = 4) ∧ !d.held then d2.wr Reg.MET_SAVE (natW seq) else d2
      if b.kind = 1 then { d3 with keep := { d3.keep with lgSeq := natW seq } }.gaspNext
      else if b.kind = 2 ∧ !b.refresh ∧ d3.rpt = 1 then { d3 with rpt := 2 }
      else d3

/-- A running commit is cut off: its copy holds the new SEQ and a part of the rest, and no valid CRC (R389). -/
def Dev.burstCut (nv : NonVol) (d : Dev) : Dev :=
  match d.keep.running with
  | some b =>
    if b.kind = 5 then d.burstIdle
    else
      let (off, _, bytes) := feCommit nv b.kind b.payload
      let n := 4 + (Config.freeWord d.freeCount).toNat % (bytes.length - 7)
      { d.burstIdle.tickFree with nvOut := d.nvOut ++ [.feram off (bytes.take n)] }
  | none => d

/-! ### Main power failure (R390 to R393) -/

/-- PFAIL (R390, R245): a periodic metering commit stops; each running point closes its cycle in progress as a short
cycle, and the record is handed over as the last-gasp commit, in the place of an older record that waits, so that the
totals miss no more than R245 says; the sections stop; device reset, once it comes, is held (R393). -/
def pfail (nv : NonVol) (d : Dev) : Dev :=
  let periodic := match d.keep.running with | some b => decide (b.rank = 4) | none => false
  let d1 := if periodic then (d.burstCut nv).saveErr else d
  let d2 := (d1.put Reg.KEEP_STAT Fld.KEEP_STAT_PFAIL 1).bump Reg.KEEP_EVCNT Fld.KEEP_EVCNT_PFAIL
  let d3 := { d2 with keep := { d2.keep with
    hold := true, pfRtc := d2.rd Reg.RTC_SEC, pfUart := if d2.held then d2.keep.pfUart else d2.rd (Reg.UART_CFG 1) } }
  if d3.held then d3
  else
    let d4 := (upTo 8).foldl (fun d p => d.pointClose p) d3
    let d5 := if d4.fld Reg.MET_STAT Fld.MET_STAT_RESTORE = 3 then d4
      else ({ d4 with keep := { d4.keep with waiting := d4.keep.waiting.filter (fun b => b.kind ≠ 4) } } : Dev).requestBurst 1
        (d4.meterRecord true)
    d5.stopAll

/-- The hold of R393 has ended: no last-gasp burst is outstanding and the main supply is good. -/
def Dev.holdEnded (d : Dev) : Bool :=
  !d.keep.hold ||
    (d.flag Reg.KEEP_STAT Fld.KEEP_STAT_MAIN_OK &&
      !(d.keep.waiting ++ d.keep.running.toList).any (fun b => decide (b.kind = 1 ∨ b.kind = 5)))

/-! ### RTC, tamper, wake (R394, R395) and the rewrite of R430 -/

/-- RTC_ALARM (R394). -/
def rtcAlarm (_nv : NonVol) (d : Dev) : Dev :=
  if d.rd Reg.RTC_SEC = d.rd Reg.RTC_ALARM then d.put Reg.KEEP_STAT Fld.KEEP_STAT_WAKE 1 else d

/-- TAMPER (R395): an enabled loop reads open on two consecutive samples. KEEP_TAMPER is raised once SYS runs. -/
def tamper (n : Fin 2) (_nv : NonVol) (d : Dev) : Dev :=
  if wbit (d.rd Reg.TAMP_CFG) n.val then
    let d1 := (d.wr Reg.TAMP_STAT (d.rd Reg.TAMP_STAT ||| natW (2 ^ n.val))).wr Reg.TAMP_TIME (d.rd Reg.RTC_SEC)
    let d2 := (d1.bump Reg.KEEP_EVCNT Fld.KEEP_EVCNT_TAMPER).put Reg.KEEP_STAT Fld.KEEP_STAT_WAKE 1
    if d2.held then { d2 with keep := { d2.keep with tamper := true } } else d2.pulse 36
  else d

/-- FERAM_REFRESH (R430): while MAIN_OK is 1, the content of an object is rewritten into its other copy, unless a commit
of the object is due anyway. -/
def feramRefresh (obj : Fin 3) (nv : NonVol) (d : Dev) : Dev :=
  let kind := if obj = 0 then 4 else if obj = 1 then 2 else 3
  let due := (d.keep.waiting ++ d.keep.running.toList).any (fun b => decide (b.kind ≠ 5 ∧ feObject b.kind = feObject kind))
  match fePayload nv kind with
  | some p =>
    if d.flag Reg.KEEP_STAT Fld.KEEP_STAT_MAIN_OK && !due then
      { d with keep := { d.keep with waiting := d.keep.waiting ++ [⟨kind, true, p⟩] } }
    else d
  | none => d

/-- KEEP_POWER_ON (R381): the registers, the RTC and the work of the keep domain start anew; a commit that ran is cut
off. The SAFE entries are those of the FeRAM. -/
def keepPowerOn (nv : NonVol) (d : Dev) : Dev :=
  let d1 := d.burstCut nv
  { d1 with regs := Tbl.keep (fun a => decide (a / 0x10000 ≠ 9)) d1.regs, keep := { hist := safeEntries nv } }

/-- A write into the keep block (R381 to R395): KEEP_CFG.MARGIN below 16 and LG_CFG.LEN above 32 are refused; a write of
RTC_SEC clears RTC_SUB. -/
def Dev.keepWrite (d : Dev) (a : Nat) (r : RegRow) (isOpen : Bool) (v : W) : Dev :=
  let w := r.merge isOpen (d.rd a) v
  if a = Reg.KEEP_CFG ∧ fget Fld.KEEP_CFG_MARGIN w < 16 then d
  else if a = Reg.LG_CFG ∧ 32 < fget Fld.LG_CFG_LEN w then d
  else if a = Reg.RTC_SEC then (d.wr a w).put Reg.RTC_SUB Fld.RTC_SUB_SUB 0
  else if a = Reg.KEEP_TH then (d.wr a w).keepFlags
  else d.wr a w

end Sys2Proof.Machine
end

