-- ==== Sys2Proof/Machine/Lms.lean ====
section
/-! DEFINITION. SHA-256 (FIPS 180-4) and the verification of HSS signatures (RFC 8554) with the parameter sets that R37
accepts. -/

namespace Sys2Proof.Machine

/-! ### SHA-256 -/

/-- The round constants: the upper halves of the first 64 of SHA-384. -/
def sha2K : List W := (shaK.take 64).map (fun k => k.extractLsb' 32 32)

/-- The initial hash value. -/
def sha2Init : List W :=
  [0x6A09E667, 0xBB67AE85, 0x3C6EF372, 0xA54FF53A, 0x510E527F, 0x9B05688C, 0x1F83D9AB, 0x5BE0CD19]

/-- The four bytes of a word, most significant first. -/
def be4 (w : W) : List Byte := (wordBytes w).reverse

/-- The words of a message, most significant byte first. -/
def words32 : List Byte → List W
  | a :: b :: c :: d :: t => le4 d c b a :: words32 t
  | _ => []

/-- The message with its padding. -/
def sha2Pad (bs : List Byte) : List Byte :=
  bs ++ [0x80] ++ List.replicate ((119 - bs.length % 64) % 64) 0 ++ be8 (BitVec.ofNat 64 (8 * bs.length))

/-- One round: the eight working words and the newest sixteen words of the schedule. -/
def sha2Round (v : List W × List W) (k : W) : List W × List W :=
  match v with
  | ([a, b, c, d, e, f, g, h], w :: ws) =>
    let s1 := e.rotateRight 6 ^^^ e.rotateRight 11 ^^^ e.rotateRight 25
    let t1 := h + s1 + ((e &&& f) ^^^ (~~~e &&& g)) + k + w
    let s0 := a.rotateRight 2 ^^^ a.rotateRight 13 ^^^ a.rotateRight 22
    let t2 := s0 + ((a &&& b) ^^^ (a &&& c) ^^^ (b &&& c))
    let x := ws.getD 0 0
    let y := ws.getD 13 0
    let next := (y.rotateRight 17 ^^^ y.rotateRight 19 ^^^ (y >>> 10)) + ws.getD 8 0 +
      (x.rotateRight 7 ^^^ x.rotateRight 18 ^^^ (x >>> 3)) + w
    ([t1 + t2, a, b, c, d + t1, e, f, g], ws ++ [next])
  | _ => v

/-- The blocks of a padded message in turn; the first argument bounds their number. -/
def sha2Blocks : Nat → List W → List W → List W
  | 0, h, _ => h
  | n + 1, h, ws =>
    if ws.length < 16 then h
    else sha2Blocks n (List.zipWith (· + ·) h (sha2K.foldl sha2Round (h, ws.take 16)).1) (ws.drop 16)

/-- SHA-256 of a byte string. -/
def sha256 (bs : List Byte) : List Byte :=
  let ws := words32 (sha2Pad bs)
  (sha2Blocks ws.length sha2Init ws).flatMap be4

/-! ### One-time signatures -/

/-- The number of chains, the width w and the shift of the checksum of an LMOTS set; none for one not accepted. -/
def otsSet (ty : Nat) : Option (Nat × Nat × Nat) :=
  match ty with
  | 1 => some (265, 1, 7)
  | 2 => some (133, 2, 6)
  | 3 => some (67, 4, 4)
  | 4 => some (34, 8, 0)
  | _ => none

/-- Digit i of w bits of a byte string. -/
def otsDigit (bs : List Byte) (w i : Nat) : Nat :=
  (bs.getD (i * w / 8) 0).toNat / 2 ^ (8 - w * (i % (8 / w) + 1)) % 2 ^ w

/-- The checksum of a digest. -/
def otsSum (q : List Byte) (w shift : Nat) : Nat :=
  (upTo (256 / w)).foldl (fun s i => s + (2 ^ w - 1 - otsDigit q w i)) 0 * 2 ^ shift

/-- A chain carried on from a step for n steps. -/
def otsChain (pre : List Byte) : Nat → Nat → List Byte → List Byte
  | 0, _, x => x
  | n + 1, j, x => otsChain pre n (j + 1) (sha256 (pre ++ beBytes 1 j ++ x))

/-- The candidate for the one-time public key from a signature: its identifier and leaf, and the message. -/
def otsKey (id : List Byte) (q p w shift : Nat) (c : List Byte) (ys : List (List Byte)) (msg : List Byte) : List Byte :=
  let pre := id ++ beBytes 4 q
  let dig := sha256 (pre ++ beBytes 2 0x8181 ++ c ++ msg)
  let all := dig ++ beBytes 2 (otsSum dig w shift)
  sha256 (pre ++ beBytes 2 0x8080 ++ (upTo p).flatMap (fun i =>
    let a := otsDigit all w i
    otsChain (pre ++ beBytes 2 i) (2 ^ w - 1 - a) a (ys.getD i [])))

/-! ### Trees -/

/-- The height of an LMS set, 5 to 25; none for one not accepted. -/
def lmsHeight (ty : Nat) : Option Nat := if 5 ≤ ty ∧ ty ≤ 9 then some (5 * (ty - 4)) else none

/-- The root that a path gives: the number of the node, the nodes beside the path, the node's value. -/
def lmsRoot (id : List Byte) : Nat → List (List Byte) → List Byte → List Byte
  | _, [], x => x
  | n, y :: ys, x =>
    lmsRoot id (n / 2) ys
      (sha256 (id ++ beBytes 4 (n / 2) ++ beBytes 2 0x8383 ++ (if n % 2 = 1 then y ++ x else x ++ y)))

/-- n pieces of 32 bytes from the start of a list. -/
def hashes (n : Nat) (bs : List Byte) : List (List Byte) := (upTo n).map (fun i => (bs.drop (32 * i)).take 32)

/-- The length of an LMS signature, by the types that it names; none for types not accepted or bytes missing. -/
def lmsLength (sig : List Byte) : Option Nat :=
  match otsSet (beAt sig 4 4) with
  | none => none
  | some (p, _, _) =>
    match lmsHeight (beAt sig (40 + 32 * p) 4) with
    | none => none
    | some h => if sig.length < 44 + 32 * (p + h) then none else some (44 + 32 * (p + h))

/-- An LMS signature of a message verifies with an LMS public key of 56 bytes. -/
def lmsOk (key sig msg : List Byte) : Bool :=
  match otsSet (beAt sig 4 4), lmsHeight (beAt key 0 4) with
  | some (p, w, shift), some h =>
    let id := (key.drop 8).take 16
    let q := beAt sig 0 4
    let leaf := otsKey id q p w shift ((sig.drop 8).take 32) (hashes p (sig.drop 40)) msg
    let top := sha256 (id ++ beBytes 4 (2 ^ h + q) ++ beBytes 2 0x8282 ++ leaf)
    decide (key.length = 56) && decide (sig.length = 44 + 32 * (p + h)) && decide (beAt sig 4 4 = beAt key 4 4) &&
      decide (beAt sig (40 + 32 * p) 4 = beAt key 0 4) && decide (q < 2 ^ h) &&
      decide (lmsRoot id (2 ^ h + q) (hashes h (sig.drop (44 + 32 * p))) top = key.drop 24)
  | _, _ => false

/-- The levels of an HSS signature below the top: each signs the key of the next, the last signs the message. -/
def hssLevels (msg : List Byte) : Nat → List Byte → List Byte → Bool
  | 0, key, sig => lmsOk key sig msg
  | n + 1, key, sig =>
    match lmsLength sig with
    | none => false
    | some l =>
      let next := (sig.drop l).take 56
      lmsOk key (sig.take l) next && hssLevels msg n next (sig.drop (l + 56))

/-- An HSS signature of a message verifies with an HSS public key: the number of levels, 1 to 8, and the top LMS key. -/
def hssOk (key sig msg : List Byte) : Bool :=
  let l := beAt key 0 4
  decide (1 ≤ l) && decide (l ≤ 8) && decide (key.length = 60) && decide (4 ≤ sig.length) && decide (beAt sig 0 4 + 1 = l) &&
    hssLevels msg (l - 1) (key.drop 4) (sig.drop 4)

end Sys2Proof.Machine
end

