-- ==== Sys2Proof/Machine/Security.lean ====
section
/-! DEFINITION. Identity, tokens, the watermark report and the arming of couching (R327 to R347, R353): what the MRAM
directories say, BOOT_CMD, COUCH_CMD, and what the crypto engine answers. -/

namespace Sys2Proof.Machine

/-! ### The directories of the MRAM (R328, R329) -/

/-- Non-volatile storage with the writes that a command has ordered so far. -/
def Dev.nvNow (d : Dev) (nv : NonVol) : NonVol := d.nvOut.foldl NonVol.apply nv

/-- A word of an MRAM bank, by offset in the MRAM windows. -/
def NonVol.word (nv : NonVol) (off : Nat) : Nat := (Memory.readWord nv.mram off).toNat

/-- OFFSET, SIZE and STATUS of entry e of the proof directory (R328). -/
def NonVol.proof (nv : NonVol) (e : Nat) : Nat × Nat × Nat :=
  let a := proofBank + 0x04 + 12 * e
  (nv.word a, nv.word (a + 4), nv.word (a + 8) % 4)

/-- An entry of the proof directory names a new image: the MAGIC stands, SIZE is not 0, STATUS is new, and the image
lies in the proof bank at a word-aligned offset of at least 0x40. -/
def NonVol.proofNew (nv : NonVol) (e : Nat) : Bool :=
  let (off, size, st) := nv.proof e
  decide (nv.word proofBank = 0x44504753) && decide (size ≠ 0) && decide (st = 0) && decide (off % 4 = 0) &&
    decide (0x40 ≤ off) && decide (off + size ≤ 0x380000)

/-- The bytes of the image that entry e of the proof directory names. -/
def NonVol.proofImage (nv : NonVol) (e : Nat) : List Byte :=
  Memory.readBytes nv.mram (proofBank + (nv.proof e).1) (nv.proof e).2.1

/-- A copy of the bank directory: SEQ and the five entries, each OFFSET, SIZE and measurement; none without its MAGIC
and a valid CRC (R329). -/
def NonVol.dirCopy (nv : NonVol) (off : Nat) : Option (Nat × List (Nat × Nat × List Byte)) :=
  let bs := Memory.readBytes nv.mram off 0x124
  if bytesNat (bs.take 4) = 0x52444753 ∧ bytesNat (bs.drop 0x120) = crc32 (bs.take 0x120) then
    some (bytesNat ((bs.drop 4).take 4), (upTo 5).map (fun e =>
      let b := bs.drop (8 + 56 * e)
      (bytesNat (b.take 4), bytesNat ((b.drop 4).take 4), (b.drop 8).take 48)))
  else none

/-- The directory in force: whether it is copy B, its SEQ and its entries. Without a valid copy no image is named. -/
def NonVol.bankDir (nv : NonVol) : Bool × Nat × List (Nat × Nat × List Byte) :=
  match nv.dirCopy 0, nv.dirCopy 0x1000 with
  | some a, some b => if a.1 < b.1 then (true, b.1, b.2) else (false, a.1, a.2)
  | some a, none => (false, a.1, a.2)
  | none, some b => (true, b.1, b.2)
  | none, none => (true, 0, List.replicate 5 (0, 0, []))

/-- The bytes of the image that entry e of the bank directory names; none where SIZE is 0 or the image lies outside the
bank. -/
def NonVol.bankImage (nv : NonVol) (e : Nat) : Option (List Byte) :=
  let (off, size, _) := nv.bankDir.2.2.getD e (0, 0, [])
  if size = 0 ∨ 0x380000 < off + size then none else some (Memory.readBytes nv.mram off size)

/-- The lowest-addressed gap of the active bank that holds an image (R330): from 0x2000 upward, outside every image that
the directory names. -/
def NonVol.gap (nv : NonVol) (size : Nat) : Option Nat :=
  let used := (nv.bankDir.2.2.filter (fun e => decide (e.2.1 ≠ 0))).map (fun e => (e.1, e.1 + e.2.1))
  let starts := (0x2000 :: used.map (fun u => max 0x2000 u.2)).filter (fun a =>
    decide (a + size ≤ 0x380000) && used.all (fun u => decide (u.2 ≤ a) || decide (a + size ≤ u.1)))
  starts.foldl (fun m a => match m with | none => some a | some b => some (min a b)) none

/-- The bytes of a bank directory. -/
def dirBytes (seq : Nat) (es : List (Nat × Nat × List Byte)) : List Byte :=
  let body := natBytes 4 0x52444753 ++ natBytes 4 seq ++
    es.flatMap (fun e => natBytes 4 e.1 ++ natBytes 4 e.2.1 ++ (e.2.2 ++ List.replicate 48 0).take 48)
  body ++ natBytes 4 (crc32 body)

/-- The directory switched to an image: the other copy is written with SEQ + 1 and entry e replaced (R329). -/
def NonVol.dirSwitch (nv : NonVol) (e off size : Nat) (hash : List Byte) : NvOp :=
  let (b, seq, es) := nv.bankDir
  .mram (if b then 0 else 0x1000) (dirBytes ((seq + 1) % 2 ^ 32) (es.set e (off, size, hash)))

/-- An anti-rollback counter (R336, R38). -/
def NonVol.arbOf (nv : NonVol) (i : Nat) : W := nv.keys.counter i

/-! ### Status words -/

/-- BOOT_STAT: its upper half shows fuses and keys (R333, R335, R337, R342). -/
def Dev.bootStat (d : Dev) (nv : NonVol) : W :=
  (d.rd Reg.BOOT_STAT &&& 0x07000001) ||| natW (nv.fuses.lcs % 4 * 2 ^ 30 + nv.fuses.owners.length % 4 * 2 ^ 28 +
    b2n nv.keys.plateKey.isSome * 2 ^ 27 + nv.fuses.revoked.toNat * 2 ^ 16)

/-- ENG_STAT.MODE as it reads (R150). -/
def SecState.modeView (x : SecState) : Nat :=
  if x.state = 0 ∨ x.state = 2 then 0 else if x.state = 1 ∨ x.state = 5 ∨ x.state = 6 then 3 else x.eng.mode

/-! ### The signature block (R37) -/

/-- The word at a byte offset of an image. -/
def imgWord (bs : List Byte) (off : Nat) : Nat := bytesNat ((bs.drop off).take 4)

/-- The end of a pair of signatures with their keys that starts at an offset; none where it does not end within the
size. -/
def sigPair (bs : List Byte) (off size : Nat) : Option Nat :=
  let n := imgWord bs (off + 96)
  let k := off + 100 + (n + 3) / 4 * 4
  let e := k + 100 + imgWord bs (k + 96)
  if off + 100 ≤ size ∧ k + 100 ≤ size ∧ e ≤ size then some e else none

/-- The end of the signature block of an image as stored in `size` bytes; none where it is incomplete. -/
def sigEnd (bs : List Byte) (len size : Nat) : Option Nat :=
  match sigPair bs (len + 4) size with
  | none => none
  | some e => if Nat.testBit (imgWord bs len) 9 then sigPair bs e size else some e

/-- The ECDSA signature of the pair at an offset verifies, with a public key of the hash given. -/
def ecdsaAt (bs : List Byte) (off : Nat) (hash msg : List Byte) : Bool :=
  let n := imgWord bs (off + 96)
  let key := (bs.drop (off + 100 + (n + 3) / 4 * 4)).take 96
  decide (sha384 key = hash) && ecdsaOk key ((bs.drop off).take 96) msg

/-- The HSS signature of the pair at an offset verifies, with a public key that has the hash given, its length word
included as the block holds it (notes/assumptions/10.md). -/
def hssAt (bs : List Byte) (off : Nat) (hash msg : List Byte) : Bool :=
  let n := imgWord bs (off + 96)
  let k := off + 100 + (n + 3) / 4 * 4 + 96
  let m := imgWord bs k
  decide (sha384 ((bs.drop k).take (4 + m)) = hash) && hssOk ((bs.drop (k + 4)).take m) ((bs.drop (off + 100)).take n) msg

/-- A key slot of either algorithm is unrevoked (R334). -/
def NonVol.slotOk (nv : NonVol) (slot : Nat) (hss : Bool) : Bool :=
  decide (slot < 4) && !Nat.testBit nv.fuses.revoked.toNat (slot + (if hss then 4 else 0))

/-- The vendor's ECDSA signature of what ends at `len`: its slot is not revoked, its key hashes to the slot, and it
verifies (R37, R334). The message goes up to SIG_INFO. -/
def NonVol.vendorEcdsaOk (nv : NonVol) (bs : List Byte) (len : Nat) : Bool :=
  let slot := imgWord bs len % 16
  nv.slotOk slot false && ecdsaAt bs (len + 4) (nv.fuses.ecdsa.get ⟨slot % 4, by omega⟩) (bs.take (len + 4))

/-- The vendor's HSS signature (R37, R334). -/
def NonVol.vendorHssOk (nv : NonVol) (bs : List Byte) (len : Nat) : Bool :=
  let slot := imgWord bs len / 16 % 16
  nv.slotOk slot true && hssAt bs (len + 4) (nv.fuses.hss.get ⟨slot % 4, by omega⟩) (bs.take (len + 4))

/-- The owner pair is there and verifies with the keys of the slot in force, once an owner is enrolled (R37, R335). -/
def NonVol.ownerOk (nv : NonVol) (bs : List Byte) (len size : Nat) : Bool :=
  match nv.fuses.owners.getLast? with
  | none => true
  | some (e, h) =>
    Nat.testBit (imgWord bs len) 9 &&
      (match sigPair bs (len + 4) size with
       | none => false
       | some off => ecdsaAt bs off e (bs.take (len + 4)) && hssAt bs off h (bs.take (len + 4)))

/-! ### The plate key (R337) -/

/-- The plate key that a token carries (R340): wrapped under the key that ECDH with the device's key-agreement key
gives; none where the ephemeral key is no point of the curve or the wrapping does not check. -/
def NonVol.tokenKey (nv : NonVol) (payload : List Byte) : Option (List Byte) :=
  match sharedSecret (beNat (Config.deviceKey 1 nv.fuses.secret)) (payload.take 96) with
  | none => none
  | some z => aesUnwrap (Config.tokenKek z) (payload.drop 96)

/-- The plate key in force, unwrapped (R337). -/
def NonVol.plateKey (nv : NonVol) : Option (List Byte) :=
  nv.keys.plateKey.bind (aesUnwrap (Config.deviceKey 2 nv.fuses.secret))

/-! ### Tokens (R340 to R342) -/

/-- BOOT_CMD.TOKEN: the token waits its turn at the crypto engine. -/
def Dev.tokenCmd (d : Dev) : Dev :=
  { d.put Reg.TOKEN_STAT Fld.TOKEN_STAT_BUSY 1 with crypto := d.crypto ++ [8] }

/-- A fresh challenge. -/
def Dev.newChallenge (d : Dev) : Dev :=
  (upTo 8).foldl (fun d i => (d.wr (Reg.CHALLENGE i) (Config.freeWord d.freeCount)).tickFree) d

/-- The payload length that a KIND of token calls for (R340). -/
def tokenShape (kind : Nat) (payload : List Byte) : Bool :=
  match kind with
  | 1 => decide (payload.length = 4)
  | 2 => decide (100 ≤ payload.length) && decide (payload.length = 100 + bytesNat ((payload.drop 96).take 4))
  | 3 => decide (payload.length = 4)
  | 4 => payload.isEmpty
  | 5 => decide (payload.length = 136)
  | _ => false

/-- A revocation or an enrolment that R334 or R335 refuses. -/
def NonVol.tokenRefused (nv : NonVol) (kind : Nat) (payload : List Byte) : Bool :=
  let m := nv.fuses.revoked.toNat ||| (bytesNat payload) % 256
  (kind == 2 && decide (2 ≤ nv.fuses.owners.length)) || (kind == 3 && (m % 16 == 15 || m / 16 == 15))

/-- RESULT of a token, the first check that fails (R341). `tok` holds the token from its first byte to the end of the
proof bank. A PLATE_KEY token whose key does not unwrap changes nothing and ends with 0x9 (notes/assumptions/59.md). -/
def Dev.tokenResult (d : Dev) (nv : NonVol) (wrote : Bool) (tok : List Byte) : Nat :=
  let kind := imgWord tok 4
  let len := imgWord tok 8
  let payload := (tok.take len).drop 0x3C
  let uid := (upTo 4).flatMap (fun i => wordBytes (nv.fuses.uid.get ⟨i % 4, by omega⟩))
  let chal := (upTo 8).flatMap (fun i => wordBytes (d.rd (Reg.CHALLENGE i)))
  if imgWord tok 0 ≠ 0x4B544753 ∨ len % 4 ≠ 0 ∨ len < 0x3C ∨ tok.length < len ∨ tokenShape kind payload = false then 1
  else if (tok.drop 0x0C).take 16 ≠ uid then 2
  else if (tok.drop 0x1C).take 32 ≠ chal then 3
  else if !nv.vendorEcdsaOk tok len then 4
  else if !nv.vendorHssOk tok len then 5
  else if !nv.ownerOk tok len tok.length then 6
  else if nv.fuses.lcs = 2 then 7
  else if nv.tokenRefused kind payload then 8
  else if !wrote || (kind == 5 && (nv.tokenKey payload).isNone) then 9
  else 0

/-- What an accepted token does. -/
def Dev.tokenAct (d : Dev) (nv : NonVol) (kind : Nat) (payload : List Byte) : Dev :=
  let v := bytesNat (payload.take 4)
  match kind with
  | 1 =>
    let d1 := if Nat.testBit v 0 then d.put Reg.BOOT_STAT Fld.BOOT_STAT_TEST_UNLOCK 1 else d
    if Nat.testBit v 1 then d1.put Reg.BOOT_STAT Fld.BOOT_STAT_INJ_UNLOCK 1 else d1
  | 2 => { d with nvOut := d.nvOut ++ [.owner (sha384 (payload.take 96)) (sha384 (payload.drop 96))] }
  | 3 => { d with nvOut := d.nvOut ++ [.revoke (BitVec.ofNat 8 v)] }
  | 4 => { d with nvOut := d.nvOut ++ [.returned] }
  | _ =>
    match nv.tokenKey payload with
    | some key => { d with nvOut := d.nvOut ++ [.plateKey (aesWrap (Config.deviceKey 2 nv.fuses.secret) key)] }
    | none => d

/-- TOKEN_DONE (R341): the token at the head of the crypto engine's requests ends with its RESULT; `wrote` tells that
the fuse or MRAM write it asked for succeeded. -/
def tokenDone (wrote : Bool) (nv : NonVol) (d : Dev) : Dev :=
  match d.crypto with
  | 8 :: rest =>
    let off := d.fld Reg.TOKEN_PTR Fld.TOKEN_PTR_OFFSET
    let tok := Memory.readBytes nv.mram (proofBank + off) (0x700000 - proofBank - off)
    let kind := imgWord tok 4
    let res := d.tokenResult nv wrote tok
    let d1 := ((({ d with crypto := rest } : Dev).put Reg.TOKEN_STAT Fld.TOKEN_STAT_RESULT res).put Reg.TOKEN_STAT
      Fld.TOKEN_STAT_KIND kind).putB Reg.TOKEN_STAT Fld.TOKEN_STAT_BUSY (rest.contains 8)
    if res = 0 then (d1.tokenAct nv kind ((tok.take (imgWord tok 8)).drop 0x3C)).newChallenge else d1
  | _ => d

/-- BOOT_CMD.FIELD (R342): DEVELOPMENT to FIELD. -/
def Dev.fieldCmd (d : Dev) (nv : NonVol) : Dev :=
  if nv.fuses.lcs = 0 then { d with nvOut := d.nvOut ++ [.field] } else d

/-! ### The watermark report (R343 to R345) -/

/-- A measurement in a report: 48 bytes, zero where nothing is loaded. -/
def measBytes (m : List Byte) : List Byte := (m ++ List.replicate 48 0).take 48

/-- The words of a report from 0x040 to 0x07F. -/
def Dev.reportWords (d : Dev) (nv : NonVol) : List W :=
  let rev := (d.rd Reg.DEV_REV).toNat
  let claims := (upTo 4).foldl (fun m k => m + b2n (d.portCompat k) * 2 ^ k) 0
  let modes := (upTo 4).foldl (fun m i =>
    let s : Sec := ⟨i % 4, by omega⟩
    m + (d.sc s).modeView * 4 ^ i) 0
  [d.stamp,
   natW (b2n d.timeInv + b2n (d.flag Reg.TIME_STAT Fld.TIME_STAT_SET) * 2 + bitsN rev 15 8 * 2 ^ 8 + bitsN rev 7 0 * 2 ^ 16),
   natW nv.keys.boots,
   natW (leafNext nv),
   natW ((d.bootStat nv).toNat / 2 ^ 16 + claims * 2 ^ 16),
   natW (d.secStates.toNat % 2 ^ 16 * 2 ^ 16 + d.devState * 2 ^ 8 + modes)] ++
    (upTo 9).map nv.arbOf ++ [0]

/-- The signed bytes of a report (R344). -/
def Dev.reportBytes (d : Dev) (nv : NonVol) : List Byte :=
  let secs (f : SecState → List Byte) : List Byte := d.sec.toList.flatMap (fun x => measBytes (f x))
  natBytes 4 0x54524753 ++ natBytes 4 0x00010000 ++ natBytes 4 0x320 ++ wordBytes (d.rd Reg.DEV_ID) ++
    nv.fuses.uid.toList.flatMap wordBytes ++ (upTo 8).flatMap (fun i => wordBytes (d.rd (Reg.RPT_NONCE i))) ++
    (d.reportWords nv).flatMap wordBytes ++ measBytes Config.romHash ++ measBytes d.mBase ++
    secs (·.mSheet) ++ secs (·.mProgA) ++ secs (·.mProgB)

/-- A report is assembled, and the commit of the next leaf index is requested (R345). -/
def Dev.reportBegin (d : Dev) (nv : NonVol) : Dev :=
  let d1 := d.wr Reg.RPT_STAT 0x80000000
  ({ d1 with report := d.reportBytes nv, rpt := 1, rptRecent := true, rptWait := false } : Dev).requestBurst 2
    (natBytes 4 ((leafNext nv + 1) % 2 ^ 30) ++ List.replicate 4 0)

/-- BOOT_CMD.REPORT (R345). -/
def Dev.reportCmd (d : Dev) (nv : NonVol) : Dev :=
  if nv.fuses.lcs = 2 then d.wr Reg.RPT_STAT 0x01000000
  else if d.rpt ≠ 0 ∨ d.rptRecent = true then { d.wr Reg.RPT_STAT 0x80000000 with rptWait := true }
  else d.reportBegin nv

/-- REPORT_WAIT_END (R345): 1.25 s have passed since the last report. -/
def reportWaitEnd (nv : NonVol) (d : Dev) : Dev :=
  let d1 := { d with rptRecent := false }
  if d1.rptWait && decide (d1.rpt = 0) then d1.reportBegin nv else d1

/-- REPORT_DONE (R345): both signatures are made. -/
def reportDone (ecdsa hss : List Byte) (d : Dev) : Dev :=
  if d.rpt = 2 then
    { d.wr Reg.RPT_STAT (natW (b2n d.rptWait * 2 ^ 31 + 2 ^ 30 + (0x384 + hss.length) % 2 ^ 16)) with
      rpt := 0, report := d.report ++ ecdsa ++ natBytes 4 hss.length ++ hss }
  else d

/-- A write of BOOT_CMD. -/
def Dev.bootCmd (d : Dev) (nv : NonVol) (v : W) : Dev :=
  if !keyIs v 0xA35C then d.badKey
  else
    let d1 := if wbit v 0 then d.fieldCmd nv else d
    let d2 := if wbit v 1 then d1.tokenCmd else d1
    if wbit v 2 then d2.reportCmd nv else d2

/-! ### Arming a couching (R346, R347, R353) -/

/-- COUCH_STAT with a phase and a reason. -/
def Dev.couchSet (d : Dev) (s : Sec) (phase reason : Nat) : Dev :=
  (d.put (Reg.COUCH_STAT s.val) Fld.COUCH_STAT_PHASE phase).put (Reg.COUCH_STAT s.val) Fld.COUCH_STAT_REASON reason

/-- A couching is activated and has not ended. -/
def Dev.couchBusy (d : Dev) (s : Sec) : Bool :=
  (d.sc s).couch.due || (decide (2 ≤ d.couchPhase s) && decide (d.couchPhase s ≤ 4))

/-- COUCH_CMD.ARM (R346): armed for the passes of T through zero still to come. With WRAPS 0 and an instant that has
passed already, network time equals it only after the next pass. -/
def Dev.couchArm (d : Dev) (s : Sec) : Dev :=
  if d.couchBusy s then d
  else
    let w := d.fld (Reg.COUCH_AT_WRAPS s.val) Fld.COUCH_AT_WRAPS_WRAPS
    let late := decide (w = 0) && decide ((d.rd (Reg.COUCH_AT_NS s.val)).toNat < d.stamp.toNat)
    (d.couchSet s 1 0).onSec s (·.onCouch (fun c => { c with passes := d.time.passes + w + b2n late }))

/-- What R347 asks at activation: 0, or the reason of the refusal. -/
def Dev.couchRefusal (d : Dev) (nv : NonVol) (s : Sec) : Nat :=
  if !wbit (d.policy.get s) 1 then 1
  else if !(decide (d.secSt s = 3) || decide (d.secSt s = 4)) || decide ((d.sc s).eng.mode ≠ 0) || d.claimed s then 2
  else if !nv.proofNew (s.val + 1) then 3
  else 0

/-- Activation (R347): refused with its reason, or due at the section's next tick start. -/
def Dev.couchActivate (d : Dev) (nv : NonVol) (s : Sec) : Dev :=
  match d.couchRefusal nv s with
  | 0 => ((d.wr (Reg.COUCH_STAT s.val) 0).couchSet s 1 0).onSec s (·.onCouch (fun c => { c with due := true }))
  | r => d.couchSet s 0 r

/-- COUCH_CMD.NOW (R346). -/
def Dev.couchNow (d : Dev) (nv : NonVol) (s : Sec) : Dev := if d.couchBusy s then d else d.couchActivate nv s

/-- COUCH_CMD.CANCEL (R353): disarms, or abandons before takeover. -/
def Dev.couchCancel (d : Dev) (s : Sec) : Dev :=
  if (d.sc s).couch.due then (d.couchAbandon s 12).onSec s (fun x => { x with couch := {} })
  else if d.couchPhase s = 2 ∨ d.couchPhase s = 3 then d.couchAbandon s 12
  else if d.couchPhase s = 1 then d.couchSet s 0 0
  else d

/-- A write of COUCH_CMD: CANCEL before NOW before ARM where one write sets several. -/
def Dev.couchCmd (d : Dev) (nv : NonVol) (s : Sec) (v : W) : Dev :=
  if !keyIs v 0x5CA3 then d.badKey
  else if wbit v 1 then d.couchCancel s
  else if wbit v 2 then d.couchNow nv s
  else if wbit v 0 then d.couchArm s
  else d

/-- COUCH_ACTIVATE (R346): the instant of an armed couching has come, as T stands now; not while the counter is
halted. -/
def couchActivate (s : Sec) (nv : NonVol) (d : Dev) : Dev :=
  let c := (d.sc s).couch
  let there := decide (c.passes < d.time.passes) ||
    (decide (c.passes = d.time.passes) && decide ((d.rd (Reg.COUCH_AT_NS s.val)).toNat ≤ d.stamp.toNat))
  if decide (d.couchPhase s = 1) && !c.due && !d.timeInv && there then d.couchActivate nv s else d

end Sys2Proof.Machine
end

