-- ==== Sys2Proof/Machine/TestBlock.lean ====
section
/-! DEFINITION. Test access and fault injection (R400 to R407): permission, the selects of the test balls, the injection
points, and the INJ mark of the sources that injected detectors raise. -/

namespace Sys2Proof.Machine

/-! ### Permission (R406, R407) -/

/-- The test multiplexer is permitted, by security state (0 DEVELOPMENT, 1 FIELD, 2 RETURNED). -/
def Dev.tmOk (d : Dev) (lcs : Nat) : Bool :=
  decide (lcs ≠ 1) || d.flag Reg.BOOT_STAT Fld.BOOT_STAT_TEST_UNLOCK

/-- Injection is permitted now. -/
def Dev.injOk (d : Dev) (lcs : Nat) : Bool :=
  decide (lcs ≠ 1) || (d.flag Reg.BOOT_STAT Fld.BOOT_STAT_INJ_UNLOCK &&
    ([0, 1, 2, 3] : List Sec).all (fun s => decide (d.secSt s ≠ 4) && decide (d.secSt s ≠ 7)))

/-- TEST_STAT with its views TM_OK and INJ_OK. -/
def Dev.testStat (d : Dev) (lcs : Nat) : W :=
  fput Fld.TEST_STAT_INJ_OK (fput Fld.TEST_STAT_TM_OK (d.rd Reg.TEST_STAT) (b2n (d.tmOk lcs))) (b2n (d.injOk lcs))

/-! ### The test multiplexer (R400) -/

/-- A select names a listed signal with a PARAM in its range. -/
def selListed (sig p : Nat) : Bool :=
  if sig = 0x00 ∨ sig = 0x60 then true
  else if sig = 0x01 then decide (p ≤ 10)
  else if sig = 0x10 ∨ sig = 0x11 ∨ sig = 0x12 ∨ sig = 0x13 ∨ sig = 0x61 then decide (p ≤ 3)
  else if sig = 0x20 ∨ sig = 0x33 ∨ sig = 0x52 then decide (p ≤ 63)
  else if sig = 0x21 ∨ sig = 0x22 ∨ sig = 0x32 then decide (p ≤ 95)
  else if sig = 0x30 then decide (p ≤ 31)
  else if sig = 0x31 then decide (p ≤ 15)
  else if sig = 0x40 then decide (p ≤ 255) && decide (p % 64 < 48)
  else if sig = 0x50 ∨ sig = 0x51 then decide (p ≤ 255)
  else if sig = 0x70 then decide (10 ≤ p) && decide (p ≤ 31)
  else false

/-- A write of TMA_SELn or TMB_SELn: without permission it is ignored; a select that is not listed is taken, drives low,
and both set TM_REF. -/
def Dev.selWrite (d : Dev) (lcs a : Nat) (v : W) : Dev :=
  let ref := d.put Reg.TEST_STAT Fld.TEST_STAT_TM_REF 1
  if !d.tmOk lcs then ref
  else (if selListed (fget Fld.TMA_SEL_SIG v) (fget Fld.TMA_SEL_PARAM v) then d else ref).wr a (v &&& 0x80FF00FF)

/-- The gate index g of the device as section, leg of the section and switch (R2). -/
def gateOf (g : Nat) : Sec × Fin 4 × Nat := (⟨g / 24 % 4, by omega⟩, ⟨g / 6 % 4, by omega⟩, g % 6)

/-- The pair of a global source drives its TRUE rail. -/
def Dev.railTrue (d : Dev) (g : Nat) : Bool :=
  if g < 64 then (d.fc.pair g).drive else ((d.sc (srcSec g)).fc.pair (srcLoc g)).drive

/-- The level of the test ball whose select register is at an address, for the signals that are levels of the state:
engine stalls, requests, interlock outputs, comparators, latches, FLT, monitor states, rails and safety outputs. A
pulse of 10 ns has passed between two commands, and a clock toggles (Dev.testClock); both show low here. -/
def Dev.testBall (d : Dev) (lcs a : Nat) : Bool :=
  let w := d.rd a
  let sig := fget Fld.TMA_SEL_SIG w
  let p := fget Fld.TMA_SEL_PARAM w
  let (s, l, n) := gateOf p
  let sl (i : Nat) : Sec := ⟨i / 4 % 4, by omega⟩
  if !fbit Fld.TMA_SEL_EN w || !d.tmOk lcs || !selListed sig p then false
  else if sig = 0x13 then
    (d.sc ⟨p % 4, by omega⟩).eng.run.any (fun r => r.stall || r.wait.isSome)
  else if sig = 0x21 then ((d.sc s).legs.get l).req.getLsbD n
  else if sig = 0x22 then ((d.sc s).legs.get l).out.getLsbD n
  else if sig = 0x30 then wbit ((d.sc (sl (p / 2))).rd (Reg.OC_LIVE (p / 2 % 4))) (p % 2)
  else if sig = 0x31 then (d.sc (sl p)).flag (Reg.PROT_STAT (p % 4)) Fld.PROT_STAT_LATCH
  else if sig = 0x32 then wbit ((d.sc s).rd (Reg.OC_LIVE l.val)) (8 + n)
  else if sig = 0x33 then
    (d.sc ⟨p / 16 % 4, by omega⟩).flag (Reg.WM_LIVE (p / 2 % 8)) (if p % 2 = 1 then Fld.WM_LIVE_FILT_HI else Fld.WM_LIVE_FILT_LO)
  else if sig = 0x50 then d.railTrue p
  else if sig = 0x51 then d.railTrue (256 + p)
  else if sig = 0x52 then d.railTrue (512 + p)
  else if sig = 0x61 then Nat.testBit (d.fld Reg.SAFE_OUT Fld.SAFE_OUT_SO) p
  else false

/-! ### Injection (R401 to R405) -/

/-- KIND and TARGET name a detector (R401). -/
def injValid (w : W) : Bool :=
  let t := injTarget w
  let k := injKind w
  if k = 0 ∨ k = 8 then decide (t < 576)
  else if k = 1 then decide (t % 256 < 16) && decide (t < 512)
  else if k = 2 then decide (t < 96)
  else if k = 3 then decide (t < 64)
  else if k = 4 ∨ k = 5 then decide (t < 4)
  else if k = 6 ∨ k = 7 then decide (t < 8)
  else false

/-- The pair of a global source changed. -/
def Dev.onPair (d : Dev) (g : Nat) (f : Collector → Nat → Collector) : Dev :=
  if g < 64 then { d with fc := f d.fc g } else d.onSec (srcSec g) (fun x => { x with fc := f x.fc (srcLoc g) })

/-- The pair of a global source. -/
def Dev.pairOf (d : Dev) (g : Nat) : Pair :=
  if g < 64 then d.fc.pair g else (d.sc (srcSec g)).fc.pair (srcLoc g)

/-- A source that is driven now and was not before carries the INJ mark (R404). -/
def Dev.markInj (d0 d1 : Dev) (g : Nat) : Dev :=
  if (d1.pairOf g).drive && !(d0.pairOf g).drive then d1.onPair g (fun c n => c.setPair n { c.pair n with inj := true })
  else d1

/-- The section and local leg of leg t of the device. -/
def legSec (t : Nat) : Sec × Fin 4 := (⟨t / 4 % 4, by omega⟩, ⟨t % 4, by omega⟩)

/-- The global number of local source n of section s (R256). -/
def gsrc (s n : Nat) : Nat := 64 + 128 * s + n

/-- The ROUTE sources of a section that monitor m of it feeds (R259). -/
def SecState.monitorRoutes (x : SecState) (m : Nat) : List Nat :=
  (upTo 8).filter (fun r =>
    let det := x.fld (Reg.FC_ROUTE r) Fld.FC_ROUTE_DETECTOR
    decide (det = 0x10 + m) || decide (det = 0x18 + m))

/-- The global sources that an injection raises (INJ_STAT.SRC is the first). An uncorrectable error of the device
collector enters SAFE without a source. -/
def Dev.injSources (d : Dev) (w : W) : List Nat :=
  let t := injTarget w
  let k := injKind w
  if k = 0 ∨ k = 8 then [t]
  else if k = 1 then [gsrc (t % 16 / 4) (8 + 8 * (t % 4) + t / 256)]
  else if k = 2 then [gsrc (t / 24) (8 + 8 * (t / 6 % 4) + 2)]
  else if k = 3 then ((d.sc ⟨t % 32 / 8 % 4, by omega⟩).monitorRoutes (t % 8)).map (fun r => gsrc (t % 32 / 8) (120 + r))
  else if k = 4 then [14 + t]
  else if k = 5 then [gsrc t 40]
  else if t < 4 then [gsrc t (if k = 6 then 44 else 45)]
  else if k = 6 then [1] else []

/-- The detector is active already from its real input (R403). -/
def Dev.injActive (d : Dev) (w : W) : Bool :=
  let t := injTarget w
  let k := injKind w
  if k = 0 then (d.pairOf t).drive
  else if k = 1 then wbit ((d.sc (legSec (t % 16)).1).rd (Reg.OC_LIVE (t % 4))) (t / 256)
  else if k = 2 then wbit ((d.sc (gateOf t).1).rd (Reg.OC_LIVE (gateOf t).2.1.val)) (8 + t % 6)
  else if k = 3 then
    (d.sc ⟨t % 32 / 8 % 4, by omega⟩).flag (Reg.WM_LIVE (t % 8)) (if 32 ≤ t then Fld.WM_LIVE_CMP_HI else Fld.WM_LIVE_CMP_LO)
  else if k = 4 then !d.inputOk t
  else if k = 8 then (d.pairOf t).broken
  else false

/-- The memory number of the engine for a MEM code of INJ_ADDR. -/
def injMem (m : Nat) : Nat := if m = 3 then 0 else m + 1

/-- An injection acts (R401). A monitor comparator and a safety input act through their filters, whose events follow. -/
def Dev.injApply (d : Dev) (w : W) : Dev :=
  let t := injTarget w
  let k := injKind w
  let a := d.rd Reg.INJ_ADDR
  if k = 0 then d.onPair t (fun c n => c.hold n true true)
  else if k = 1 then
    let (s, l) := legSec (t % 16)
    d.markInj (d.secIf s (fun x => if t < 256 then x.oc1 l else x.oc2 l)) (gsrc s.val (8 + 8 * l.val + t / 256))
  else if k = 2 then
    let (s, l, n) := gateOf t
    d.markInj (d.secIf s (fun x => x.driverFault l ⟨n % 6, by omega⟩ true)) (gsrc s.val (8 + 8 * l.val + 2))
  else if k = 3 then
    d.secIf ⟨t % 32 / 8 % 4, by omega⟩
      (·.put (Reg.WM_LIVE (t % 8)) (if 32 ≤ t then Fld.WM_LIVE_CMP_HI else Fld.WM_LIVE_CMP_LO) 1)
  else if k = 4 then d
  else if k = 8 then
    if h : t < 576 then pairBroken ⟨t, h⟩ false (d.onPair t (fun c n => c.setPair n { c.pair n with inj := true })) else d
  else
    let d1 := { d with inj := { d.inj with
      pend := d.inj.pend ++ [(k, min t 4, injMem (fget Fld.INJ_ADDR_MEM a), fget Fld.INJ_ADDR_ADDR a)] } }
    let s : Sec := ⟨t % 4, by omega⟩
    if k = 5 then d1.onSec s (fun x => { x with eng := { x.eng with injMis := true } })
    else if k = 7 ∧ t < 4 ∧ fget Fld.INJ_ADDR_MEM a ≠ 3 then
      d1.onSec s (fun x => { x with eng := { x.eng with
        imgB := { x.eng.imgB with bad := x.eng.imgB.bad ++ [(injMem (fget Fld.INJ_ADDR_MEM a), fget Fld.INJ_ADDR_ADDR a)] } } })
    else d1

/-- A held injection ends: the pair of KIND 0 and the broken pair of KIND 8 are let go, a monitor comparator follows
its input. An assertion of KIND 0 that is still on its way to the collector was held long enough (R402) and gives its
event. A driver fault of KIND 2 leaves OC_LIVE. The other detectors release through the events of their real inputs.
-/
def Dev.injRelease (d : Dev) : Dev :=
  match d.inj.act with
  | none => d
  | some w =>
    let t := injTarget w
    let k := injKind w
    let d1 := { d.put Reg.INJ_STAT Fld.INJ_STAT_ACTIVE 0 with inj := { d.inj with act := none, noEff := false } }
    if d.inj.noEff then d1
    else if k = 0 then
      d1.onPair t (fun c n => if (c.pair n).inj then c.hold n false else c)
    else if k = 2 then
      let (s, l, n) := gateOf t
      d1.secIf s (fun x => x.driverFault l ⟨n % 6, by omega⟩ false)
    else if k = 3 then
      d1.secIf ⟨t % 32 / 8 % 4, by omega⟩
        (·.put (Reg.WM_LIVE (t % 8)) (if 32 ≤ t then Fld.WM_LIVE_CMP_HI else Fld.WM_LIVE_CMP_LO) 0)
    else if k = 8 then
      if h : t < 576 then (pairRestored ⟨t, h⟩ d1).onPair t (fun c n => c.setPair n { c.pair n with inj := false }) else d1
    else d1

/-- FIRE (R401 to R403, R406): refused without permission, while an injection holds, and for a target that is none. -/
def Dev.injFire (d : Dev) (lcs : Nat) : Dev :=
  let w := d.rd Reg.INJ_CFG
  if !d.injOk lcs || d.inj.act.isSome || !injValid w then d.put Reg.TEST_STAT Fld.TEST_STAT_INJ_REF 1
  else
    let d1 := ((d.bump Reg.INJ_STAT Fld.INJ_STAT_COUNT).put Reg.INJ_STAT Fld.INJ_STAT_SRC ((d.injSources w).headD 0)).wr
      Reg.INJ_TIME d.stamp
    let held := decide (injKind w ≤ 4 ∨ injKind w = 8)
    let d2 := if held then { d1.put Reg.INJ_STAT Fld.INJ_STAT_ACTIVE 1 with inj := { d1.inj with act := some w, noEff := d.injActive w } }
      else d1
    if d.injActive w then d2.put Reg.INJ_STAT Fld.INJ_STAT_NOEFFECT 1 else d2.injApply w

/-- A write of INJ_CMD with its key 0xB3C5: STOP ends a held injection, FIRE starts one. -/
def Dev.injCmd (d : Dev) (lcs : Nat) (v : W) : Dev :=
  if !keyIs v 0xB3C5 then d.badKey
  else
    let d1 := if wbit v 1 then d.injRelease else d
    if wbit v 0 then d1.injFire lcs else d1

/-- INJ_END (R402): a held injection has lasted DUR. -/
def injEnd (d : Dev) : Dev := d.injRelease

/-- The boot of a section ends the injections into it (R402). -/
def Dev.injDrop (d : Dev) (s : Sec) : Dev :=
  let mine := match d.inj.act with
    | some w => (d.injSources w).any (fun g => decide (64 ≤ g) && decide (srcSec g = s))
    | none => false
  let d1 := if mine then d.injRelease else d
  { d1 with inj := { d1.inj with pend := d1.inj.pend.filter (fun p => decide (p.2.1 ≠ s.val)) } }

/-- A filter event of a detector that the held injection drives marks the sources that it raises (R404). -/
def Dev.injFiltered (d0 d1 : Dev) (is : W → Bool) : Dev :=
  match d0.inj.act with
  | some w => if is w && !d0.inj.noEff then (d0.injSources w).foldl (fun d g => d0.markInj d g) d1 else d1
  | none => d1

/-- The held injection drives side `hi` of monitor m of section s. -/
def injMonitor (s m : Nat) (hi : Bool) (w : W) : Bool :=
  decide (injKind w = 3) && decide (injTarget w % 32 = 8 * s + m) && (decide (32 ≤ injTarget w) == hi)

/-- The held injection drives OC1 or a FLT input of leg l of section s, whose blanking has ended. -/
def injLeg (s l : Nat) (w : W) : Bool :=
  (decide (injKind w = 1) && decide (injTarget w = 4 * s + l)) || (decide (injKind w = 2) && decide (injTarget w / 6 = 4 * s + l))

/-- Waiting injections of a section that a command of its engine has carried out: the mismatch of KIND 5, the
uncorrectable word of KIND 7 (R404). -/
def Dev.injWatch (d0 : Dev) (s : Sec) (d1 : Dev) : Dev :=
  d0.inj.pend.foldl (fun d p =>
    let drop (d : Dev) : Dev := { d with inj := { d.inj with pend := d.inj.pend.erase p } }
    if p.2.1 ≠ s.val then d
    else if p.1 = 5 ∧ (d0.sc s).eng.injMis ∧ !(d1.sc s).eng.injMis then drop (d0.markInj d (gsrc s.val 40))
    else if p.1 = 7 ∧ ((d1.sc s).fc.pair 45).drive ∧ !((d0.sc s).fc.pair 45).drive ∧
        bitsN ((d1.sc s).rd Reg.ECC_STAT).toNat 27 26 = p.2.2.1 ∧ bitsN ((d1.sc s).rd Reg.ECC_STAT).toNat 11 0 = p.2.2.2 then
      drop (d0.markInj d (gsrc s.val 45))
    else d) d1

/-- The injection that waits for the next read of a word, if one does. -/
def Dev.injAt (d : Dev) (s mem addr : Nat) : Option (Nat × Nat × Nat × Nat) :=
  d.inj.pend.find? (fun p => decide (6 ≤ p.1) && decide (p.2.1 = s) && (decide (s = 4) || (decide (p.2.2.1 = mem) && decide (p.2.2.2 = addr))))

/-- What a read finds when bits of the word have been injected: the worse of the two. -/
def eccWorse (k : Nat) (e : EccResult) : EccResult :=
  if k = 7 then .uncorrectable else match e with | .uncorrectable => .uncorrectable | _ => .corrected

/-- A read of a word with the bits that an injection has changed (R401): the read finds them, and their source is marked
unless the word was faulty by itself. -/
def Dev.injRead (d : Dev) (s mem addr : Nat) (e : EccResult) (read : EccResult → Dev → Dev) : Dev :=
  match d.injAt s mem addr with
  | none => read e d
  | some p =>
    let d1 := read (eccWorse p.1 e) { d with inj := { d.inj with pend := d.inj.pend.erase p } }
    if e = .clean then
      let g := if s = 4 then 1 else gsrc s (if p.1 = 6 then 44 else 45)
      if s = 4 ∧ p.1 = 7 then d1 else d.markInj d1 g
    else d1

end Sys2Proof.Machine
end

