-- ==== Sys2Proof/Machine/Bus.lean ====
section
/-! DEFINITION. Register access (R8, R21, R22): the address map, what each register reads as, what a write does, bus errors,
and the native frames of the host ports (R309 to R311). -/

namespace Sys2Proof.Machine

/-! ### The address map -/

/-- Where a byte address lies (R21). -/
inductive Place where
  | dev
  | sec (s : Sec) (off : Nat)
  | mram (off : Nat)
  | nowhere
  deriving DecidableEq, Repr

/-- The place of an address. -/
def placeOf (a : Nat) : Place :=
  if a < 0xC0000 then .dev
  else if 0x100000 ≤ a ∧ a < 0x500000 then .sec ⟨(a / 0x100000 - 1) % 4, by omega⟩ (a % 0x100000)
  else if 0x1000000 ≤ a ∧ a < 0x1800000 then .mram (a - 0x1000000)
  else .nowhere

/-- The registers of the status file, held in SYS (R22). -/
def statusFile (off : Nat) : Bool := off == 0 || off == 0x20 || off == 0x24 || off == 0x28 || off == 0x2c

/-- The correlator of the device, which every section window shows (R226). -/
def isCorrelator (off : Nat) : Bool := decide (0x70800 ≤ off) && decide (off < 0x70900)

/-! ### Reading a section -/

/-- PROF_STAT (R167). -/
def SecState.profStat (x : SecState) (ch : Nat) : W :=
  let p := x.eng.st.ch ch
  let lim (k : Nat) : Int := ((Tbl.get (fun _ => (0 : W)) (x.imgOf .run).coef k).toNat * 2 ^ 32 : Nat)
  let (vl, al) := match Tbl.get (fun _ => (none : Option Nat)) x.eng.st.plim ch with
    | some k => (decide ((p.v.natAbs : Int) = lim k), decide ((p.a.natAbs : Int) = lim (k + 1)))
    | none => (false, false)
  natW (b2n al * 4 + b2n vl * 2 + b2n (decide (p.x = p.tgt * 2 ^ 32) && decide (p.v = 0)))

/-- What a register of the engine block reads as. The memory windows show the copy of the running engine. -/
def SecState.engView (x : SecState) (o : Nat) : W :=
  let e := o % 0x10000
  let img := x.imgOf .run
  let w0 (t : Tbl W) (i : Nat) : W := Tbl.get (fun _ => (0 : W)) t i
  if o = Reg.ENG_STAT then
    let r := x.rd o
    fput Fld.ENG_STAT_MODE (fput Fld.ENG_STAT_RUNNING (fput Fld.ENG_STAT_CTX r x.eng.ctx) (b2n x.eng.run.isSome)) x.modeView
  else if 0x400 ≤ e ∧ e < 0x500 then
    let ch := (e - 0x400) / 16
    let p := x.eng.st.ch ch
    if e % 16 = 0 then intW p.tgt else if e % 16 = 4 then intW p.y else if e % 16 = 8 then intW (p.v / 2 ^ 32)
    else x.profStat ch
  else if 0x1000 ≤ e ∧ e < 0x1400 then w0 x.eng.st.wreg ((e - 0x1000) / 4)
  else if 0x1400 ≤ e ∧ e < 0x1410 then x.eng.st.sel.get ⟨(e - 0x1400) / 4 % 4, by omega⟩
  else if 0x4000 ≤ e ∧ e < 0x8000 then w0 img.coef ((e - 0x4000) / 4)
  else if 0x8000 ≤ e ∧ e < 0xC000 then w0 img.lut (512 * ((e - 0x8000) / 0x800) + (e - 0x8000) % 0x800 / 4)
  else if 0xC000 ≤ e ∧ e < 0xE000 then w0 img.prog ((e - 0xC000) / 4)
  else x.rd o

/-- What a section register reads as, apart from the snapshots of a port. -/
def Dev.secView (d : Dev) (s : Sec) (o : Nat) : W :=
  let x := d.sc s
  match o / 0x10000 with
  | 1 => x.legView o
  | 2 =>
    if o = Reg.ADC_STAT then
      (upTo 12).foldl (fun (m : W) c => if x.running c && d.adcClock then m ||| natW (2 ^ c) else m) (x.rd o &&& 0x1000)
    else x.rd o
  | 3 =>
    if o = Reg.ALIGN_STAT then fput Fld.ALIGN_STAT_SUSP (x.rd o) (d.alignSusp s)
    else
      let l : Fin 4 := ⟨(o - 0x30100) / 0x100 % 4, by omega⟩
      if o = Reg.LEG_CNT l.val then x.cntView l else x.rd o
  | 5 => (x.fcIO s).view (o - 0x50000)
  | 6 => x.engView o
  | 7 => if isCorrelator o then d.islView o else x.rd o
  | _ => x.rd o

/-- The registers of a section window whose reads return the port's snapshot (R92, R157). -/
def secSnapped (o : Nat) : Bool :=
  (decide (0x21000 ≤ o) && decide (o < 0x21600) && decide (o % 0x20 = 0x10 ∨ o % 0x20 = 0x14 ∨ o % 0x20 = 0x18)) ||
    (decide (0x60180 ≤ o) && decide (o < 0x60200))

/-- A read of a mapped section register through port k: its value, and what the read does (R8, R92, R157). -/
def Dev.secRead (d : Dev) (k : Port) (s : Sec) (o : Nat) (r : RegRow) : Dev × W :=
  let a := secBase s + o
  if secSnapped o then (d, d.snapRd k a)
  else if o = Reg.ENG_OUT_SEQ then
    let d1 := engOutSeqRead k s d
    (d1, d1.snapRd k a)
  else if 0x21000 ≤ o ∧ o < 0x21600 ∧ o % 0x20 = 0x0C then
    (accStatRead k s ⟨(o - 0x21000) / 0x20 % 48, by omega⟩ d, (d.sc s).rd o)
  else
    let v := d.secView s o
    if r.rc = 0 then (d, v)
    else if isCorrelator o then (d.islWr o (d.islRd o &&& ~~~(BitVec.ofNat 32 r.rc)), v)
    else (d.onSec s (fun x => x.wr o (x.rd o &&& ~~~(BitVec.ofNat 32 r.rc))), v)

/-! ### Reading the device blocks -/

/-- HP_IRQ_STAT with the interrupt bits of the collectors (R312). -/
def Dev.hpIrq (d : Dev) (a : Nat) : W :=
  let secs := (upTo 4).foldl (fun m i =>
    let s : Sec := ⟨i % 4, by omega⟩
    m + b2n ((d.sc s).fcIO s).irq * 2 ^ (i + 1)) (b2n d.fcIO.irq)
  (d.rd a &&& 0x60) ||| natW secs

/-- HPk_IRQ is asserted in a native port while an enabled bit of HP_IRQ_STAT is set (R312). -/
def Dev.hpIrqOut (d : Dev) (k : Port) : Bool :=
  !d.portCompat k.val && decide (d.hpIrq (Reg.HP_IRQ_STAT k.val) &&& d.rd (Reg.HP_IRQ_EN k.val) ≠ 0)

/-- A word of the report buffer. -/
def Dev.reportWord (d : Dev) (o : Nat) : W :=
  match bytesWords (((d.report.drop o).take 4 ++ List.replicate 4 0).take 4) with | w :: _ => w | [] => 0

/-- The pool offset that the host window shows at an offset (R314). -/
def Dev.poolOff (d : Dev) (o : Nat) : Nat := 32768 * d.fld Reg.Q_PAGE Fld.Q_PAGE_PAGE + o

/-- Registers of the device whose reads return the port's snapshot (R242, R249, R252, R294, R297). -/
def devSnapped (a : Nat) : Bool :=
  a == Reg.TIME_AUX || a == Reg.TIME_RAW_HI || a == Reg.HARM_STAT || a == Reg.HARM_TIME ||
    (decide (0x40100 ≤ a) && decide (a < 0x40900) &&
      (let o := a % 0x100
       decide (0x28 ≤ o ∧ o ≤ 0x48) || o == 0x74 || o == 0x78))

/-- What a device register reads as, apart from snapshots. -/
def Dev.devView (d : Dev) (nv : NonVol) (a : Nat) : W :=
  let o := a % 0x10000
  match a / 0x10000 with
  | 0 => if a = Reg.SEC_STATES then d.secStates else d.rd a
  | 2 => d.fcIO.view o
  | 3 => if a = Reg.SAFE_TIMER then d.safeTimer else d.rd a
  | 4 =>
    if 0x100 ≤ o ∧ o < 0x900 ∧ 0x50 ≤ o % 0x100 ∧ o % 0x100 ≤ 0x68 then
      d.liveView (o / 0x100 - 1) ((o % 0x100 - 0x50) / 4)
    else d.rd a
  | 5 =>
    if 0x100 ≤ o ∧ o < 0x500 ∧ o % 0x100 = 0x20 then
      fput Fld.LAUNCH_STAT_PENDING (d.rd a) (d.eth.get ⟨(o / 0x100 - 1) % 4, by omega⟩).slots.length
    else d.rd a
  | 7 => if o < 0x400 ∧ o % 0x100 = 0x0C then d.hpIrq a else d.rd a
  | 10 =>
    if a = Reg.BOOT_STAT then d.bootStat nv
    else if a = Reg.HSS_LEAF then natW (leafNext nv)
    else if a = Reg.BOOT_COUNT then natW nv.keys.boots
    else if 0x20 ≤ o ∧ o < 0x30 then nv.fuses.uid.get ⟨(o - 0x20) / 4 % 4, by omega⟩
    else if 0x80 ≤ o ∧ o < 0xA4 then nv.arbOf ((o - 0x80) / 4)
    else d.rd a
  | 11 => if a = Reg.TEST_STAT then d.testStat nv.fuses.lcs else d.rd a
  | _ => d.rd a

/-- A read of a mapped device register through port k. -/
def Dev.devRead (d : Dev) (nv : NonVol) (k : Port) (a : Nat) (r : RegRow) : Dev × W :=
  if a = Reg.TIME_NS then d.timeNsRead k
  else if a = Reg.TIME_RAW_LO then d.timeRawRead k
  else if devSnapped a then (d, d.snapRd k a)
  else if 0x48000 ≤ a ∧ a < 0x4B000 then
    (d, if wbit (d.snapRd k Reg.HARM_STAT) 31 then 0 else d.snapRd k a)
  else
    let v := d.devView nv a
    let d1 :=
      if 0x40100 ≤ a ∧ a < 0x40900 ∧ a % 0x100 = 0x24 then d.wseqRead k (a / 0x100 % 0x100 - 1)
      else if Reg.AUX_PK0 ≤ a ∧ a ≤ Reg.AUX_PK2 then d.auxPkRead ((a - Reg.AUX_PK0) / 4)
      else d
    (if r.rc = 0 then d1 else d1.wr a (d1.rd a &&& ~~~(BitVec.ofNat 32 r.rc)), v)

/-! ### One read -/

/-- A read of the word at a byte address through port k: the value, and whether it hit a bus error (R22). -/
def Dev.busRead (d : Dev) (nv0 : NonVol) (k : Port) (a : Nat) : Dev × W × Bool :=
  let nv := d.nvNow nv0
  let err (cause : Nat) : Dev × W × Bool := (d.busErr cause false a, 0, true)
  let ok (p : Dev × W) : Dev × W × Bool := (p.1, p.2, false)
  match placeOf a with
  | .nowhere => err 0
  | .mram o => if a % 4 ≠ 0 then err 0 else ok (d, if 0x710000 ≤ o then 0 else Memory.readWord nv.mram o)
  | .sec s o =>
    if d.secDead s && !statusFile o then err 1
    else
      match secRow o with
      | some r => ok (d.secRead k s o r)
      | none => err 0
  | .dev =>
    if 0x68000 ≤ a ∧ a < 0x70000 ∧ a % 4 = 0 then ok (d, Memory.readWord d.pool (d.poolOff (a - 0x68000)))
    else if 0xA8000 ≤ a ∧ a < 0xAC000 ∧ a % 4 = 0 then ok (d, d.reportWord (a - 0xA8000))
    else
      match devRow a with
      | some r => ok (d.devRead nv k a r)
      | none => err 0

/-! ### Commands to sections (R23) -/

/-- A START that the section accepts: it waits for the crypto engine in BOOT (R26, R57). -/
def Dev.secStart (d : Dev) (s : Sec) : Dev :=
  { (d.setSec s 1).onSec s (fun x => { x with bootStop := false }) with crypto := d.crypto ++ [s.val] }

/-- An ENABLE that the section accepts: its bridges may drive their gates (R26, R27). -/
def Dev.secEnable (d : Dev) (s : Sec) : Dev :=
  ((d.setSec s 4).secDo s (fun x =>
    ([0, 1, 2, 3] : List (Fin 4)).foldl (fun x l => (x.startsDriving l).evalLeg l x.now) x)).operate

/-- CMD_STAT.CMD_IGN. -/
def Dev.cmdIgn (d : Dev) : Dev := d.put Reg.CMD_STAT Fld.CMD_STAT_CMD_IGN 1

/-- The command bits of one write for section s: STOP alone where it is set, otherwise START and ENABLE. Each acts in
the states that accept it; a claimed section obeys only its port. -/
def Dev.secCommand (d : Dev) (s : Sec) (stop enable start : Bool) : Dev :=
  if !stop && !enable && !start then d
  else if d.claimed s then d.put Reg.CMD_STAT Fld.CMD_STAT_CMD_REJ 1
  else
    let st := d.secSt s
    if stop then
      if st = 1 ∨ st = 3 ∨ st = 4 ∨ st = 7 then d.stopSec s else d.cmdIgn
    else
      let d1 := if !start then d else if st = 0 ∨ st = 2 ∨ st = 6 then d.secStart s else d.cmdIgn
      if !enable then d1 else if st = 3 then d1.secEnable s else d1.cmdIgn

/-- A write of SEC_CMD (R23). -/
def Dev.secCmd (d : Dev) (v : W) : Dev :=
  if !keyIs v 0xA5C3 then d.badKey
  else ([0, 1, 2, 3] : List Sec).foldl (fun d s =>
    d.secCommand s (wbit v (8 + s.val)) (wbit v (4 + s.val)) (wbit v s.val)) d

/-- A write of RWP_CLOSE (R53). -/
def Dev.rwpClose (d : Dev) (v : W) : Dev :=
  if !keyIs v 0x3C5A then d.badKey
  else
    let d1 := if wbit v 4 then { d with rwpBase := [] } else d
    { d1 with rwpSheet := d1.rwpSheet.mapIdx (fun s rs => if wbit v s.val then [] else rs) }

/-! ### Writing a section -/

/-- TICK_CFG: a COT or COFF leg cannot become the master of a carrier-triggered tick (R104). -/
def SecState.tickCfgWrite (x : SecState) (m : W) : SecState :=
  let y := x.wr Reg.TICK_CFG m
  if m ≠ x.rd Reg.TICK_CFG ∧ y.vpOk y.master = false then x.legRef y.master else y

/-- A write to the engine block (R163, R155): only ENG_CFG, HOST_PARAM, PARAM_COMMIT and the W1C bits act. -/
def SecState.engWrite (x : SecState) (o : Nat) (r : RegRow) (v : W) : SecState :=
  if o = Reg.ENG_CFG then
    if v.toNat % 16 = 0 ∨ x.state = 4 then x.put Reg.ENG_STAT Fld.ENG_STAT_CFG_REF 1 else x.wr o (r.merge false (x.rd o) v)
  else if o = Reg.PARAM_COMMIT then (if wbit v 0 then x.paramCommit else x)
  else if o = Reg.PROG_FAULT then (if wbit v 31 then x.wr o 0 else x)
  else x.wr o (r.merge false (x.rd o) v)

/-- A write to the collector of a section (R265, R271, R272). -/
def FcIO.write (io : FcIO) (o : Nat) (r : RegRow) (v : W) : FcIO :=
  if 0x40 ≤ o ∧ o < 0x60 then io.writePend ((o - 0x40) / 4) v
  else if o = 8 then io.writeFirst v
  else if o = 0x20 then io.writeRail v
  else if o = 0x1c then (if wbit v 0 then io.pop else io)
  else io.wr o (r.merge false (io.rd o) v)

/-- BR_CMD (R206): a command to a claimed section sets CMD_REJ. -/
def Dev.brCmd (d : Dev) (s : Sec) (b : Bridge) (v : W) : Dev :=
  if !keyIs v 0x9C3A then d.badKey
  else if d.claimed s then d.secPut s (Reg.BR_STAT b.val) Fld.BR_STAT_CMD_REJ 1
  else d.secDo s (fun x => x.brQueue b (v.toNat % 16))

/-- The bridge whose BR_CMD lies at a window offset. -/
def brCmdAt (o : Nat) : Option Bridge :=
  if 0x70100 ≤ o ∧ o < 0x70500 ∧ o % 0x100 = 0x60 then some ⟨(o - 0x70100) / 0x100 % 4, by omega⟩ else none

/-- A write to a mapped register of a section. -/
def Dev.secWrite (d : Dev) (s : Sec) (o : Nat) (r : RegRow) (isOpen : Bool) (v : W) : Dev :=
  match o / 0x10000 with
  | 0 =>
    if o = Reg.TICK_CFG then d.onSec s (fun x => x.tickCfgWrite (r.merge isOpen (x.rd o) v))
    else d.onSec s (fun x => x.wr o (r.merge isOpen (x.rd o) v))
  | 1 => d.secDo s (fun x => x.legWrite o r v)
  | 2 =>
    let metered := match chanOfOff s o with | some c => d.metered c | none => false
    d.secDo s (fun x => x.adcWrite o r isOpen metered v d.instant)
  | 3 =>
    if o = Reg.ALIGN_CFG then d.alignWrite s v
    else if o = Reg.ALIGN_T0 then d.onSec s (·.alignT0Write v)
    else d.secDo s (fun x => x.pwmWrite o r isOpen v)
  | 4 => d.secDo s (fun x => x.cmpWrite o r isOpen v)
  | 5 => (d.onSec s (fun x => x.setFcIO ((x.fcIO s).write (o - 0x50000) r v))).syncDerate
  | 6 => d.onSec s (fun x => x.engWrite o r v)
  | 7 =>
    if isCorrelator o then d.islWrite o r v
    else
      match brCmdAt o with
      | some b => d.brCmd s b v
      | none =>
        if 0x70900 ≤ o then d.secDo s (fun x => x.passiveWrite o r isOpen v)
        else d.secDo s (fun x => x.asstWrite o r isOpen v)
  | _ => d.onSec s (fun x => x.wr o (r.merge isOpen (x.rd o) v))

/-! ### Writing the device blocks -/

/-- A write to the metering block (R242, R246, R252, R253). -/
def Dev.metWrite (d : Dev) (nv : NonVol) (k : Port) (a : Nat) (r : RegRow) (isOpen : Bool) (v : W) : Dev :=
  if a = Reg.MET_CMD then d.metCmd nv.fuses.lcs v
  else if a = Reg.HARM_SEL then d.harmSelWrite k v
  else if 0x40020 ≤ a ∧ a < 0x40080 then d.plsWrite a r isOpen v
  else if 0x40100 ≤ a ∧ a < 0x40900 ∧ a % 0x100 = 0x70 then d.tselWrite k (a / 0x100 % 0x100 - 1) v
  else d.wr a (r.merge isOpen (d.rd a) v)

/-- A write to the network and time block (R294, R298, R303). -/
def Dev.netWrite (d : Dev) (a : Nat) (r : RegRow) (isOpen : Bool) (v : W) : Dev :=
  let m := r.merge isOpen (d.rd a) v
  let ptp := decide (0x50100 ≤ a) && decide (a < 0x50500) && decide (a % 0x100 = 0x14)
  if a = Reg.TIME_INCR then d.incrWrite v
  else if a = Reg.TIME_CMD then d.timeCmd v
  else if ptp && decide (fget Fld.PTP_CFG_FM_TIMEOUT m < 2) then d
  else d.wr a m

/-- A write to the host, CAN, UART, Dorlin and I2C ports. -/
def Dev.linkWrite (d : Dev) (a : Nat) (r : RegRow) (isOpen : Bool) (v : W) : Dev :=
  let o := a % 0x10000
  if 0x400 ≤ o ∧ o < 0x600 ∧ o % 0x100 = 0x0C then d.canCmd ((o - 0x400) / 0x100) v
  else if 0x800 ≤ o ∧ o < 0xA00 ∧ o % 0x100 = 0x04 then d.i2cGo ((o - 0x800) / 0x100) v
  else if 0x1000 ≤ o ∧ o < 0x1800 ∧ o % 0x100 = 0x08 then d.dlCmd ((o - 0x1000) / 0x100) v
  else if 0x1000 ≤ o ∧ o < 0x1800 ∧ o % 0x100 = 0x00 then d.dlCfg ((o - 0x1000) / 0x100) (r.merge isOpen (d.rd a) v)
  else d.wr a (r.merge isOpen (d.rd a) v)

/-- A write to the boot, security and update block (R340 to R346). -/
def Dev.bootWrite (d : Dev) (nv : NonVol) (a : Nat) (r : RegRow) (v : W) : Dev :=
  if a = Reg.BOOT_CMD then d.bootCmd nv v
  else if 0xA0100 ≤ a ∧ a < 0xA0180 ∧ a % 0x20 = 0 then d.couchCmd nv ⟨(a - 0xA0100) / 0x20 % 4, by omega⟩ v
  else d.wr a (r.merge false (d.rd a) v)

/-- A write to a mapped register of the device. Writing 1 to BUS_ERR_STAT.VALID also clears COUNT. -/
def Dev.devWrite (d : Dev) (nv : NonVol) (k : Port) (a : Nat) (r : RegRow) (isOpen : Bool) (v : W) : Dev :=
  let plain := d.wr a (r.merge isOpen (d.rd a) v)
  match a / 0x10000 with
  | 0 =>
    if a = Reg.SEC_CMD then d.secCmd v
    else if a = Reg.RWP_CLOSE then d.rwpClose v
    else if a = Reg.BUS_ERR_STAT ∧ wbit v 31 = true then plain.put a Fld.BUS_ERR_STAT_COUNT 0
    else plain
  | 1 => d.clkWrite a r isOpen v
  | 2 => (d.setFcIO (d.fcIO.write (a - 0x20000) r v)).syncDerate
  | 4 => d.metWrite nv k a r isOpen v
  | 5 => d.netWrite a r isOpen v
  | 6 => if a < 0x60400 ∧ a % 16 = 8 then d.qPtrWrite ((a - 0x60000) / 16) v else plain
  | 7 => d.linkWrite a r isOpen v
  | 8 => d.auxWrite a r isOpen v
  | 9 => d.keepWrite a r isOpen v
  | 10 => d.bootWrite nv a r v
  | 11 =>
    if 0xB0020 ≤ a ∧ a < 0xB0060 then d.selWrite nv.fuses.lcs a v
    else if a = Reg.INJ_CMD then d.injCmd nv.fuses.lcs v
    else plain
  | _ => plain

/-! ### One write -/

/-- The entries of the proof directory that R331 protects now: the device verifies or copies the image, or a couching of
the section runs from activation to takeover or abandonment. -/
def Dev.proofHeld (d : Dev) (nv : NonVol) (e : Nat) : Bool :=
  if e = 0 then false
  else
    let s : Sec := ⟨(e - 1) % 4, by omega⟩
    (d.cryptoOn && d.crypto.head? == some s.val && !d.claimed s && nv.proofNew e) || d.couchEarly s

/-- A word of the proof bank is protected (R331). -/
def Dev.proofRefused (d : Dev) (nv : NonVol) (o : Nat) : Bool :=
  (upTo 5).any (fun e =>
    let (off, size, _) := nv.proof e
    let dir := 0x04 + 12 * e
    d.proofHeld nv e && ((decide (dir ≤ o) && decide (o < dir + 12)) || (decide (off < o + 4) && decide (o < off + size))))

/-- A write into the MRAM windows (R327, R331). -/
def Dev.mramWrite (d : Dev) (nv : NonVol) (a o : Nat) (v : W) : Dev × Bool :=
  if o < proofBank ∨ 0x700000 ≤ o then (d.busErr 3 true a, true)
  else if d.proofRefused nv (o - proofBank) then
    let d1 := if d.flag Reg.BOOT_STAT Fld.BOOT_STAT_PB_REF then d
      else (d.put Reg.BOOT_STAT Fld.BOOT_STAT_PB_REF 1).wr Reg.PB_REF_ADDR (natW a)
    (d1.busErr 3 true a, true)
  else ({ d with nvOut := d.nvOut ++ [.mram o (wordBytes v)] }, false)

/-- A write of the word at a byte address by a native port: its effect, and whether it hit a bus error (R8, R22). A
locked RWP write is recorded, and the fields of other types still take it. -/
def Dev.busWrite (d : Dev) (nv0 : NonVol) (k : Port) (a : Nat) (v : W) : Dev × Bool :=
  let nv := d.nvNow nv0
  let err (cause : Nat) : Dev × Bool := (d.busErr cause true a, true)
  let lock (hit : Bool) (d : Dev) : Dev × Bool := if hit then (d.busErr 2 true a, true) else (d, false)
  match placeOf a with
  | .nowhere => err 0
  | .mram o => if a % 4 ≠ 0 then err 0 else d.mramWrite nv a o v
  | .sec s o =>
    if statusFile o then (d, false)
    else if d.secDead s then err 1
    else if d.claimed s && (brCmdAt o).isNone then err 3
    else
      match secRow o with
      | some r =>
        let isOpen := d.rwpOpen a
        lock (r.lockedHit isOpen ((d.sc s).rd o) v) (d.secWrite s o r isOpen v)
      | none => err 0
  | .dev =>
    if 0x68000 ≤ a ∧ a < 0x70000 ∧ a % 4 = 0 then
      ({ d with pool := Memory.writeWord d.pool (d.poolOff (a - 0x68000)) v }, false)
    else if 0xA8000 ≤ a ∧ a < 0xAC000 ∧ a % 4 = 0 then (d, false)
    else
      match devRow a with
      | some r =>
        let isOpen := d.rwpOpen a
        lock (r.lockedHit isOpen (d.rd a) v) (d.devWrite nv k a r isOpen v)
      | none => err 0

/-- The driver returns of a leg as its section samples them at a write of PROT_CMD.CLR (R139): a section that does not
answer, or whose registers its port owns, samples nothing here. -/
def Dev.seeFlt (d : Dev) (l : Leg) (flt : BitVec 6) : Dev :=
  if d.devState = 1 ∨ d.secDead l.sec = true ∨ d.claimed l.sec = true then d
  else d.onSec l.sec (fun x => x.put (Reg.OC_LIVE l.loc.val) Fld.OC_LIVE_FLT flt.toNat)

/-- A software write of one register, by port k. Nothing is done while the device is in BOOT (R22, R310). -/
def hostWriteAt (k : Port) (a : Nat) (v : W) (nv : NonVol) (d : Dev) : Dev :=
  if d.devState = 1 then d else (d.busWrite nv k a v).1

/-- A software write of one register. -/
def hostWrite (a : Nat) (v : W) (nv : NonVol) (d : Dev) : Dev := hostWriteAt 0 a v nv d

/-- A read of one register through port k. -/
def hostReadAt (k : Port) (a : Nat) (nv : NonVol) (d : Dev) : Dev :=
  if d.devState = 1 then d else (d.busRead nv k a).1

/-! ### Native frames (R309 to R311) -/

/-- HP_STAT.LAST. -/
def Dev.hpLast (d : Dev) (k : Port) (st : Nat) : Dev := d.put (Reg.HP_STAT k.val) Fld.HP_STAT_LAST st

/-- A word as it travels: most significant nibble first. -/
def wireWord (v : W) : List Byte := (wordBytes v).reverse

/-- The CRC-16 of a frame: over its command and the data words that the host sends (R309). -/
def frameCrc (cmd : BitVec 48) (words : List W) : BitVec 16 :=
  BitVec.ofNat 16 (crc16 ((natBytes 6 cmd.toNat).reverse ++ words.flatMap wireWord))

/-- What the device drives at the end of a frame (R309): data words and the CRC over them, STATUS and NOT STATUS. -/
def frameAnswer (data : Option (List W)) (st : Nat) : List Byte :=
  let bs := match data with
    | some ws => ws.flatMap wireWord ++ (natBytes 2 (crc16 (ws.flatMap wireWord))).reverse
    | none => []
  bs ++ [BitVec.ofNat 8 st, ~~~(BitVec.ofNat 8 st)]

/-- A frame ends: its STATUS in HP_STAT, and what it returned. -/
def Dev.hpEnd (d : Dev) (k : Port) (data : Option (List W)) (st : Nat) : Dev :=
  let d1 := d.hpLast k st
  { d1 with hp := d1.hp.upd k (fun p => { p with data := data.getD [], answer := frameAnswer data st }) }

/-- What every frame is checked for, in this order: its CRC, BOOT, its OP (R310). Some status ends the frame. -/
def Dev.hpCheck (d : Dev) (crcOk : Bool) (opOk : Bool) : Option Nat :=
  if !crcOk then some 1 else if d.devState = 1 then some 6 else if !opOk then some 2 else none

/-- A frame that is refused: STATUS, the CRC count, and zeros for a READ. -/
def Dev.hpRefuse (d : Dev) (k : Port) (data : Option (List W)) (st : Nat) : Dev :=
  let d1 := d.hpEnd k data st
  if st = 1 then d1.bump (Reg.HP_STAT k.val) Fld.HP_STAT_CRC_ERR else d1

/-- One access of another master between the words of a burst of port k (R311). A port in compatibility mode sends
none. -/
def Dev.between (nv : NonVol) (k : Port) (d : Dev) (x : Access) : Dev :=
  match x with
  | .write j a v => if j = k ∨ d.portCompat j.val = true then d else (d.busWrite nv j (a.toNat * 4) v).1
  | .read j a => if j = k ∨ d.portCompat j.val = true then d else (d.busRead nv j (a.toNat * 4)).1
  | .ring s r => ringDelivery s r d

/-- The accesses that the arbiter serves before word i of a burst. -/
def Dev.betweenAt (nv : NonVol) (k : Port) (xs : List (Nat × Access)) (i : Nat) (d : Dev) : Dev :=
  (xs.filter (fun e => decide (e.1 = i))).foldl (fun d e => d.between nv k e.2) d

/-- The words of a WRITE in address order, each a single access (R310, R311): whether any hit a bus error. -/
def Dev.hpWords (nv : NonVol) (k : Port) (xs : List (Nat × Access)) (a : Nat) : Nat → List W → Dev × Bool → Dev × Bool
  | _, [], r => r
  | i, w :: ws, (d, e) =>
    let (d1, e1) := (d.betweenAt nv k xs i).busWrite nv k (a + 4 * i) w
    Dev.hpWords nv k xs a (i + 1) ws (d1, e || e1)

/-- The words of a READ in address order. -/
def Dev.hpReads (nv : NonVol) (k : Port) (xs : List (Nat × Access)) (a : Nat) :
    Nat → Nat → Dev × List W × Bool → Dev × List W × Bool
  | _, 0, r => r
  | i, n + 1, (d, ws, e) =>
    let (d1, w, e1) := (d.betweenAt nv k xs i).busRead nv k (a + 4 * i)
    Dev.hpReads nv k xs a (i + 1) n (d1, ws ++ [w], e || e1)

/-- OP, ADDR and LEN of a command (R309). -/
def cmdOp (cmd : BitVec 48) : Nat := bitsN cmd.toNat 47 40

/-- The word address of a command. -/
def cmdAddr (cmd : BitVec 48) : Nat := bitsN cmd.toNat 39 16

/-- LEN of a command. -/
def cmdLen (cmd : BitVec 48) : Nat := bitsN cmd.toNat 15 0

/-- FRAME_ABORT (R310). -/
def frameAbort (k : Port) (d : Dev) : Dev :=
  if d.portCompat k.val then d else d.bump (Reg.HP_STAT k.val) Fld.HP_STAT_ABORT

/-- A WRITE (R310): it is checked whole before any word is written. One that ends before its LEN words is abandoned. -/
def frameWrite (k : Port) (cmd : BitVec 48) (words : List W) (crc : BitVec 16) (xs : List (Nat × Access)) (nv : NonVol)
    (d : Dev) : Dev :=
  let n := cmdLen cmd
  if words.length < n then frameAbort k d
  else
    match d.hpCheck (crc == frameCrc cmd (words.take n)) true with
    | some st => d.hpRefuse k none st
    | none =>
      if n = 0 ∨ 256 < n ∨ 2 ^ 24 < cmdAddr cmd + n then d.hpRefuse k none 3
      else
        let (d1, e) := Dev.hpWords nv k xs (cmdAddr cmd * 4) 0 (words.take n) (d, false)
        d1.hpEnd k none (if e then 4 else 0)

/-- A READ (R310). -/
def frameRead (k : Port) (cmd : BitVec 48) (crc : BitVec 16) (xs : List (Nat × Access)) (nv : NonVol) (d : Dev) : Dev :=
  let n := cmdLen cmd
  match d.hpCheck (crc == frameCrc cmd []) true with
  | some st => d.hpRefuse k (some (List.replicate n 0)) st
  | none =>
    if n = 0 ∨ 2 ^ 24 < cmdAddr cmd + n then d.hpRefuse k (some (List.replicate n 0)) 3
    else
      let (d1, ws, e) := Dev.hpReads nv k xs (cmdAddr cmd * 4) 0 n (d, [], false)
      d1.hpEnd k (some ws) (if e then 4 else 0)

/-- A STAT (R309): the frame returns HP_STAT as a read of the register does. -/
def frameStat (k : Port) (cmd : BitVec 48) (crc : BitVec 16) (d : Dev) : Dev :=
  match d.hpCheck (crc == frameCrc cmd []) true with
  | some st => d.hpRefuse k (some [0]) st
  | none =>
    if cmdAddr cmd ≠ 0 ∨ cmdLen cmd ≠ 0 then d.hpRefuse k (some [0]) 3
    else
      let v := d.rd (Reg.HP_STAT k.val)
      (d.wr (Reg.HP_STAT k.val) (v &&& 0xFFFF0000)).hpEnd k (some [v]) 0

/-- A native frame (R309): its command word decides what it is. A port strapped for compatibility speaks none (R308). -/
def nativeFrame (k : Port) (cmd : BitVec 48) (words : List W) (crc : BitVec 16) (xs : List (Nat × Access)) (nv : NonVol)
    (d : Dev) : Dev :=
  if d.portCompat k.val then d
  else if cmdOp cmd = 0x02 then frameWrite k cmd words crc xs nv d
  else if cmdOp cmd = 0x03 then frameRead k cmd crc xs nv d
  else if cmdOp cmd = 0x05 then frameStat k cmd crc d
  else d.hpRefuse k none ((d.hpCheck (crc == frameCrc cmd words) false).getD 2)

end Sys2Proof.Machine
end

