-- ==== Sys2Proof/Machine/Image.lean ====
section
/-! DEFINITION. Images of the plate (R32 to R41, R49, R433): the header, the signature block, the records and the checks of
their structure, and the engine program image. A check answers the reject reason of R59 with the failing record. -/

namespace Sys2Proof.Machine

/-- The answer of a check: the reason and the record index that R433 reports, or what was found. -/
abbrev Checked (α : Type) := Except (Nat × Nat) α

/-- A check passes, or ends with a reason and a record index. -/
def req (b : Bool) (reason idx : Nat) : Checked Unit := if b then .ok () else .error (reason, idx)

/-- The header of an image (R34). -/
structure Hdr where
  magic : Nat
  format : Nat
  length : Nat
  target : Nat
  arb : Nat
  kind : Nat
  flags : Nat
  compat : Nat
  build : Nat
  deriving DecidableEq, Repr

/-- The header at the start of an image. -/
def hdrOf (bs : List Byte) : Hdr :=
  ⟨imgWord bs 0x00, imgWord bs 0x04, imgWord bs 0x08, imgWord bs 0x0C, imgWord bs 0x10, imgWord bs 0x14, imgWord bs 0x18,
    imgWord bs 0x1C, imgWord bs 0x20⟩

/-- What an image is expected to be: a base image, the sheet of a section, or an engine program for a section. -/
inductive ImgKind where
  | base
  | sheet (s : Sec)
  | prog (s : Sec)
  deriving DecidableEq, Repr

/-- MAGIC of an image (R34). -/
def ImgKind.magic : ImgKind → Nat
  | .base => 0x4C504753 | .sheet _ => 0x48534753 | .prog _ => 0x50454753

/-- The code of an image in KIND. -/
def ImgKind.code : ImgKind → Nat
  | .base => 1 | .sheet _ => 2 | .prog _ => 3

/-- KIND names the image expected and its section (R34, R35). -/
def ImgKind.kindOk (k : ImgKind) (w : Nat) : Bool :=
  decide (bitsN w 31 24 = k.code) &&
    (match k with
     | .base => decide (bitsN w 23 16 = 0xFF)
     | .sheet s => decide (bitsN w 23 16 = s.val)
     | .prog s => decide (bitsN w 23 16 = s.val) || decide (bitsN w 23 16 = 0xFF))

/-- The size limit of an image with its signature block (R33); an engine program counts within its sheet. -/
def ImgKind.limit : ImgKind → Nat
  | .base => 524288 | _ => 1048576

/-- The anti-rollback counter of an image (R38). -/
def ImgKind.arb : ImgKind → Nat
  | .base => 0 | .sheet s => 1 + s.val | .prog s => 5 + s.val

/-! ### Records (R40, R41) -/

/-- A record: its index counted from 1, its type and its payload. -/
structure Rec where
  idx : Nat
  ty : Nat
  ws : List W
  deriving DecidableEq, Repr

/-- Payload word i of a record. -/
def Rec.w (r : Rec) (i : Nat) : Nat := (r.ws.getD i 0).toNat

/-- The records of a word list in order, and the index of one without payload or that would run past the end. -/
def recsOf : Nat → Nat → List W → List Rec × Option Nat
  | 0, _, _ => ([], none)
  | _, _, [] => ([], none)
  | n + 1, i, h :: t =>
    let len := bitsN h.toNat 31 16
    if len = 0 ∨ t.length < len then ([], some i)
    else
      let (rs, bad) := recsOf n (i + 1) (t.drop len)
      (⟨i, bitsN h.toNat 15 0, t.take len⟩ :: rs, bad)

/-- The records of a type. -/
def ofType (rs : List Rec) (ty : Nat) : List Rec := rs.filter (fun r => r.ty == ty)

/-- The kinds of image in which a type may stand, by code; none for an unknown type. -/
def recKinds (ty : Nat) : Option (List Nat) :=
  if ty = 0x0001 then some [1, 2, 3]
  else if ty = 0x8002 ∨ ty = 0x8003 then some [1, 2]
  else if 0x8010 ≤ ty ∧ ty ≤ 0x8014 then some [1]
  else if 0x8100 ≤ ty ∧ ty ≤ 0x8107 then some [2]
  else if 0x8200 ≤ ty ∧ ty ≤ 0x8203 then some [3]
  else none

/-- The length of a record is one that its type defines. A COEFF record needs at least one coefficient word (DESIGN
CHOICE, notes/assumptions/17.md). -/
def Rec.lenOk (r : Rec) : Bool :=
  let n := r.ws.length
  match r.ty with
  | 0x0001 => n == 9
  | 0x8002 => decide (2 ≤ n)
  | 0x8003 => decide (2 ≤ n) && n % 2 == 0
  | 0x8010 => n == 64
  | 0x8011 => n == 1 + bitsN (r.w 0) 15 8
  | 0x8102 => n == 1 + bitsN (r.w 0) 15 8
  | 0x8012 => n == 7
  | 0x8013 => n == 3
  | 0x8014 => n == 4
  | 0x8100 => n == 10
  | 0x8101 => n == 6
  | 0x8106 => decide (n ≤ 65)
  | 0x8107 => decide (2 ≤ n)
  | 0x8200 => n == 5
  | 0x8202 => decide (2 ≤ n)
  | 0x8203 => n == 258
  | _ => true

/-- No two members of a list are equal. -/
def distinct (l : List Nat) : Bool := decide l.Nodup

/-- Two half-open ranges share a member. -/
def meets (a b : Nat × Nat) : Bool := decide (a.1 < b.2) && decide (b.1 < a.2)

/-- The sources that a fault map covers (R44). -/
def mapRange (r : Rec) : Nat × Nat := (bitsN (r.w 0) 7 0, bitsN (r.w 0) 7 0 + bitsN (r.w 0) 15 8)

/-- The coefficient words that a COEFF record covers (R49). -/
def coefRange (r : Rec) : Nat × Nat := (bitsN (r.w 0) 11 0, bitsN (r.w 0) 11 0 + (r.ws.length - 1))

/-- Whether a record describes an object of which an earlier one of its type has the number, in a field of word 0. -/
def sameObj (seen : List Rec) (r : Rec) (hi lo : Nat) : Bool :=
  (ofType seen r.ty).any (fun q => bitsN (q.w 0) hi lo == bitsN (r.w 0) hi lo)

/-- Occurrence (R41): the record is not one too many, describes no object again, overlaps no earlier range, and names no
slot, register or source twice. -/
def Rec.occursOk (seen : List Rec) (r : Rec) : Bool :=
  let earlier := ofType seen r.ty
  match r.ty with
  | 0x8002 => true
  | 0x8011 => !earlier.any (fun q => meets (mapRange q) (mapRange r))
  | 0x8102 => !earlier.any (fun q => meets (mapRange q) (mapRange r))
  | 0x8202 => !earlier.any (fun q => meets (coefRange q) (coefRange r))
  | 0x8012 => !sameObj seen r 23 16
  | 0x8100 => !sameObj seen r 23 16
  | 0x8101 => !sameObj seen r 23 16
  | 0x8106 => !sameObj seen r 1 0
  | 0x8203 => !sameObj seen r 2 0
  | 0x8103 => earlier.isEmpty && distinct (r.ws.map (fun w => bitsN w.toNat 6 0))
  | 0x8104 => earlier.isEmpty && distinct (r.ws.map (fun w => bitsN w.toNat 28 24))
  | 0x8107 => earlier.isEmpty && distinct ((r.ws.drop 2).map (fun w => bitsN w.toNat 29 22))
  | 0x8200 => r.idx == 1
  | 0x8201 => earlier.isEmpty && decide (r.ws.length = bitsN (((ofType seen 0x8200).head?.map (fun q => q.w 1)).getD 0) 11 0)
  | _ => earlier.isEmpty

/-! ### Windows (R51 to R53) -/

/-- The channels that a METER_POINT record names (R50). -/
def meterChans (r : Rec) : List Nat :=
  let ph := [bitsN (r.w 1) 7 0, bitsN (r.w 1) 15 8, bitsN (r.w 1) 23 16, bitsN (r.w 2) 7 0, bitsN (r.w 2) 15 8,
    bitsN (r.w 2) 23 16]
  if Nat.testBit (r.w 0) 0 then ph ++ [bitsN (r.w 2) 31 24] else ph

/-- The address of ADC_CFG of a converter channel. -/
def adcCfgAddr (ch : Nat) : Nat := 0x100000 * (ch / 12 + 1) + 0x20100 + 0x10 * (ch % 12)

/-- The converter channels of the metering points of an image. -/
def imgChans (rs : List Rec) : List Nat := ((ofType rs 0x8012).flatMap meterChans).filter (fun c => decide (c < 48))

/-- The windows that REG_WRITE may write (R51), as half-open byte ranges. -/
def regWindows (k : ImgKind) (rs : List Rec) : List (Nat × Nat) :=
  match k with
  | .base =>
    ([1, 4, 5, 7, 8, 9].map (fun b => (0x10000 * b, 0x10000 * (b + 1)))) ++
      (imgChans rs).map (fun c => (adcCfgAddr c, adcCfgAddr c + 8))
  | .sheet s =>
    let b := secBase s
    [(b, b + 0x10000), (b + 0x20000, b + 0x30000), (b + 0x30000, b + 0x40000), (b + 0x40000, b + 0x50000),
      (b + 0x70000, b + 0x70800), (b + 0x70900, b + 0x80000)]
  | .prog _ => []

/-- A REG_WRITE range is word-aligned and lies in one window. -/
def Rec.regOk (k : ImgKind) (rs : List Rec) (r : Rec) : Bool :=
  let a := r.w 0
  decide (a % 4 = 0) &&
    (regWindows k rs).any (fun w => decide (w.1 ≤ a) && decide (a + 4 * (r.ws.length - 1) ≤ w.2))

/-- The pairs of an RWP_OPEN record. -/
def pairsOf : List W → List (Nat × Nat)
  | a :: b :: t => (a.toNat, b.toNat) :: pairsOf t
  | _ => []

/-- The 64 KiB blocks that an image may write. -/
def regBlocks (k : ImgKind) (rs : List Rec) : List Nat := (regWindows k rs).map (fun w => w.1 / 0x10000)

/-- No two pairs of a list share an address. -/
def pairsApart : List (Nat × Nat) → Bool
  | [] => true
  | p :: t => t.all (fun q => !meets (p.1, p.2 + 4) (q.1, q.2 + 4)) && pairsApart t

/-- An RWP_OPEN record keeps R53. -/
def Rec.rwpOk (k : ImgKind) (rs : List Rec) (r : Rec) : Bool :=
  let ps := pairsOf r.ws
  ps.all (fun p => decide (p.1 % 4 = 0) && decide (p.2 % 4 = 0) && decide (p.1 ≤ p.2) &&
    decide (p.1 / 0x10000 = p.2 / 0x10000) && (regBlocks k rs).contains (p.1 / 0x10000)) && pairsApart ps

/-! ### Structure (R433, step 13) -/

/-- A record that breaks no rule of structure, beside the earlier records of the image. -/
def Rec.structOk (k : ImgKind) (all seen : List Rec) (r : Rec) : Bool :=
  match recKinds r.ty with
  | none => decide (r.ty < 0x8000)
  | some ks =>
    ks.contains k.code && r.lenOk && r.occursOk seen &&
      (if r.ty = 0x8002 then r.regOk k all else if r.ty = 0x8003 then r.rwpOk k all else true)

/-- The first record with a structure fault. -/
def firstFault (k : ImgKind) (all : List Rec) : List Rec → List Rec → Option Nat
  | _, [] => none
  | seen, r :: t => if r.structOk k all seen then firstFault k all (seen ++ [r]) t else some r.idx

/-- The types that an image must hold (R41). -/
def required (k : ImgKind) : List Nat :=
  match k with | .base => [0x8010, 0x8014] | .sheet _ => [0x8105] | .prog _ => [0x8200, 0x8201]

/-- Every record that R41 requires is there; a sheet has one LEG record for each of its four legs. -/
def requiredOk (k : ImgKind) (rs : List Rec) : Bool :=
  (required k).all (fun t => !(ofType rs t).isEmpty) &&
    (match k with
     | .sheet _ => (upTo 4).all (fun l => (ofType rs 0x8100).any (fun r => decide (bitsN (r.w 0) 23 16 = l)))
     | _ => true)

/-- The records of an image, if their structure is right; KIND gives their number. -/
def records (k : ImgKind) (h : Hdr) (ws : List W) : Checked (List Rec) := do
  let (rs, bad) := recsOf ws.length 1 ws
  match firstFault k rs [] rs, bad with
  | some i, _ => .error (0xC, i)
  | none, some i => .error (0xC, i)
  | none, none =>
    req (decide (rs.length = bitsN h.kind 15 0) && requiredOk k rs) 0xC 0
    .ok rs

/-- The skipped records: unknown types that are not critical (R40). -/
def skipped (rs : List Rec) : Nat := (rs.filter (fun r => (recKinds r.ty).isNone)).length

/-! ### The checks of an image up to its structure (R433, steps 2 to 13) -/

/-- The image is encrypted (R39). -/
def Hdr.enc (h : Hdr) : Bool := Nat.testBit h.flags 0

/-- The words of the records: as stored, or decrypted with the plate key, the IV and the tag, with the header as
additional data (R39); none where the tag fails or no plate key is installed. -/
def recordWords (h : Hdr) (nv : NonVol) (bs : List Byte) : Option (List W) :=
  let body (o : Nat) : List Byte := (bs.take (h.length - 4)).drop o
  if h.enc then
    match nv.plateKey with
    | some key =>
      (gcmOpen key ((bs.drop 0x24).take 12) ((bs.drop 0x30).take 16) (bs.take 0x24) (body 0x40)).map bytesWords
    | none => none
  else some (bytesWords (body 0x24))

/-- LENGTH leaves room for the header, the IV and tag of an encrypted image, and the CRC word. -/
def Hdr.lengthOk (h : Hdr) : Bool := decide (h.length % 4 = 0) && decide ((if h.enc then 0x44 else 0x28) ≤ h.length)

/-- Steps 2 to 13 of R433 on an image of the kind expected; `compat` is what a sheet must equal. -/
def checkImage (k : ImgKind) (nv : NonVol) (metal : Nat) (compat : Option Nat) (bs : List Byte) :
    Checked (Hdr × List Rec) := do
  let h := hdrOf bs
  req (decide (h.magic = k.magic) && k.kindOk h.kind) 0x2 0
  req (decide (bitsN h.format 31 16 = 1) && decide (bitsN h.format 15 0 ≤ 2)) 0x3 0
  req (decide (bitsN h.target 31 16 = 0x9624) && decide (bitsN h.target 15 8 = 2) && decide (bitsN h.target 7 0 ≤ metal)) 0x4 0
  req (h.lengthOk && (match sigEnd bs h.length bs.length with | some e => decide (e ≤ k.limit) | none => false)) 0x5 0
  req (decide (imgWord bs (h.length - 4) = crc32 (bs.take (h.length - 4)))) 0x6 0
  req (nv.vendorEcdsaOk bs h.length) 0x7 0
  req (nv.vendorHssOk bs h.length) 0x8 0
  req (nv.ownerOk bs h.length bs.length) 0x9 0
  req (decide ((nv.arbOf k.arb).toNat ≤ h.arb)) 0xA 0
  req (match compat with | some c => decide (h.compat = c) | none => true) 0xB 0
  match recordWords h nv bs with
  | none => .error (0xF, 0)
  | some ws =>
    let rs ← records k h ws
    .ok (h, rs)

/-- Step 15 of R433: the reserved bits of FLAGS, STOP_REQUIRED, and the COMPAT of an engine program. -/
def Hdr.valuesOk (h : Hdr) (k : ImgKind) : Bool :=
  decide (h.flags / 4 = 0) &&
    (match k with
     | .sheet _ => true
     | .base => !Nat.testBit h.flags 1
     | .prog _ => !Nat.testBit h.flags 1 && decide (h.compat = 0))

/-- The measurement of an image: the SHA-384 of its bytes 0 to LENGTH − 1 (R344). -/
def imgMeasure (h : Hdr) (bs : List Byte) : List Byte := sha384 (bs.take h.length)

/-- The end of an image in bytes, its signature block included. -/
def imgSize (h : Hdr) (bs : List Byte) : Nat := (sigEnd bs h.length bs.length).getD 0

/-! ### The engine program image (R49) -/

/-- What an accepted engine program image gives. -/
structure Prog where
  img : EngImg
  build : Nat
  arb : Nat
  meas : List Byte
  skipped : Nat
  deriving DecidableEq, Repr

/-- The memories of an engine as the records of its program give them. -/
def progMemories (rs : List Rec) : EngImg :=
  let p := (ofType rs 0x8200).headD ⟨0, 0, []⟩
  let code := ((ofType rs 0x8201).headD ⟨0, 0, []⟩).ws
  let z : Nat → W := fun _ => 0
  { layout := natW (p.w 0), count := bitsN (p.w 1) 11 0, worst := bitsN (p.w 2) 19 0
    entry := ⟨bitsN (p.w 3) 10 0, bitsN (p.w 3) 26 16, bitsN (p.w 4) 10 0, bitsN (p.w 4) 26 16⟩
    prog := Tbl.setList z [] 0 code
    coef := (ofType rs 0x8202).foldl (fun t r => Tbl.setList z t (bitsN (r.w 0) 11 0) r.ws.tail) []
    lut := (ofType rs 0x8203).foldl (fun t r => Tbl.setList z t (512 * bitsN (r.w 0) 2 0) r.ws.tail) [] }

/-- The value rules of an engine program: 1 to 2,048 instructions, and coefficients up to word 4,095. -/
def progValues (rs : List Rec) : Bool :=
  (ofType rs 0x8200).all (fun r => decide (1 ≤ bitsN (r.w 1) 11 0) && decide (bitsN (r.w 1) 11 0 ≤ 2048)) &&
    (ofType rs 0x8202).all (fun r => decide ((coefRange r).2 ≤ 4096))

/-- The engine program image in an ENGINE_PROGRAM record, checked in the order of R433. -/
def checkProg (s : Sec) (nv : NonVol) (metal : Nat) (bs : List Byte) : Checked Prog := do
  let (h, rs) ← checkImage (.prog s) nv metal none bs
  req (h.valuesOk (.prog s) && progValues rs) 0xD 0
  .ok ⟨progMemories rs, h.build, h.arb, imgMeasure h bs, skipped rs⟩

end Sys2Proof.Machine
end

