-- ==== Sys2Proof/Machine/PlateRules.lean ====
section
/-! DEFINITION. The value rules of plates and sheets (R433, step 16): what R42 to R50 and the chapters they lead to ask of
structure records, and what a REG_WRITE word does to its register with every lock open. -/

namespace Sys2Proof.Machine

/-! ### LEG and BRIDGE (R42, R43, R123) -/

/-- The allowed table of a LEG payload holds a vector. -/
def legAllows (r : Rec) (v : Nat) : Bool := if v < 32 then Nat.testBit (r.w 1) v else Nat.testBit (r.w 2) (v - 32)

/-- The valid pair bytes of a LEG payload. -/
def legPairs (r : Rec) : List Nat := ((upTo 4).map (fun i => bitsN (r.w 3) (8 * i + 7) (8 * i))).filter (fun b => decide (128 ≤ b))

/-- A vector turns on both switches of a valid pair. -/
def breaksPair (r : Rec) (v : Nat) : Bool :=
  (legPairs r).any (fun b => Nat.testBit v (bitsN b 5 3) && Nat.testBit v (bitsN b 2 0))

/-- The bootstrap fields of a LEG record (R42, R123): 0 without BOOTSTRAP; with it a 2L leg or a BOOST leg with
SYNC_RECT, the refresh vector allowed, and T_BS 10 to 10,000. -/
def legBootOk (r : Rec) : Bool :=
  let ty := bitsN (r.w 0) 15 8
  let rect := Nat.testBit (r.w 0) 1
  if Nat.testBit (r.w 0) 0 then
    ((decide (ty = 1) && legAllows r 2) || (decide (ty = 5) && rect && legAllows r 1)) &&
      decide (10 ≤ bitsN (r.w 7) 31 16) && decide (bitsN (r.w 7) 31 16 ≤ 10000)
  else decide (r.w 7 = 0) && decide (r.w 8 = 0)

/-- A LEG record keeps the rules of R42 and R123. -/
def legOk (r : Rec) : Bool :=
  let ty := bitsN (r.w 0) 15 8
  let rect := Nat.testBit (r.w 0) 1
  let pos := (typePos ty rect).toNat
  let safe := bitsN (r.w 6) 7 0
  decide (bitsN (r.w 0) 23 16 ≤ 3) && decide (ty ≤ 5) && decide (bitsN (r.w 0) 7 2 = 0) && (!rect || decide (ty = 5)) &&
    (if ty = 0 then decide (r.w 1 = 1) && (r.ws.drop 2).all (fun w => decide (w = 0)) && !Nat.testBit (r.w 0) 0
    else
      legAllows r 0 && (upTo 64).all (fun v => !legAllows r v || (decide (v &&& pos = v) && !breaksPair r v)) &&
        (legPairs r).all (fun b => decide (bitsN b 5 3 ≠ bitsN b 2 0) && Nat.testBit pos (bitsN b 5 3) &&
          Nat.testBit pos (bitsN b 2 0) && !Nat.testBit b 6) &&
        decide (safe &&& bitsN (r.w 6) 15 8 = safe) && decide (safe < 64) && legAllows r safe && !breaksPair r safe &&
        legBootOk r && decide (100 ≤ bitsN (r.w 9) 31 16) && decide (bitsN (r.w 9) 31 16 ≤ 1000) &&
        decide (50 ≤ bitsN (r.w 9) 15 0) && decide (bitsN (r.w 9) 15 0 ≤ 1600))

/-- The number of legs in a LEG_MASK. -/
def maskCount (m : Nat) : Nat := ((upTo 4).filter (fun l => Nat.testBit m l)).length

/-- A BRIDGE record alone keeps R43. -/
def bridgeOk (r : Rec) : Bool :=
  let kind := bitsN (r.w 0) 15 8
  decide (bitsN (r.w 0) 23 16 ≤ 3) && decide (1 ≤ kind) && decide (kind ≤ 4) &&
    decide (maskCount (bitsN (r.w 0) 3 0) = [0, 3, 4, 2, 1].getD kind 0) && decide (bitsN (r.w 5) 1 0 ≤ 2)

/-- The legs that a bridge names and that are described fit its KIND, and no leg is in two bridges. -/
def bridgesFit (rs : List Rec) : Bool :=
  let bs := ofType rs 0x8101
  bs.all (fun b =>
    let m := bitsN (b.w 0) 3 0
    let tys := ((ofType rs 0x8100).filter (fun l => Nat.testBit m (bitsN (l.w 0) 23 16))).map (fun l => bitsN (l.w 0) 15 8)
    (if bitsN (b.w 0) 15 8 = 4 then tys.all (fun t => t == 5)
    else tys.all (fun t => t != 0 && t != 5 && t == tys.headD 0)) &&
      bs.all (fun c => c.idx == b.idx || decide (m &&& bitsN (c.w 0) 3 0 = 0)))

/-- A leg that no bridge names is unused. -/
def legBridged (rs : List Rec) (l : Rec) : Bool :=
  bitsN (l.w 0) 15 8 == 0 || (ofType rs 0x8101).any (fun b => Nat.testBit (bitsN (b.w 0) 3 0) (bitsN (l.w 0) 23 16))

/-- The records among `rs` that break a rule which the records up to them complete. -/
def completing (rs : List Rec) (p : List Rec → Bool) : List Nat :=
  ((rs.map (·.idx)).filter (fun i => !p (rs.filter (fun r => decide (r.idx ≤ i))))).take 1

/-- The records of LEG and BRIDGE that break a rule. -/
def structBad (rs : List Rec) : List Nat :=
  ((ofType rs 0x8100).filter (fun r => !legOk r || !legBridged rs r)).map (·.idx) ++
    ((ofType rs 0x8101).filter (fun r => !bridgeOk r)).map (·.idx) ++
    completing (rs.filter (fun r => r.ty == 0x8100 || r.ty == 0x8101)) bridgesFit

/-! ### Fault maps and routes (R44, R45, R259, R264) -/

/-- A map entry keeps R44 and, for a source of fixed severity, R264. -/
def mapEntryOk (fixed : Option Nat) (e : W) : Bool :=
  let sev := bitsN e.toNat 2 0
  let lev := bitsN e.toNat 5 3
  let n := bitsN e.toNat 13 6
  decide (sev ≤ 6) &&
    (decide (n = 0) || (decide (sev < lev) && decide (lev ≤ 6) && decide (bitsN e.toNat 31 16 ≠ 0) &&
      decide (bitsN e.toNat 15 14 ≠ 3))) &&
    (match fixed with | some f => decide (sev = f) && decide (n = 0) | none => true)

/-- The fixed severity of a source (R264): DEV_STOP and DEV_DERATE of a section; SEC_SAFE, SEC_LOCK and RESTART_LIMIT
of the device. -/
def fixedSev (dev : Bool) (n : Nat) : Option Nat :=
  if dev then (if 48 ≤ n ∧ n ≤ 56 then some (bitsN (devReset (Reg.DFC_MAP n)).toNat 2 0) else none)
  else if n = 2 ∨ n = 3 then some (bitsN (secReset (Reg.FC_MAP n)).toNat 2 0) else none

/-- The entries of a fault map with their sources. -/
def mapEntries (r : Rec) : List (Nat × W) := (upTo r.ws.tail.length).zip r.ws.tail |>.map (fun p => ((mapRange r).1 + p.1, p.2))

/-- A fault-map record keeps its rules. -/
def faultMapOk (dev : Bool) (r : Rec) : Bool :=
  decide ((mapRange r).2 ≤ if dev then 64 else 128) && (mapEntries r).all (fun p => mapEntryOk (fixedSev dev p.1) p.2)

/-- A DETECTOR of R259. -/
def detectorOk (d : Nat) : Bool :=
  (decide (0x10 ≤ d) && decide (d ≤ 0x1F)) || (decide (0x20 ≤ d) && decide (d ≤ 0x2B)) ||
    (decide (0x100 ≤ d) && decide (d ≤ 0x11F))

/-- A FAULT_ROUTE record keeps R45 and R259. -/
def routeOk (r : Rec) : Bool :=
  r.ws.all (fun w => decide (120 ≤ bitsN w.toNat 6 0) && detectorOk (bitsN w.toNat 31 16))

/-- An ENGINE_INPUT_MAP record keeps R46. -/
def inputMapOk (r : Rec) : Bool :=
  r.ws.all (fun w => decide (bitsN w.toNat 18 16 ≤ 4) && decide (bitsN w.toNat 5 2 ≤ 11))

/-! ### Base records (R50) -/

/-- The pool bytes that a QUEUE_POOL word takes. -/
def ringBytes (w : W) : Nat :=
  let n := bitsN w.toNat 3 0
  if n = 0 then 0 else 2 ^ n * (16 + 64 * bitsN w.toNat 15 8)

/-- A QUEUE_POOL record keeps R50. -/
def poolOk (r : Rec) : Bool :=
  r.ws.all (fun w => let n := bitsN w.toNat 3 0; decide (n ≠ 1) && decide (n ≤ 12)) &&
    decide ((r.ws.map ringBytes).foldl (· + ·) 0 ≤ 1048576)

/-- A METER_POINT record keeps R50. -/
def meterPointOk (r : Rec) : Bool :=
  decide (bitsN (r.w 0) 23 16 ≤ 7) && decide (bitsN (r.w 0) 15 8 ≤ 3) && (meterChans r).all (fun c => decide (c < 48)) &&
    (Nat.testBit (r.w 0) 0 || decide (bitsN (r.w 2) 31 24 = 0xFF)) && decide (1 ≤ r.w 3) && decide (r.w 3 ≤ 10000000) &&
    decide (1 ≤ bitsN (r.w 4) 15 0)

/-- An ISLAND record keeps R50. -/
def islandOk (r : Rec) : Bool :=
  decide (bitsN (r.w 0) 23 16 ≤ 3) && decide (bitsN (r.w 0) 7 0 ≤ 64) && decide (50 ≤ bitsN (r.w 1) 15 0) &&
    decide (bitsN (r.w 1) 15 0 ≤ 200)

/-- The structure records of a base image that break a rule. -/
def baseBad (rs : List Rec) : List Nat :=
  ([(0x8010, poolOk), (0x8011, faultMapOk true), (0x8012, meterPointOk), (0x8013, islandOk)] :
    List (Nat × (Rec → Bool))).flatMap (fun t => ((ofType rs t.1).filter (fun r => !t.2 r)).map (·.idx))

/-! ### REG_WRITE words of a section (R51, R52) -/

/-- A register that a plate reaches: it has a field that software writes or clears and that is no command. -/
def RegRow.plateable (r : RegRow) : Bool := decide (r.rw ≠ 0) || decide (r.rwp ≠ 0) || decide (r.w1c ≠ 0)

/-- The rules that one section register keeps by itself. -/
def secWordOk (o : Nat) (m : W) : Bool :=
  if 0x20100 ≤ o ∧ o < 0x201C0 then
    if o % 0x10 = 0 then decide (fget Fld.ADC_CFG_CALV m ≠ 3)
    else if o % 0x10 = 4 then
      !wbit m 31 || (decide (0x7000 ≤ fget Fld.ADC_CAL_GAIN m) && decide (fget Fld.ADC_CAL_GAIN m ≤ 0x8FFF))
    else true
  else if 0x30100 ≤ o ∧ o < 0x30500 ∧ o % 0x100 = 0 then decide (fget Fld.CAR_CFG_RELOAD m ≠ 3)
  else if 0x40100 ≤ o ∧ o < 0x40200 ∧ o % 0x20 = 0 then ocThOk m
  else if 0x40200 ≤ o ∧ o < 0x40300 ∧ o % 0x20 = 4 then wmCfgOk m
  else if o = Reg.GRID_BW then gridBwOk m
  else if Reg.ISL_UV0 ≤ o ∧ o < Reg.ISL_ROCOF then
    let th := m.toNat % 65536
    if stageCheck ((o - Reg.ISL_UV0) / 4) % 2 = 0 then decide (th < 0x8000) else decide (0x8000 < th)
  else true

/-- One REG_WRITE word at a section register, with every lock open, and whether it keeps the register's own rule. A
word on a register that is read-only, a command or reserved is ignored. EN of ALIGN_CFG is applied as 0 and sets
T0_REF (R113). -/
def SecState.plateWord (x : SecState) (o : Nat) (v : W) : SecState × Bool :=
  match secRow o with
  | none => (x, true)
  | some r =>
    if !r.plateable then (x, true)
    else
      let m := r.merge true (x.rd o) v
      if o = Reg.ALIGN_CFG then
        let y := x.wr o (m &&& 0x7FFFFFFF)
        (if wbit m 31 then y.put Reg.ALIGN_STAT Fld.ALIGN_STAT_T0_REF 1 else y, true)
      else (x.wr o m, secWordOk o m)

/-- An accumulator armed by the plate keeps R77, R83, R84 and R86. -/
def SecState.armedOk (x : SecState) (k : Nat) : Bool :=
  !x.armed k || (x.armOk k (x.rd (Reg.ACC_CFG k)) && (decide (x.accMode k ≠ 2) || decide (1000 ≤ (x.rd (Reg.ACC_PARAM k)).toNat)))

/-- The rules that tie several registers of a section together and that its registers break: followers and variable
periods (R99, R104), armed accumulators (R77, R83, R84, R86), the assist (R198, R213). -/
def SecState.conflicts (x : SecState) : List Nat :=
  (([0, 1, 2, 3] : List (Fin 4)).filter (fun l => !x.syncOk l)).map (fun l => l.val) ++
    (([0, 1, 2, 3] : List (Fin 4)).filter (fun l => !x.vpOk l)).map (fun l => 4 + l.val) ++
    ((upTo 48).filter (fun k => !x.armedOk k)).map (fun k => 8 + k) ++
    (if x.gridCfgOk then [] else [56]) ++ ((upTo 4).filter (fun b => !x.isrcOk b)).map (fun b => 57 + b) ++
    ((upTo 4).filter (fun b => !x.rideOk b)).map (fun b => 61 + b)

/-- A section during the REG_WRITE records of its sheet: the registers, the records whose application broke a rule,
and the words withheld from metered channels (R52). -/
structure SheetRegs where
  x : SecState
  bad : List Nat := []
  ignored : Nat := 0

/-- The words of one record from an offset on. -/
def SheetRegs.words (metered : Nat → Bool) (i : Nat) : Nat → List W → SheetRegs → SheetRegs
  | _, [], p => p
  | o, v :: vs, p =>
    let own := decide (0x20100 ≤ o) && decide (o < 0x201C0) && decide (o % 0x10 < 8) && metered ((o - 0x20100) / 0x10)
    let q :=
      if own then { p with ignored := p.ignored + 1 }
      else
        let (x, ok) := p.x.plateWord o v
        { p with x := x, bad := if ok then p.bad else p.bad ++ [i] }
    SheetRegs.words metered i (o + 4) vs q

/-- The REG_WRITE records of a sheet in file order: a record breaks a rule alone, or by completing a conflict with a
value applied before it or with a reset value (R433). -/
def sheetRegs (s : Sec) (metered : Nat → Bool) (rs : List Rec) (x : SecState) : SheetRegs :=
  (ofType rs 0x8002).foldl (fun p r =>
    let q := p.words metered r.idx (r.w 0 - secBase s) r.ws.tail
    if q.x.conflicts.isEmpty then q else { q with bad := q.bad ++ [r.idx] }) { x := x }

/-- The first of several records; none of an empty list. -/
def firstIdx (l : List Nat) : Option Nat := l.foldl (fun m i => match m with | none => some i | some j => some (min i j)) none

/-- A stage of R56 keeps its value rules, or the first record that breaks one is reported. DESIGN CHOICE: inside one
stage that lists several record types (LEG and BRIDGE; QUEUE_POOL to SECTION_POLICY) the lowest record index is the
first (notes/assumptions/17.md). -/
def stageOk (bad : List Nat) : Checked Unit := match firstIdx bad with | some i => .error (0xD, i) | none => .ok ()

/-! ### REG_WRITE words of the device (R51, R63 to R72) -/

/-- The rules that one register of the blocks of a base image keeps by itself. -/
def devWordOk (a : Nat) (m : W) : Bool :=
  let o := a % 0x10000
  match a / 0x10000 with
  | 1 =>
    let p := (a - 0x10100) / 0x100
    let e := a % 0x100
    if a < 0x10100 then true
    else if e = 0x04 then freqValid m
    else if e = 0x08 then (decide (p = 0) || decide (p = 6) || decide (bitsN m.toNat 15 8 = 0))
    else if e = 0x0C then ssAllowed p m
    else true
  | 4 => if 0x20 ≤ o ∧ o < 0x40 then plsCfgOk m else if 0x40 ≤ o ∧ o < 0x60 then decide (m ≠ 0) else true
  | 5 =>
    if a = Reg.TIME_INCR then decide (0x3FEF9DB3 ≤ m.toNat) && decide (m.toNat ≤ 0x4010624D)
    else if 0x100 ≤ o ∧ o < 0x500 ∧ o % 0x100 = 0x14 then decide (2 ≤ fget Fld.PTP_CFG_FM_TIMEOUT m)
    else true
  | 7 =>
    if 0x400 ≤ o ∧ o < 0x600 ∧ o % 0x100 = 4 then
      decide (1 ≤ fget Fld.CAN_NBT_BRP m) && decide (2 ≤ fget Fld.CAN_NBT_TSEG1 m) && decide (1 ≤ fget Fld.CAN_NBT_TSEG2 m) &&
        decide (1 ≤ fget Fld.CAN_NBT_SJW m)
    else if 0x400 ≤ o ∧ o < 0x600 ∧ o % 0x100 = 8 then
      decide (1 ≤ fget Fld.CAN_DBT_BRP m) && decide (1 ≤ fget Fld.CAN_DBT_TSEG1 m) && decide (1 ≤ fget Fld.CAN_DBT_TSEG2 m) &&
        decide (1 ≤ fget Fld.CAN_DBT_SJW m)
    else if 0x600 ≤ o ∧ o < 0x800 ∧ o % 0x100 = 0 then
      decide (2 ≤ fget Fld.UART_CFG_GAP m) && decide (fget Fld.UART_CFG_PARITY m ≠ 3)
    else if 0x600 ≤ o ∧ o < 0x800 ∧ o % 0x100 = 4 then decide (160 ≤ fget Fld.UART_BAUD_DIVF m)
    else if 0x800 ≤ o ∧ o < 0xA00 ∧ o % 0x100 = 0 then decide (fget Fld.I2C_CFG_SPEED m ≠ 3)
    else true
  | 8 => auxValueOk a m
  | 9 =>
    if a = Reg.KEEP_CFG then decide (16 ≤ fget Fld.KEEP_CFG_MARGIN m)
    else if a = Reg.LG_CFG then
      decide (fget Fld.LG_CFG_LEN m ≤ 32) && decide (16 ≤ fget Fld.LG_CFG_LG_DIV m) && decide (fget Fld.LG_CFG_LG_DIV m ≤ 1667)
    else true
  | _ => true

/-- A clock output as a write leaves it: with DIV 0 its EN is forced to 0 (R72, CLKO_CFGn). -/
def clkoStore (a : Nat) (m : W) : W :=
  if Reg.CLKO_CFG 0 ≤ a ∧ a ≤ Reg.CLKO_CFG 3 ∧ fget Fld.CLKO_CFG_DIV m = 0 then m &&& 0x7FFFFFFF else m

/-- One REG_WRITE word of a base image, with every lock open, and whether it keeps the register's own rule. -/
def Dev.plateWord (d : Dev) (a : Nat) (v : W) : Dev × Bool :=
  match placeOf a with
  | .sec s o =>
    let (x, ok) := (d.sc s).plateWord o v
    ({ d with sec := d.sec.set s x }, ok)
  | .dev =>
    match devRow a with
    | none => (d, true)
    | some r =>
      if !r.plateable then (d, true)
      else
        let m := r.merge true (d.rd a) v
        let ok := devWordOk a m
        if !ok then (d, false)
        else if a = Reg.TIME_INCR then (d.incrWrite m, true)
        else if a = Reg.AUX_CTRL then (d.auxCtrl m, true)
        else if a / 0x10000 = 9 then (d.keepWrite a r true v, true)
        else (d.wr a (clkoStore a m), true)
  | _ => (d, true)

/-- The words of one record from an address on: the device and whether every word keeps its rule. -/
def Dev.plateWords : Nat → List W → Dev × Bool → Dev × Bool
  | _, [], p => p
  | a, v :: vs, (d, ok) =>
    let (d1, ok1) := d.plateWord a v
    Dev.plateWords (a + 4) vs (d1, ok && ok1)

/-- The nominal frequency of an output in MHz, none where the output serves no domain (R64). -/
def nominal (p out : Nat) : Option Nat :=
  if p = 0 then some (if out = 0 then 250 else 100)
  else if p ≤ 4 then (if out = 0 then some 400 else none)
  else if p = 5 then (if out = 0 then some 40 else none)
  else some (if out = 0 then 125 else 250)

/-- The unspread frequency of an enabled domain lies within 1,000 ppm of its nominal value (R64). -/
def Dev.domainOk (d : Dev) (p out : Nat) : Bool :=
  let dv := if out = 0 then d.fld (Reg.PLL_DIV p) Fld.PLL_DIV_OUT0 else d.fld (Reg.PLL_DIV p) Fld.PLL_DIV_OUT1
  let f := (d.rd (Reg.PLL_FREQ p)).toNat
  let on := d.pllOn p && freqValid (d.rd (Reg.PLL_FREQ p)) && decide (dv ≠ 0) &&
    (!(decide (p = 0) && decide (out = 1)) || wbit (d.rd Reg.DOM_EN) 0)
  match nominal p out with
  | some mhz =>
    let a := f * 25
    let b := mhz * dv * 2 ^ 24
    !on || decide ((max a b - min a b) * 1000 ≤ b)
  | none => true

/-- The rules that tie several clock registers together and that they break: the domains' frequencies (R64), the clock
outputs (R72). -/
def Dev.clkConflicts (d : Dev) : List Nat :=
  ((upTo 14).filter (fun i => !d.domainOk (i / 2) (i % 2))) ++
    ((upTo 4).filter (fun n =>
      let v := d.rd (Reg.CLKO_CFG n)
      wbit v 31 && !d.clkoOk v)).map (fun n => 14 + n)

/-- The rule that ties two registers of metering together (R253): an output that is on has a CONST. -/
def Dev.plsConflicts (d : Dev) : List Nat :=
  (upTo 8).filter (fun n => d.flag (Reg.PLS_CFG n) Fld.PLS_CFG_EN && decide (d.rd (Reg.PLS_CONST n) = 0))

/-- A REG_WRITE record of the clocks block. -/
def Rec.isClock (r : Rec) : Bool := decide (r.w 0 / 0x10000 = 1)

/-- The device during the REG_WRITE records of a base image, and the records whose application broke a rule. -/
structure BaseRegs where
  d : Dev
  bad : List Nat := []

/-- Some REG_WRITE records of a base image in file order (R56, R433). -/
def baseRegs (rs : List Rec) (clock : Bool) (d : Dev) : BaseRegs :=
  ((ofType rs 0x8002).filter (fun r => r.isClock == clock)).foldl (fun p r =>
    let (d1, ok) := Dev.plateWords (r.w 0) r.ws.tail (p.d, true)
    let clear := if clock then d1.clkConflicts.isEmpty else d1.plsConflicts.isEmpty
    { d := d1, bad := if ok && clear then p.bad else p.bad ++ [r.idx] }) { d := d }

end Sys2Proof.Machine
end

