-- ==== Sys2Proof/Machine/Plates.lean ====
section
/-! DEFINITION. What an accepted sheet and base image put into the device (R42 to R58, R348, R359): the window reset, the
structure records, the registers, the engine program, the ROM sheet, the clock plan and the restored totals. -/

namespace Sys2Proof.Machine

/-! ### The reset of a section window (R58) -/

/-- The factory calibration words of a section (R78). -/
def SecState.fuseWords (s : Sec) (nv : NonVol) (x : SecState) : SecState :=
  (upTo 12).foldl (fun x c => x.wr (Reg.ADC_FUSE c) (Tbl.get (fun _ => (0x8000 : W)) nv.fuses.adc (12 * s.val + c))) x

/-- A register that the window reset leaves: the status file's SEC_STATE, SHEET_STAT and SHEET_REC, and ADC_CFGc and
ADC_CALc of a metered channel. -/
def keptBySheet (metered : Nat → Bool) (o : Nat) : Bool :=
  o == Reg.SEC_STATE || o == Reg.SHEET_STAT || o == Reg.SHEET_REC ||
    (decide (0x20100 ≤ o) && decide (o < 0x201C0) && decide (o % 0x10 < 8) && metered ((o - 0x20100) / 0x10))

/-- A section whose window is returned to its reset values. A metered channel converts on, so its decimator and what is
in its pipeline stay (R58, R76, R93). -/
def SecState.blank (s : Sec) (nv : NonVol) (metered : Nat → Bool) (safe5 : Nat) (x : SecState) : SecState :=
  SecState.fuseWords s nv {
    regs := Tbl.keep (keptBySheet metered) x.regs, bootStop := x.bootStop, safe5 := safe5
    dec := Tbl.keep metered x.dec
    drain := (upTo 12).foldl (fun m c => if metered c then m else m &&& ~~~(BitVec.ofNat 12 (2 ^ c))) x.drain }

/-- The channels of a section that belong to metering points, by local number. -/
def Dev.ownMetered (d : Dev) (s : Sec) (c : Nat) : Bool := d.metered (12 * s.val + c)

/-- A blank section of the device, with gate removal as the safety block has it now. -/
def Dev.blankOf (d : Dev) (nv : NonVol) (s : Sec) : SecState :=
  (d.sc s).blank s nv (d.ownMetered s) (if d.safeSt = 2 ∨ d.safeSt = 3 then 0 else 2)

/-- The window of section s returned to its reset values (R58): injections into it end, the sheet's open ranges close,
and the ports' snapshots of it are gone. -/
def Dev.blankSec (d : Dev) (nv : NonVol) (s : Sec) : Dev :=
  let d1 := d.injDrop s
  let lo := secBase s
  ({ d1 with
    sec := d1.sec.set s (d1.blankOf nv s)
    snap := d1.snap.mapIdx (fun _ t => Tbl.keep (fun a => decide (a < lo) || decide (lo + 0x100000 ≤ a)) t)
    rwpSheet := d1.rwpSheet.set s [] } : Dev).syncDerate

/-! ### The records of a sheet -/

/-- LEG, BRIDGE, fault maps and routes of a sheet applied (R42 to R45). -/
def SecState.structure (x : SecState) (rs : List Rec) : SecState :=
  let x1 := (ofType rs 0x8100).foldl (fun x r =>
    (upTo 10).foldl (fun x j => x.wr (Reg.LEG_W (bitsN (r.w 0) 17 16) j) (natW (r.w j))) x) x
  let x2 := (ofType rs 0x8101).foldl (fun x r =>
    let b : Bridge := ⟨bitsN (r.w 0) 23 16 % 4, by omega⟩
    ({ x with bridges := x.bridges.set b {
      kind := bitsN (r.w 0) 15 8, mask := BitVec.ofNat 4 (r.w 0), sBase := r.w 1, vBase := r.w 2, iBase := r.w 3
      vdcBase := r.w 4, scope := bitsN (r.w 5) 1 0 } } : SecState)) x1
  let x3 := (ofType rs 0x8102).foldl (fun x r => (mapEntries r).foldl (fun x e => x.wr (Reg.FC_MAP e.1) e.2) x) x2
  (ofType rs 0x8103).foldl (fun x r =>
    r.ws.foldl (fun x w => x.wr (Reg.FC_ROUTE (bitsN w.toNat 6 0 - 120)) (w &&& 0xFFFF0000)) x) x3

/-- The input map of a sheet: 0xFFFFFFFF for a slot without entry (R46). -/
def inputMap (rs : List Rec) : Tbl W :=
  (ofType rs 0x8104).foldl (fun t r =>
    r.ws.foldl (fun t w => Tbl.set (fun _ => (0xFFFFFFFF : W)) t (bitsN w.toNat 28 24) w) t) []

/-- The engine state that INITIAL_STATE gives (R47). -/
def initialState (rs : List Rec) : EngSt :=
  { wreg := (ofType rs 0x8106).foldl (fun t r =>
      Tbl.setList (fun _ => (0 : W)) t (64 * bitsN (r.w 0) 1 0) r.ws.tail) [] }

/-- What an accepted sheet gives its section. -/
structure SheetPlan where
  x : SecState
  img : EngImg
  init : EngSt
  map : List W
  rwp : List (Nat × Nat)
  stopReq : Bool
  rom : Bool
  skipped : Nat
  ignored : Nat
  builds : W × W
  arbs : W × W
  meas : List Byte × List Byte
  fixed : List Byte

/-- The offsets of the registers of the sheet-writable windows, but for TICK_DEADLINE (R348). -/
def digestOffsets : List Nat :=
  ((upTo 0x20000).map (fun i => 4 * i)).filter (fun o =>
    (regWindows (.sheet 0) []).any (fun w => decide (w.1 ≤ 0x100000 + o) && decide (0x100000 + o < w.2)) &&
      o != Reg.TICK_DEADLINE && (secRow o).isSome)

/-- The fixed digest of a sheet (R348). -/
def fixedDigest (s : Sec) (metered : Nat → Bool) (rs : List Rec) : List Byte :=
  let sorted (ty : Nat) : List Rec :=
    (upTo 4).flatMap (fun n => (ofType rs ty).filter (fun r => decide (bitsN (r.w 0) 23 16 = n)))
  let x := (sheetRegs s metered rs {}).x
  sha384 ((sorted 0x8100 ++ sorted 0x8101 ++ ofType rs 0x8103 ++ ofType rs 0x8003).flatMap
    (fun r => r.ws.flatMap wordBytes) ++ digestOffsets.flatMap (fun o => wordBytes (x.rd o)))

/-- The checks of R433 on the sheet of section s, and what it gives: `base` is the window it is applied to. -/
def checkSheet (s : Sec) (nv : NonVol) (metal compat : Nat) (metered : Nat → Bool) (base : SecState)
    (bs : List Byte) : Checked SheetPlan := do
  let (h, rs) ← checkImage (.sheet s) nv metal (some compat) bs
  let ep := (ofType rs 0x8105).headD ⟨0, 0, []⟩
  match checkProg s nv metal (ep.ws.flatMap wordBytes) with
  | .error _ => .error (0xE, ep.idx)
  | .ok p =>
    req (h.valuesOk (.sheet s)) 0xD 0
    stageOk (structBad rs)
    stageOk (((ofType rs 0x8102).filter (fun r => !faultMapOk false r)).map (·.idx) ++
      ((ofType rs 0x8103).filter (fun r => !routeOk r)).map (·.idx))
    stageOk (((ofType rs 0x8104).filter (fun r => !inputMapOk r)).map (·.idx))
    let g := sheetRegs s metered rs (base.structure rs)
    stageOk g.bad
    .ok {
      x := g.x, img := { p.img with imap := inputMap rs }, init := initialState rs
      map := ((ofType rs 0x8107).head?.map (·.ws)).getD []
      rwp := (ofType rs 0x8003).flatMap (fun r => pairsOf r.ws)
      stopReq := Nat.testBit h.flags 1, rom := false, skipped := skipped rs + p.skipped, ignored := g.ignored
      builds := (natW h.build, natW p.build), arbs := (natW h.arb, natW p.arb)
      meas := (imgMeasure h bs, p.meas), fixed := fixedDigest s metered rs }

/-! ### The ROM sheet (R359) -/

/-- The legs 0 to 2 of the ROM sheet. -/
def SecState.romLeg (x : SecState) (l : Nat) : SecState :=
  let w (j v : Nat) (x : SecState) : SecState := x.wr (Reg.LEG_W l j) (natW v)
  let x1 := w 9 0x01900032 (w 4 80 (w 3 0x81 (w 1 0x7 (w 0 (l * 65536 + 0x100) x))))
  let x2 := x1.wr (Reg.CAR_CFG l) (natW (0x30400000 + if l = 0 then 0 else 0x200000))
  let x3 := (x2.wr (Reg.LEG_LIM l) 0xFFFF0000).wr (Reg.SW_MAP l) 0x333350
  ((x3.wr (Reg.TRIP_SRC l) 0x4321).wr (Reg.TRIP_LEN l) 0x01010101).wr (Reg.SH_FORCE l) 0x19

/-- The ROM sheet in a blank window: the shadow sets stand as the forerunner's reset values give them (R360 to R362). -/
def SecState.romSheet (x : SecState) (metered : Nat → Bool) : SecState :=
  let x1 := (upTo 3).foldl (fun x l =>
    ((x.romLeg l).wr (Reg.SH_PRD l) 0x0FA0).wr (Reg.SH_DT l 0) 0x08000800) x
  let x2 := (x1.wr (Reg.LEG_W 3 0) 0x30000).wr (Reg.LEG_W 3 1) 1
  let x3 := (upTo 4).foldl (fun x m =>
    (x.wr (Reg.WM_CFG m) 0xC2003303).wr (Reg.FC_ROUTE m) (natW (0x100000 + m * 65536))) x2
  let x4 := (upTo 8).foldl (fun x c => if metered c then x else x.wr (Reg.ADC_CFG c) 1) x3
  let x5 := ((x4.wr Reg.TICK_CFG 0xC00007D0).wr Reg.TICK_DEADLINE 1000).put Reg.FC_CFG Fld.FC_CFG_STICKY 1
  let x6 := (x5.put (Reg.BR_CFG 0) Fld.BR_CFG_GRID 0).put (Reg.BR_CFG 0) Fld.BR_CFG_GFM 0
  { x6 with bridges := x6.bridges.set 0 { kind := 1, mask := 7, scope := 1 } }

/-- The ROM sheet as a plan: no header, counter or signature. Its program is the one instruction COMMIT with LEGS 0. -/
def romPlan (base : SecState) (metered : Nat → Bool) : SheetPlan :=
  { x := base.romSheet metered
    img := { count := 1, worst := 1, prog := [(0, 0x1C000000)] }
    init := {}, map := [], rwp := [], stopReq := false, rom := true, skipped := 0, ignored := 0, builds := (0, 0)
    arbs := (0, 0), meas := (Config.romSheetHash, Config.romSheetHash), fixed := [] }

/-! ### A section takes its sheet (R58, R117, R147, R272) -/

/-- The engine pair of a section just booted (R150, R154). -/
def SheetPlan.pair (p : SheetPlan) : EngPair := { imgA := p.img, imgB := p.img, st := p.init, init := p.init }

/-- The section as the plan gives it: programs loaded, monitors in their assumed states. The accumulators that the plate
arms arm with the carrier start (R86). -/
def SheetPlan.section (p : SheetPlan) : SecState :=
  let x : SecState := { p.x with
    eng := p.pair, mSheet := p.meas.1, mProgA := p.meas.2, mProgB := p.meas.2, fixed := p.fixed }
  let x1 := ((x.wr Reg.SHEET_BUILD p.builds.1).wr Reg.PROG_BUILD p.builds.2).wr Reg.ENG_LAYOUT p.img.layout
  x1.monitorsStart.mpptStart

/-- A section without a carrier start: no accumulator of the plate is armed (notes/assumptions/28.md). -/
def SecState.disarmAll (x : SecState) : SecState :=
  (upTo 48).foldl (fun x k => x.put (Reg.ACC_CFG k) Fld.ACC_CFG_ARM 0) x

/-- SHEET_STAT of an applied sheet: REASON and REC_INDEX stay those of the last rejected one. -/
def SheetPlan.stat (p : SheetPlan) (old : W) (proofRej : Bool) : W :=
  (old &&& 0x0FFFF000) ||| natW (2 ^ 31 + b2n p.rom * 2 ^ 30 + b2n p.stopReq * 2 ^ 29 + b2n proofRej * 2 ^ 28 +
    min 63 p.skipped * 2 ^ 6 + min 63 p.ignored)

/-- A sheet applied to section s, which enters READY, or STOPPED where a stop cause came during the boot (R28, R58). -/
def Dev.sheetApply (d : Dev) (s : Sec) (p : SheetPlan) (proofRej : Bool) : Dev :=
  let x := p.section
  let x1 := x.wr Reg.SHEET_STAT (p.stat (x.rd Reg.SHEET_STAT) proofRej)
  let d1 : Dev := { d with sec := d.sec.set s x1, rwpSheet := d.rwpSheet.set s p.rwp }
  let d2 := if x.bootStop then (d1.setSec s 6).onSec s (·.disarmAll)
    else (d1.setSec s 3).onSec s (·.carrierStart d1.instant (Config.freeBit d1.freeCount))
  ((d2.tickFree.syncDerate).onSec s (fun x => { x with bootStop := false })).alarmRoute s

/-- A rejected sheet in SHEET_STAT and SHEET_REC (R59). -/
def Dev.sheetReject (d : Dev) (s : Sec) (e : Nat × Nat) : Dev :=
  d.onSec s (fun x => ((x.put Reg.SHEET_STAT Fld.SHEET_STAT_REASON e.1).put Reg.SHEET_STAT Fld.SHEET_STAT_REC_INDEX
    (min 4095 e.2)).wr Reg.SHEET_REC (natW (e.2 % 65536)))

/-- No sheet loads (R58): REJECTED, and nothing is applied. -/
def Dev.sheetNone (d : Dev) (s : Sec) (proofRej : Bool) : Dev :=
  (d.onSec s (fun x => ({ x with bootStop := false } : SecState).wr Reg.SHEET_STAT
    ((x.rd Reg.SHEET_STAT &&& 0x0FFFF000) ||| natW (b2n proofRej * 2 ^ 28)))).setSec s 2

/-- The anti-rollback counters of a sheet and its program are raised (R38, R336). -/
def sheetArbs (s : Sec) (p : SheetPlan) : List NvOp := [.arb (1 + s.val) p.arbs.1, .arb (5 + s.val) p.arbs.2]

/-! ### The copy of a proof image (R330, R331) -/

/-- An accepted image of the proof bank copied into the lowest gap, and the directory switched to it; none without a
gap. -/
def installOps (nv : NonVol) (e : Nat) (bs : List Byte) (hash : List Byte) : Option (List NvOp) :=
  (nv.gap bs.length).map (fun off =>
    [.mram off bs, nv.dirSwitch e off bs.length hash, .proofStatus e 1])

/-! ### The clock plan (R54, R55, R65) -/

/-- PLL p as the plan leaves it: it starts, and locks where it can. PLL_NET that an internal restart kept in lock runs
on while its registers call for no relock (R25, R66). -/
def Dev.planLock (d old : Dev) (locks : BitVec 7) (p : Nat) : Dev :=
  let f := d.rd (Reg.PLL_FREQ p)
  if !d.pllOn p then (if old.locked p then (d.put (Reg.PLL_STAT p) Fld.PLL_STAT_LOCK 0).timeHalt else d)
  else if old.locked p && old.pllOn p && decide (old.rd (Reg.PLL_FREQ p) = f) then d
  else if old.pllOn p && old.smallStep p f then d.put (Reg.PLL_STAT p) Fld.PLL_STAT_SETTLING 1
  else
    let d1 := (if old.locked p then d.timeHalt else d).pllStart p
    if locks.getLsbD p then d1.pllLock p else d1

/-- Every PLL as the plan leaves it. -/
def Dev.planLocks (d old : Dev) (locks : BitVec 7) : Dev := ((upTo 7).foldl (fun d p => d.planLock old locks p) d).timeFollow

/-- PLL_SYS, PLL_ADC and PLL_NET, where the plan enables them, are in lock. -/
def Dev.planLocked (d : Dev) : Bool := [0, 5, 6].all (fun p => !d.pllOn p || d.locked p)

/-- The clock registers back at their reset values; the time counter halts (R54, R301). -/
def Dev.clocksReset (d : Dev) : Dev :=
  ({ d with regs := Tbl.keep (fun a => decide (a / 0x10000 ≠ 1)) d.regs, plls := [] } : Dev).timeHalt

/-! ### The records of a base image (R50) -/

/-- QUEUE_POOL: the rings in queue order (R314). -/
def Dev.poolRecord (d : Dev) (r : Rec) : Dev :=
  ((upTo 64).foldl (fun (p : Dev × Nat) q =>
    let w := r.ws.getD q 0
    let d1 := p.1.wr (Reg.Q_BASE q) (natW (p.2 % 2 ^ 20))
    ((d1.put (Reg.Q_CFG q) Fld.Q_CFG_LOG2_DESC (bitsN w.toNat 3 0)).put (Reg.Q_CFG q) Fld.Q_CFG_BUF_UNITS
      (bitsN w.toNat 15 8), p.2 + ringBytes w)) (d, 0)).1

/-- METER_POINT (R236). -/
def Dev.pointRecord (d : Dev) (r : Rec) : Dev :=
  let p := bitsN (r.w 0) 18 16
  let d1 := (upTo 7).foldl (fun d j => d.wr (Reg.MP_W p j) (natW (r.w j))) d
  (d1.wr (Reg.MP_STAT p) (natW (2 ^ 31 + bitsN (r.w 0) 9 8 * 2 ^ 27))).put Reg.DOM_EN ⟨0, 0⟩ 1

/-- ISLAND (R226, R227). -/
def Dev.islandRecord (d : Dev) (r : Rec) : Dev :=
  let sec := bitsN (r.w 0) 17 16
  let code := bitsN (r.w 0) 6 0
  let d1 : Dev := { d with isl := { d.isl with present := true } }
  let d2 := d1.islWr Reg.ISL_INFO (natW (sec * 2 ^ 26 + sec * 2 ^ 24 + bitsN (r.w 1) 7 0 * 2 ^ 16 + code))
  ((d2.islWr Reg.ISL_THRESH (natW (r.w 2))).islWr Reg.ISL_CODE_LO (codeWord code 0 32)).islWr Reg.ISL_CODE_HI
    (codeWord code 32 31)

/-- The structure records of a base image. -/
def Dev.baseRecords (d : Dev) (rs : List Rec) : Dev :=
  let d1 := (ofType rs 0x8010).foldl (fun d r => d.poolRecord r) d
  let d2 := (ofType rs 0x8011).foldl (fun d r => (mapEntries r).foldl (fun d e => d.wr (Reg.DFC_MAP e.1) e.2) d) d1
  let d3 := (ofType rs 0x8012).foldl (fun d r => d.pointRecord r) d2
  let d4 := (ofType rs 0x8013).foldl (fun d r => d.islandRecord r) d3
  (ofType rs 0x8014).foldl (fun d r =>
    { d with policy := ⟨r.ws.getD 0 0, r.ws.getD 1 0, r.ws.getD 2 0, r.ws.getD 3 0⟩ }) d4

/-- A metering point switches MET on: its frequency has to fit then (R64, R236). -/
def metBad (rs : List Rec) (d : Dev) : List Nat :=
  if (d.put Reg.DOM_EN ⟨0, 0⟩ 1).domainOk 0 1 then [] else ((ofType rs 0x8012).map (·.idx)).take 1

/-- The metering totals restored from FeRAM (R244). -/
def Dev.meterRestore (d : Dev) (nv : NonVol) : Dev :=
  match feNewest nv 4, fePayload nv 4 with
  | some (off, _), some p =>
    let tots (k : Nat) : Tbl Nat :=
      Tbl.setList (fun _ => 0) [] 0 ((upTo 56).map (fun j => bytesNat ((p.drop (4 + 8 * (56 * k + j))).take 8) * 2 ^ 32))
    ((upTo 8).foldl (fun d k => d.setPoint k { d.point k with tot := tots k }) d).put Reg.MET_STAT Fld.MET_STAT_RESTORE
      (if off = 0 then 0 else 1)
  | _, _ => (d.put Reg.MET_STAT Fld.MET_STAT_RESTORE 2).pulse 24

/-- DEV_REV.METAL, the highest metal revision that TARGET may name. -/
def Dev.metal (d : Dev) : Nat := bitsN (d.rd Reg.DEV_REV).toNat 7 0

/-- The checks of R433 on a base image up to the lock of its clock plan, and the device with the image applied and the
plan tried: the answer carries the image's ARB. -/
def Dev.basePlan (d : Dev) (nv : NonVol) (locks : BitVec 7) (bs : List Byte) : Checked (Dev × W) := do
  let (h, rs) ← checkImage .base nv d.metal none bs
  req (h.valuesOk .base) 0xD 0
  let c := baseRegs rs true d
  stageOk c.bad
  stageOk (baseBad rs ++ metBad rs c.d)
  let m := baseRegs rs false (c.d.baseRecords rs)
  stageOk m.bad
  let l := m.d.planLocks d locks
  let l1 : Dev := { l with rwpBase := (ofType rs 0x8003).flatMap (fun r => pairsOf r.ws), mBase := imgMeasure h bs }
  let l2 := (l1.wr Reg.PLATE_BUILD (natW h.build)).wr Reg.PLATE_COMPAT (natW h.compat)
  .ok (l2.wr Reg.PLATE_STAT (natW (2 ^ 31 + min 255 (skipped rs))), natW h.arb)

end Sys2Proof.Machine
end

