-- ==== Sys2Proof/Machine/Boot.lean ====
section
/-! DEFINITION. Device reset and release, the boot of the device and of its sections, the internal restart, and the loads
of a couching (R25, R54 to R58, R269, R338, R348 to R353, R396 to R398). -/

namespace Sys2Proof.Machine

/-! ### Device reset (R396 to R398) -/

/-- The sections after reset: OFF, with the factory calibration words. -/
def freshSections (nv : NonVol) : Quad SecState := (Quad.all ({} : SecState)).mapIdx (fun s x => SecState.fuseWords s nv x)

/-- The device while its reset is held: only the keep domain stands as it was (R381, R398). -/
def Dev.inReset (d : Dev) (nv : NonVol) : Dev :=
  { regs := Tbl.keep (fun a => decide (a / 0x10000 = 9)) d.regs, sec := freshSections nv, keep := d.keep
    freeCount := d.freeCount, held := true }

/-- DEVICE_RESET (R396): NRST, a supply monitor, or the keep domain after a power failure (R393). Loss of a core
supply is an entry into SAFE by a direct cause (R24, R276) that the reset then ends: the keep domain keeps its count
and its history (notes/assumptions/21.md). -/
def deviceReset (cause : ResetCause) (nv : NonVol) (d : Dev) : Dev :=
  match cause with
  | .keep => if d.keep.hold then d.inReset nv else d
  | .supply true => if d.held then d.inReset nv else (d.goSafe 3 0).inReset nv
  | _ => d.inReset nv

/-- The straps taken (R398, R308). -/
def Dev.takeStraps (d : Dev) (straps : BitVec 4) : Dev :=
  (upTo 4).foldl (fun d k => d.putB (Reg.HP_STAT k) Fld.HP_STAT_COMPAT (straps.getLsbD k)) d

/-- DEVICE_RESET_RELEASE (R396): not while the keep domain holds reset. A tamper event of the meantime is raised now
(R395). -/
def deviceResetRelease (straps : BitVec 4) (_nv : NonVol) (d : Dev) : Dev :=
  if d.held && d.holdEnded then
    let d1 : Dev := { d with held := false, keep := { d.keep with hold := false, tamper := false }, nvOut := d.nvOut ++ [.boot] }
    let d2 := (d1.takeStraps straps).newChallenge
    if d.keep.tamper then d2.pulse 36 else d2
  else d

/-! ### Device boot (R54 to R57, R338) -/

/-- A rejected base image in PLATE_STAT. -/
def Dev.plateReject (d : Dev) (e : Nat × Nat) : Dev :=
  (d.put Reg.PLATE_STAT Fld.PLATE_STAT_REASON e.1).put Reg.PLATE_STAT Fld.PLATE_STAT_REC_INDEX (e.2 % 65536)

/-- No base image is applied: REJECTED, on the reset clocks, with the time counter halted (R295). -/
def Dev.bootRejected (d : Dev) : Dev := d.clocksReset.setState 2

/-- A section boot at device boot (R57): a claim overrides AUTO_START, and STICKY is set from the claim (R272). -/
def Dev.bootSection (d : Dev) (s : Sec) : Dev :=
  if d.portCompat s.val then (d.secPut s Reg.FC_CFG Fld.FC_CFG_STICKY 1).secStart s
  else if wbit (d.policy.get s) 0 then d.secStart s
  else d

/-- A base image is applied: its counter is raised, the totals are restored, SERVICE, the section boots. The PLLs have
locked to REFCLK, which the monitor has accepted by then (R70, notes/assumptions/47.md). -/
def Dev.bootDone (d : Dev) (nv : NonVol) (arb : W) : Dev :=
  let d1 : Dev := { d with nvOut := d.nvOut ++ [.arb 0 arb] }
  let d2 := ((d1.put Reg.REF_STAT Fld.REF_STAT_REF_OK 1).meterRestore nv).setState 3
  (((d2.bootSection 0).bootSection 1).bootSection 2).bootSection 3

/-- The boot from the active bank. `rej` is what the proof bank's image was rejected for, which PLATE_STAT goes on
reporting (R338). -/
def Dev.bootActive (d : Dev) (nv : NonVol) (r : BaseBoot) (rej : Option (Nat × Nat)) : Dev :=
  match nv.bankImage 0 with
  | none => (d.plateReject (0x1, 0)).bootRejected
  | some bs =>
    match d.basePlan nv r.locks bs with
    | .error e => (d.plateReject e).bootRejected
    | .ok (d1, arb) =>
      if d1.planLocked then
        (match rej with | some e => d1.plateReject e | none => d1).bootDone nv arb
      else (d.plateReject (0xD, 0)).bootRejected

/-- A rejected base image of the proof bank: UPDATE_REJ, and its entry becomes rejected, or stays new for want of a
gap. -/
def Dev.proofReject (d : Dev) (e : Nat × Nat) (keepNew : Bool) : Dev :=
  let d1 := (d.plateReject e).pulse 38
  if keepNew then d1 else { d1 with nvOut := d1.nvOut ++ [.proofStatus 0 2] }

/-- BASE_BOOT_COMPLETE (R56, R338). -/
def baseBootComplete (r : BaseBoot) (nv : NonVol) (d : Dev) : Dev :=
  if d.devState ≠ 1 then d
  else if !r.katOk then (d.put Reg.BOOT_STAT Fld.BOOT_STAT_KAT_FAIL 1).bootRejected
  else if nv.proofNew 0 then
    let bs := nv.proofImage 0
    match d.basePlan nv r.proofLocks bs with
    | .error e => (d.proofReject e false).bootActive nv r (some e)
    | .ok (d1, arb) =>
      match nv.gap bs.length, installOps nv 0 bs d1.mBase with
      | some off, some ops =>
        if d1.planLocked then ({ d1 with nvOut := d1.nvOut ++ ops } : Dev).bootDone nv arb
        else
          let d2 := d.clocksReset.proofReject (0xD, 0) false
          ({ d2 with nvOut := d2.nvOut ++ [.mram off bs] } : Dev).bootActive nv r (some (0xD, 0))
      | _, _ => (d.proofReject (0x5, 0) true).bootActive nv r (some (0x5, 0))
  else d.bootActive nv r none

/-! ### Internal restart (R25, R269) -/

/-- Every source that applied severity 5 is idle, no restart limit stands, the direct causes have cleared (PLL_SYS is
in lock, the SAFE domain has not failed; R24, R71), and the metering record of the SAFE entry is committed (R245). -/
def Dev.mayRestart (d : Dev) : Bool :=
  let io := d.fcIO
  (upTo 64).all (fun n =>
    let p := d.fc.pair n
    decide (io.appliedSev n ≠ 5) || !(p.drive || p.level || p.broken)) &&
    !(d.fc.pair 56).drive && !d.safe.self && d.locked 0 &&
    (d.keep.waiting ++ d.keep.running.toList).all (fun b => decide (b.kind ≠ 4))

/-- The registers that an internal restart keeps whole (R25): PLL_NET, the safety block, the time counter, the keep
block, FC_LAST_SAFE, and the CHALLENGE. -/
def keptByRestart (a : Nat) : Bool :=
  (decide (0x10700 ≤ a) && decide (a < 0x10800)) || decide (a / 0x10000 = 3) || (decide (0x50000 ≤ a) && decide (a < 0x50100)) ||
    decide (a / 0x10000 = 9) || a == Reg.FC_LAST_SAFE || (decide (Reg.CHALLENGE 0 ≤ a) && decide (a ≤ Reg.CHALLENGE 7))

/-- The device in BOOT after an internal restart. -/
def Dev.restarted (d : Dev) (nv : NonVol) : Dev :=
  let fresh : Dev := {
    regs := Tbl.keep keptByRestart d.regs, sec := (freshSections nv).mapIdx (fun _ x => { x with safe5 := d.safe.step5 })
    safe := d.safe, keep := d.keep
    plls := Tbl.keep (fun p => decide (p = 6)) d.plls, rcPpm := d.rcPpm, time := d.time, freeCount := d.freeCount
    nvOut := d.nvOut ++ [.boot] }
  let d1 := (upTo 4).foldl (fun f k => f.putB (Reg.HP_STAT k) Fld.HP_STAT_COMPAT (d.portCompat k)) fresh
  (d1.wr Reg.BOOT_STAT (d.rd Reg.BOOT_STAT &&& 0x06000000)).soSync

/-- INTERNAL_RESTART (R269): from SAFE, once the causes have cleared. -/
def internalRestart (nv : NonVol) (d : Dev) : Dev := if d.devState = 5 ∧ d.mayRestart = true then d.restarted nv else d

/-! ### Section boots (R55, R57, R58) -/

/-- SECTION_BOOT_START (R57): the crypto engine serves the boot at the head of its requests; the window is reset.
Without a running section clock the section is REJECTED (R55). -/
def sectionBootStart (s : Sec) (nv : NonVol) (d : Dev) : Dev :=
  match d.crypto with
  | c :: rest =>
    if c = s.val ∧ d.cryptoOn = false then
      let d1 := ((d.blankSec nv s).bridgeEvents s (d.sc s)).onCp s (fun p => { p with live := false })
      if d1.secClock s then { d1 with cryptoOn := true }
      else ({ d1 with crypto := rest } : Dev).sheetReject s (0xD, 0) |>.sheetNone s false
    else d
  | [] => d

/-- A sheet of section s judged on the device as it stands. -/
def Dev.judgeSheet (d : Dev) (nv : NonVol) (s : Sec) (base : SecState) (bs : List Byte) :
    Checked SheetPlan :=
  checkSheet s nv d.metal (d.rd Reg.PLATE_COMPAT).toNat (d.ownMetered s) base bs

/-- The boot from the active bank. -/
def Dev.sheetActive (d : Dev) (nv : NonVol) (s : Sec) (proofRej : Bool) : Dev :=
  match nv.bankImage (s.val + 1) with
  | none => (d.sheetReject s (0x1, 0)).sheetNone s proofRej
  | some bs =>
    match d.judgeSheet nv s (d.sc s) bs with
    | .error e => (d.sheetReject s e).sheetNone s proofRej
    | .ok p => ({ d with nvOut := d.nvOut ++ sheetArbs s p } : Dev).sheetApply s p proofRej

/-- The sheet that a section boot loads: the ROM sheet of a claimed section, a new sheet of the proof bank, or the one
in the active bank. -/
def Dev.sheetLoad (d : Dev) (nv : NonVol) (s : Sec) : Dev :=
  let e := s.val + 1
  if d.claimed s then d.sheetApply s (romPlan (d.sc s) (d.ownMetered s)) false
  else if nv.proofNew e then
    let bs := nv.proofImage e
    match d.judgeSheet nv s (d.sc s) bs with
    | .error w =>
      let d1 := (d.sheetReject s w).pulse 38
      ({ d1 with nvOut := d1.nvOut ++ [.proofStatus e 2] } : Dev).sheetActive nv s true
    | .ok p =>
      match installOps nv e bs p.meas.1 with
      | some ops => ({ d with nvOut := d.nvOut ++ ops ++ sheetArbs s p } : Dev).sheetApply s p false
      | none => ((d.sheetReject s (0x5, 0)).pulse 38).sheetActive nv s true
  else d.sheetActive nv s false

/-- SECTION_BOOT_COMPLETE (R58). A claimed section that reaches READY answers its port from now on, with the
forerunner's reset values (R357). -/
def sectionBootComplete (s : Sec) (nv : NonVol) (d : Dev) : Dev :=
  match d.crypto with
  | c :: rest =>
    if c = s.val ∧ d.cryptoOn = true then
      let d1 := ({ d with crypto := rest, cryptoOn := false } : Dev).sheetLoad nv s
      if d1.claimed s && decide (d1.secSt s = 3) then d1.onCp s (fun p => { p with live := true, regs := [], run := false })
      else d1
    else d
  | [] => d

/-! ### The loads of a couching (R348 to R353) -/

/-- What refuses B's sheet after its checks (R348): 0, or the reason. -/
def couchCheck (x : SecState) (p : SheetPlan) : Nat :=
  if p.stopReq then 5
  else if p.fixed ≠ x.fixed then 6
  else match p.map with
    | o :: _ => if o = x.rd Reg.ENG_LAYOUT then 0 else 7
    | [] => 7

/-- B holds the proof sheet: what takeover will apply. -/
def Couch.load (c : Couch) (p : SheetPlan) (place : Nat × Nat) : Couch :=
  { c with
    loaded := true, img := p.img, init := p.init, map := p.map, deadline := p.x.rd Reg.TICK_DEADLINE
    fcmap := (upTo 128).map (fun n => p.x.rd (Reg.FC_MAP n)), builds := p.builds, arbs := p.arbs, place := place
    meas := p.meas }

/-- COUCH_B_LOAD (R348): B's boot of the proof sheet ends. For want of a gap the entry stays new (R330). -/
def couchBLoad (s : Sec) (nv : NonVol) (d : Dev) : Dev :=
  match d.crypto with
  | c :: rest =>
    if c = 4 + s.val ∧ d.cryptoOn = false ∧ d.couchPhase s = 2 then
      let d0 : Dev := { d with crypto := rest }
      let bs := nv.proofImage (s.val + 1)
      match d0.judgeSheet nv s (d0.blankOf nv s) bs with
      | .error e => (d0.sheetReject s e).couchAbandon s 4
      | .ok pl =>
        match couchCheck (d0.sc s) pl, nv.gap bs.length with
        | 0, some off =>
          ({ d0 with nvOut := d0.nvOut ++ [.mram off bs] } : Dev).onSec s (fun x =>
            ({ x with mProgB := pl.meas.2 } : SecState).onCouch (fun c => c.load pl (off, bs.length)))
        | 0, none => { (d0.sheetReject s (0x5, 0)).couchAbandon s 4 with nvOut := d0.nvOut }
        | n, _ => d0.couchAbandon s n
    else d
  | [] => d

/-- DIRECTORY_SWITCH (R351): after takeover the directory names the new sheet and the counters are raised; the proof
entry becomes consumed. -/
def directorySwitch (s : Sec) (nv : NonVol) (d : Dev) : Dev :=
  let c := (d.sc s).couch
  if d.couchPhase s = 4 ∧ c.place.2 ≠ 0 then
    ({ d with nvOut := d.nvOut ++ [nv.dirSwitch (s.val + 1) c.place.1 c.place.2 c.meas.1, .arb (1 + s.val) c.arbs.1,
      .arb (5 + s.val) c.arbs.2, .proofStatus (s.val + 1) 1] } : Dev).onSec s (·.onCouch (fun c => { c with place := (0, 0) }))
  else d

/-- COUCH_A_RELOAD (R352, R353): the engine outside lockstep has been reloaded and checked: A after a takeover, B
after an abandoned couching. A second failed check of a section gives it a stop cause. -/
def couchAReload (s : Sec) (ok : Bool) (d : Dev) : Dev :=
  let x := d.sc s
  let c := x.couch
  let due := (decide (d.couchPhase s = 4) && decide (c.place.2 = 0)) || c.back
  if !due || c.ready then d
  else if !ok then
    if c.fails = 0 then d.onSec s (·.onCouch (fun c => { c with fails := 1 }))
    else
      ((d.put (Reg.COUCH_STAT s.val) Fld.COUCH_STAT_REASON 0xD).onSec s (·.onCouch (fun c => { c with fails := 0 }))).stopSec s
  else if x.state = 7 then d.onSec s (·.onCouch (fun c => { c with ready := true }))
  else d.relock s

end Sys2Proof.Machine
end

