-- ==== Sys2Proof/Machine/Compat.lean ====
section
/-! DEFINITION. The forerunner's port (R355 to R370): its frames, its register map, the commits and commands that its
writes make in the claimed section, its fault register, and the synthesised ADC results. -/

namespace Sys2Proof.Machine

/-! ### The forerunner's registers -/

/-- Reset values of the forerunner's registers. -/
def cpReset (a : Nat) : W :=
  if a = 0x03 then 0x0FA0 else if a = 0x07 then 0x10 else if a = 0x0D then 0xF0 else if a = 0x0E then 1
  else if 0x18 ≤ a ∧ a ≤ 0x1F then 0x7FF else 0

/-- The bits of a register that a write sets. RUN and SWRST of CTRL act by themselves. -/
def cpMask (a : Nat) : Nat :=
  if a = 0x01 then 0xE else if 0x03 ≤ a ∧ a ≤ 0x06 then 0xFFFF else if a = 0x07 then 0xFF else if a = 0x09 then 0x803F
  else if a = 0x0A then 0x3F else if a = 0x0C then 0x17F else if a = 0x0D then 0xFF else if a = 0x0E then 3
  else if 0x18 ≤ a ∧ a ≤ 0x1F then 0x7FF else if 0x20 ≤ a ∧ a ≤ 0x27 then 0xFFF else if 0x28 ≤ a ∧ a ≤ 0x2C then 0xFFFF
  else if a = 0x72 then 7 else 0

/-- A register as the port holds it. -/
def CompatPort.rd (p : CompatPort) (a : Nat) : Nat := (Tbl.get cpReset p.regs a).toNat

/-- A register of the port replaced. -/
def CompatPort.wr (p : CompatPort) (a v : Nat) : CompatPort := { p with regs := Tbl.set cpReset p.regs a (natW v) }

/-- The part of port k in compatibility mode. -/
def Dev.cp (d : Dev) (k : Port) : CompatPort := (d.hp.get k).cp

/-- A PEND bit of the section's collector. -/
def SecState.pend (x : SecState) (n : Nat) : Bool := (x.fcIO 0).bit 0x40 n

/-- A PEND bit that ESD summarises: any but those of ROUTE0 to ROUTE3. -/
def SecState.otherPend (x : SecState) : Bool := (upTo 128).any (fun n => (decide (n < 120) || decide (123 < n)) && x.pend n)

/-- The legs of B0 of a claimed section. -/
def romLegs : List (Fin 4) := [0, 1, 2]

/-- FAULT.ESD (R367). -/
def CompatPort.esdNow (p : CompatPort) (x : SecState) : Bool :=
  p.esd || x.otherPend || romLegs.any (fun l => x.latched l || x.forced l) || decide (7 ≤ x.brState 0) ||
    !(decide (x.state = 3) || decide (x.state = 4)) || decide (x.safe5 ≠ 0)

/-- FAULT[3:0] (R367). -/
def SecState.cpTrips (x : SecState) : Nat :=
  (upTo 4).foldl (fun m n => m + b2n (wbit (x.rd Reg.WM_LATCH) n || x.pend (120 + n)) * 2 ^ n) 0

/-- FAULT. -/
def CompatPort.fault (p : CompatPort) (x : SecState) : Nat :=
  x.cpTrips + b2n p.spiErr * 16 + b2n p.adcOvr * 32 + b2n (p.esdNow x) * 64

/-- XSTAT. -/
def SecState.cpXstat (x : SecState) : Nat :=
  x.state * 4096 + x.brState 0 % 16 * 256 +
    b2n (romLegs.any (fun l => wbit (x.legView (Reg.PROT_STAT l.val)) 27)) * 128 +
    b2n (romLegs.any x.latched) * 64 + b2n (romLegs.any x.forced) * 32 + b2n (decide (x.safe5 ≠ 0)) * 16

/-- What a register of a live port reads as. -/
def CompatPort.view (p : CompatPort) (x : SecState) (a : Nat) : Nat :=
  if a = 0x00 then 0x3062
  else if a = 0x01 then p.rd 0x01 + b2n p.run
  else if a = 0x02 then
    b2n (decide (p.fault x ≠ 0)) * 8 + b2n (decide (bitsN (x.rd Reg.WM_LATCH).toNat 11 8 ≠ 0)) * 4 +
      b2n (wbit (x.cntView 0) 16) * 2 + b2n (decide (x.brState 0 = 4))
  else if a = 0x08 then (x.cntView 0).toNat % 65536
  else if a = 0x0B then p.fault x
  else if a = 0x0F then p.fresh.toNat
  else if 0x10 ≤ a ∧ a ≤ 0x17 then p.rd a
  else if a = 0x2D then p.tripEv * 256 + p.spiEv
  else if a = 0x2E then 2
  else if a = 0x70 then 0x9624
  else if a = 0x71 then x.cpXstat
  else if a = 0x73 then (upTo 16).foldl (fun m j => m + b2n (x.pend (16 * p.rd 0x72 + j)) * 2 ^ j) 0
  else if cpMask a ≠ 0 then p.rd a else 0

/-- HPk_IRQ of a port in compatibility mode (R367). -/
def Dev.cpIrq (d : Dev) (k : Port) : Bool :=
  let p := d.cp k
  p.live && (decide (p.fault (d.sc k) &&& p.rd 0x0C % 128 ≠ 0) || (Nat.testBit (p.rd 0x0C) 8 && decide (p.fresh ≠ 0)))

/-- HPk_IRQ as it stands at its ball. -/
def Dev.hpBall (d : Dev) (k : Port) : Bool := if d.portCompat k.val then d.cpIrq k else d.hpIrqOut k

/-! ### Frames (R356, R357) -/

/-- A valid frame: it returns what the one before left, and leaves its own R/W bit, address and data. -/
def CompatPort.frame (p : CompatPort) (read : Bool) (a data : Nat) : CompatPort :=
  { p with miso := p.reply, reply := natW (b2n read * 2 ^ 23 + a % 128 * 2 ^ 16 + data % 65536) }

/-- COMPAT_READ (R356, R357): the register is sampled; an RC field clears. -/
def compatRead (k : Port) (addr : BitVec 7) (d : Dev) : Dev :=
  if d.portCompat k.val then
    let a := addr.toNat
    d.onCp k (fun p =>
      if p.live then
        let p1 := p.frame true a (p.view (d.sc k) a)
        if a = 0x0F then { p1 with fresh := 0 } else if a = 0x2D then { p1 with tripEv := 0, spiEv := 0 } else p1
      else p.frame true a 0)
  else d

/-- COMPAT_FRAME_ERROR (R357). -/
def compatFrameError (k : Port) (d : Dev) : Dev :=
  if d.portCompat k.val then
    d.onCp k (fun p => { p with miso := p.reply, reply := 0, spiErr := true, spiEv := min 255 (p.spiEv + 1) })
  else d

/-! ### Commits (R360 to R364) -/

/-- SH_FORCE of a leg (R362): the levels of U0 and U1, with U2 low. -/
def CompatPort.force (p : CompatPort) (l : Nat) : Nat :=
  let prd := p.rd 0x03
  let cmp := p.rd (0x04 + l)
  let ovr := p.rd 0x09
  let en := p.rd 0x0A
  let (l0, l1) :=
    if Nat.testBit ovr 15 then
      (if Nat.testBit ovr (2 * l) then 2 else 1, if Nat.testBit ovr (2 * l + 1) then 1 else 2)
    else
      let lv := if cmp = 0 then 1 else if prd ≤ cmp then 2 else 0
      (if Nat.testBit en (2 * l) then lv else 1, if Nat.testBit en (2 * l + 1) then lv else 2)
  l0 + 4 * l1 + 16

/-- The shadow set of a leg as the port's registers give it (R360, R362). -/
def SecState.cpShadow (x : SecState) (p : CompatPort) (l : Fin 4) : SecState :=
  let x1 := x.wr (Reg.SH_PRD l.val) (natW (p.rd 0x03))
  let x2 := (upTo 4).foldl (fun x j => x.wr (Reg.SH_CMP l.val j) (natW (p.rd (0x04 + l.val) * 128))) x1
  let dt := p.rd 0x07 * 128
  let x3 := (x2.wr (Reg.SH_FORCE l.val) (natW (p.force l.val))).wr (Reg.SH_DT l.val 0) (natW (dt * 65536 + dt))
  x3.put (Reg.CAR_CFG l.val) Fld.CAR_CFG_RELOAD (if Nat.testBit (p.rd 0x01) 1 then 2 else 0)

/-- One commit of legs of B0 (R361). -/
def SecState.cpCommit (x : SecState) (p : CompatPort) (ls : List (Fin 4)) : SecState :=
  ls.foldl (fun x l => x.commitLeg l false) (romLegs.foldl (fun x l => x.cpShadow p l) x)

/-- The set that acts in the running period of a leg. -/
def SecState.runningSet (x : SecState) (l : Fin 4) : List W :=
  match (x.lg l).imm with
  | some w => w
  | none => x.rd (Reg.ACT_PRD l.val) :: ((upTo 6).map (fun j => x.rd (Reg.ACT_CMP l.val j)) ++ [x.rd (Reg.ACT_FORCE l.val)] ++
      (upTo 3).map (fun j => x.rd (Reg.ACT_DT l.val j)))

/-- A compare that reaches the running period of a leg at t (R363). An edge that it places at or before t does not come
about in this half period. -/
def SecState.cpImmediate (x : SecState) (l : Fin 4) (cmp t : Nat) : SecState :=
  let x1 := x.at t
  let w := natW (cmp * 128)
  let set := (upTo 4).foldl (fun s j => s.set (1 + j) w) (x1.runningSet l)
  let x2 := x1.setLeg l { x1.lg l with imm := some set }
  (upTo 2).foldl (fun x u =>
    [true, false].foldl (fun x b => if x.edgeAt l u b = some (t : Int) then x.markDone l u b else x) x) x2

/-- A write of CMPx (R361, R363). -/
def SecState.cpCompare (x : SecState) (p : CompatPort) (l : Fin 4) (t : Nat) : SecState :=
  let x1 := x.cpCommit p [l]
  let cmp := p.rd (0x04 + l.val)
  if Nat.testBit (p.rd 0x01) 2 && (x.lg l).run && decide (cmp ≠ 0) && decide (cmp < p.rd 0x03) && decide (cmp < x.prd l) then
    x1.cpImmediate l cmp t
  else x1

/-! ### Trips and faults (R366, R367) -/

/-- TRIPCFG on monitor n: USE, and the filter restarts from the inactive level. -/
def SecState.cpTrip (x : SecState) (cfg n : Nat) : SecState :=
  let high := Nat.testBit cfg n
  let use := if !Nat.testBit cfg (4 + n) then 0 else if high then 1 else 2
  ((x.put (Reg.WM_CFG n) Fld.WM_CFG_USE use).wmAssume n true (!high)).wmSync n

/-- TRIPCFG on the monitors whose bits change. -/
def SecState.cpTripCfg (x : SecState) (old new : Nat) : SecState :=
  (upTo 4).foldl (fun x n =>
    if Nat.testBit old n = Nat.testBit new n ∧ Nat.testBit old (4 + n) = Nat.testBit new (4 + n) then x else x.cpTrip new n) x

/-- A 1 written to FAULT bits, in the section. -/
def SecState.cpFaultClear (x : SecState) (v : Nat) : SecState :=
  let pendClr (x : SecState) (i : Nat) (m : W) : SecState := x.setFcIO ((x.fcIO 0).writePend i m)
  let x1 := (upTo 4).foldl (fun x n => if Nat.testBit v n then pendClr (x.wmClear n) 3 (natW (2 ^ (24 + n))) else x) x
  let x2 :=
    if Nat.testBit v 6 then
      let y := pendClr (pendClr (pendClr (pendClr x1 0 0xFFFFFFFF) 1 0xFFFFFFFF) 2 0xFFFFFFFF) 3 0xF0FFFFFF
      let y1 := romLegs.foldl (fun y l => y.protClr l (BitVec.ofNat 6 (y.fld (Reg.OC_LIVE l.val) Fld.OC_LIVE_FLT))) y
      if y1.brState 0 = 7 then y1.brQueue 0 4 else y1
    else x1
  if v % 128 ≠ 0 ∧ x2.cpTrips = 0 then romLegs.foldl (fun y l => y.forceClr l) x2 else x2

/-- A write of FAULT. -/
def Dev.cpFault (d : Dev) (k : Port) (v : Nat) : Dev :=
  let d1 := d.secDo k (fun x => x.cpFaultClear v)
  d1.onCp k (fun p => { p with
    esd := p.esd && !Nat.testBit v 6, adcOvr := p.adcOvr && !Nat.testBit v 5, spiErr := p.spiErr && !Nat.testBit v 4 })

/-! ### Run, stop and restart (R365, R368) -/

/-- RUN as a CTRL write asks for it. -/
def Dev.cpRun (d : Dev) (k : Port) (on : Bool) : Dev :=
  let p := d.cp k
  let x := d.sc k
  if on && !p.run then
    if x.cpTrips = 0 ∧ p.esdNow x = false then
      let d1 := d.onCp k (fun p => { p with run := true })
      let d2 := if x.state = 3 then d1.secEnable k else d1
      d2.secDo k (fun x => x.brQueue 0 1)
    else d
  else if !on && p.run then (d.onCp k (fun p => { p with run := false })).secDo k (fun x => x.brQueue 0 2)
  else d

/-- CTRL.SWRST (R368): every forerunner register at its reset value, RUN cleared; a STOPPED section boots afresh. -/
def Dev.cpSwrst (d : Dev) (k : Port) : Dev :=
  let old := (d.cp k).rd 0x0D
  let d1 := (d.cpRun k false).onCp k (fun p => { p with
    regs := [], esd := false, adcOvr := false, spiErr := false, fresh := 0, tripEv := 0, spiEv := 0 })
  let p := d1.cp k
  let d2 := d1.secDo k (fun x => (x.cpTripCfg old (p.rd 0x0D)).cpCommit p romLegs)
  if d2.secSt k = 6 then (d2.secStart k).onCp k (fun p => { p with live := false }) else d2

/-! ### Writes (R357, R358) -/

/-- An accepted write of a register of a live port; t is the instant at which a compare reaches the section. -/
def Dev.cpWrite (d : Dev) (k : Port) (a v t : Nat) : Dev :=
  let old := (d.cp k).rd a
  let put (d : Dev) : Dev := d.onCp k (fun p => p.wr a ((Nat.land v (cpMask a))))
  let all (d : Dev) : Dev := d.secDo k (fun x => x.cpCommit (d.cp k) romLegs)
  if a = 0x01 then (if Nat.testBit v 4 then d.cpSwrst k else (all (put d)).cpRun k (Nat.testBit v 0))
  else if a = 0x03 ∨ a = 0x07 ∨ a = 0x09 ∨ a = 0x0A then all (put d)
  else if 0x04 ≤ a ∧ a ≤ 0x06 then
    let d1 := put d
    d1.secDo k (fun x => x.cpCompare (d1.cp k) ⟨(a - 4) % 4, by omega⟩ t)
  else if a = 0x0B then d.cpFault k v
  else if a = 0x0D then (put d).secDo k (fun x => x.cpTripCfg old (v % 256))
  else if a = 0x73 then
    let n := 16 * (d.cp k).rd 0x72
    d.secDo k (fun x => x.setFcIO ((x.fcIO k).writePend (n / 32) (natW (v * 2 ^ (n % 32)))))
  else if cpMask a ≠ 0 then put d
  else d

/-- A write frame (R356, R357): ignored until the claimed section has reached READY. -/
def compatWriteAt (k : Port) (a v t : Nat) (d : Dev) : Dev :=
  if d.portCompat k.val then
    let d1 := d.onCp k (fun p => p.frame false a 0)
    if (d.cp k).live then d1.cpWrite k a v t else d1
  else d

/-- A write frame whose instant does not matter. -/
def compatWrite (k : Port) (addr : BitVec 7) (data : BitVec 16) (d : Dev) : Dev :=
  compatWriteAt k addr.toNat data.toNat (d.sc k).now d

/-- CTRL as it reads, with RUN replaced. -/
def Dev.cpCtrl (d : Dev) (k : Port) (run : Bool) : BitVec 16 := BitVec.ofNat 16 ((d.cp k).rd 0x01 + b2n run)

/-! ### Synthesised ADC results (R369) -/

/-- A sampling event of leg 0 of a claimed section opens the port's window, unless one is open. -/
def Dev.cpSample (d : Dev) (s : Sec) (peak : Bool) : Dev :=
  d.onCp s (fun p =>
    if p.live && Nat.testBit (p.rd 0x01) 3 && Nat.testBit (p.rd 0x0E) (b2n peak) then { p with win := true } else p)

/-- A carrier event with the port's sampling. -/
def compatSampled (l : Leg) (t : Nat) (peak : Bool) (f : Dev → Dev) (d : Dev) : Dev :=
  let L := (d.sc l.sec).lg l.loc
  let due := L.run && decide (L.next = some (t : Int)) && (L.nextPeak == peak)
  if due && decide (l.loc = 0) && d.portCompat l.sec.val then (f d).cpSample l.sec peak else f d

/-- n / m rounded to the nearest integer, ties to even. -/
def roundEvenDiv (n : Int) (m : Nat) : Int :=
  let q := n / (m : Int)
  let r := n - q * (m : Int)
  if 2 * r < (m : Int) then q else if (m : Int) < 2 * r then q + 1 else if q % 2 = 0 then q else q + 1

/-- ADCn of a window's codes; an EMPTY window gives 0. -/
def SecState.cpAdc (x : SecState) (ofs : Nat) (c : Nat) (codes : List (BitVec 14)) : Int :=
  let ys := codes.map (fun w => (correct (x.cal c) w).1)
  if ys.isEmpty then 0
  else clampI (-2048) 2047 (roundEvenDiv (ys.foldl (· + ·) 0) (4 * ys.length) - sgn 12 ofs)

/-- COMPAT_ADC_RESULT (R369): the open window holds its 32 samples of each channel. -/
def compatAdcResult (k : Port) (smp : Samples) (d : Dev) : Dev :=
  if d.portCompat k.val && (d.cp k).win then
    let x := d.sc k
    let codes (c : Nat) : List (BitVec 14) := ((smp.filter (fun e => decide (e.1.val = c))).flatMap (·.2)).take 32
    d.onCp k (fun p =>
      let p1 := (upTo 8).foldl (fun p c =>
        let r := x.cpAdc (p.rd (0x20 + c)) c (codes c)
        let q := p.wr (0x10 + c) (uns 16 r)
        { q with adcOvr := q.adcOvr || decide (q.rd (0x18 + c) < r.natAbs) }) p
      { p1 with fresh := 0xFF, win := false })
  else d

end Sys2Proof.Machine
end

