-- ==== Sys2Proof/Machine/Balls.lean ====
section
/-! DEFINITION. The balls of the package: where they lie (R408 to R413), and what the device drives on them (R414, R415). -/

namespace Sys2Proof.Machine

/-! ### Where a ball lies (R408 to R413) -/

/-- The signal balls. The switch of GATE and FLT, the leg of SOFT and OC, the channel of AIN and the monitor of WM
carry their device numbers; `n` names the negative ball of a differential input. The others are named by their band's
table. -/
inductive Ball where
  | gate (g : Fin 96)
  | flt (g : Fin 96)
  | soft (l : Fin 16)
  | oc (second n : Bool) (l : Fin 16)
  | ain (c : Fin 48) (n : Bool)
  | wm (m : Fin 32)
  | hpCs (k : Port)
  | hpSck (k : Port)
  | hpIo (k : Port) (i : Fin 4)
  | hpIrq (k : Port)
  | hpRdy (k : Port)
  | hpMode (k : Port)
  | nrst
  | refclk (xo : Bool)
  | i2c (n : Fin 2) (sda : Bool)
  | can (n : Fin 2) (rx : Bool)
  | eth (p : Fin 4) (rx n : Bool)
  | dl (j : Fin 8) (rx n : Bool)
  | safeIn (i : Fin 8)
  | so (n : Fin 4)
  | fbk (n : Fin 4)
  | somon (n : Fin 4)
  | seal (n : Fin 8)
  | pls (n : Fin 8)
  | axg (i : Fin 4)
  | axcs (i : Fin 4)
  | axfb
  | tm (b : Bool) (n : Fin 8)
  | clko (n : Fin 4) (neg : Bool)
  | uartTx (n : Fin 2)
  | uartRx (n : Fin 2)
  | uartDe (n : Fin 2)
  | keepXtal (xo : Bool)
  | harvest (i : Fin 4)
  | vstore
  | vbat
  | ksw
  | wake
  | tamp (n : Fin 2)
  deriving DecidableEq, Repr

/-- The grid position, as row index and column, of local coordinates in a quadrant (R409). -/
def quadrant (q a b : Nat) : Nat × Nat :=
  (if q = 0 ∨ q = 1 then a else 35 - a, if q = 0 ∨ q = 3 then b else 35 - b)

/-- The grid position of index p in band Dq (R412). -/
def bandPlace (q p : Nat) : Nat × Nat := quadrant q (p / 12 + 6) (p % 12 + 6)

/-- The row index and column of a signal ball (R411, R412). -/
def Ball.place : Ball → Nat × Nat
  | .gate g => quadrant (g.val / 24) (g.val % 24 / 6 + 1) (2 * (g.val % 6) + 1)
  | .flt g => quadrant (g.val / 24) (g.val % 24 / 6 + 1) (2 * (g.val % 6) + 2)
  | .soft l => quadrant (l.val / 4) (l.val % 4 + 1) 13
  | .oc second n l => quadrant (l.val / 4) (6 + b2n second + 2 * (l.val % 4)) (3 + b2n n)
  | .ain c n => quadrant (c.val / 12) (6 + c.val % 12) (1 + b2n n)
  | .wm m => quadrant (m.val / 8) (14 + m.val % 4) (3 + m.val % 8 / 4)
  | .hpCs k => bandPlace 0 (8 * k.val)
  | .hpSck k => bandPlace 0 (8 * k.val + 1)
  | .hpIo k i => bandPlace 0 (8 * k.val + 2 + i.val)
  | .hpIrq k => bandPlace 0 (8 * k.val + 6)
  | .hpRdy k => bandPlace 0 (8 * k.val + 7)
  | .hpMode k => bandPlace 0 (32 + k.val)
  | .nrst => bandPlace 0 36
  | .refclk xo => bandPlace 0 (37 + b2n xo)
  | .i2c n sda => bandPlace 0 (39 + 2 * n.val + b2n sda)
  | .can n rx => bandPlace 0 (43 + 2 * n.val + b2n rx)
  | .eth p rx n => bandPlace 1 (4 * p.val + 2 * b2n rx + b2n n)
  | .dl j rx n => bandPlace 1 (16 + 4 * j.val + 2 * b2n rx + b2n n)
  | .safeIn i => bandPlace 2 i.val
  | .so n => bandPlace 2 (8 + n.val)
  | .fbk n => bandPlace 2 (12 + n.val)
  | .somon n => bandPlace 2 (16 + n.val)
  | .seal n => bandPlace 2 (20 + n.val)
  | .pls n => bandPlace 2 (28 + n.val)
  | .axg i => bandPlace 2 (36 + i.val)
  | .axcs i => bandPlace 2 (40 + i.val)
  | .axfb => bandPlace 2 44
  | .tm b n => bandPlace 3 (8 * b2n b + n.val)
  | .clko n neg => bandPlace 3 (16 + 2 * n.val + b2n neg)
  | .uartTx n => bandPlace 3 (24 + 3 * n.val)
  | .uartRx n => bandPlace 3 (25 + 3 * n.val)
  | .uartDe n => bandPlace 3 (26 + 3 * n.val)
  | .keepXtal xo => bandPlace 3 (30 + b2n xo)
  | .harvest i => bandPlace 3 (32 + i.val)
  | .vstore => bandPlace 3 36
  | .vbat => bandPlace 3 37
  | .ksw => bandPlace 3 38
  | .wake => bandPlace 3 39
  | .tamp n => bandPlace 3 (40 + n.val)

/-- The letters of a row (R408). -/
def rowName (r : Nat) : String :=
  (["", "A", "B", "C", "D", "E", "F", "G", "H", "J", "K", "L", "M", "N", "P", "T", "U", "V", "W", "Y", "AA", "AB", "AC", "AD",
    "AE", "AF", "AG", "AH", "AJ", "AK", "AL", "AM", "AN", "AP", "AT"] : List String).getD r ""

/-- The supplies. -/
inductive Supply where
  | vdd | vddsd | vdda18 | vddio18 | vddio33 | vss | agnd
  deriving DecidableEq, Repr

/-- The positions of a band that carry a signal (R412). -/
def bandUsed (q p : Nat) : Bool :=
  decide (p < (if q = 0 then 47 else if q = 1 then 48 else if q = 2 then 45 else 42))

/-- The supply of the ball at local coordinates of quadrant q; none for a signal ball (R410, R412). -/
def supplyAt (q a b : Nat) : Option Supply :=
  if a ≤ 4 then (if b ≤ 13 then none else if b % 2 = 0 then some .vddio33 else some .vss)
  else if a = 5 then some .vss
  else if b ≤ 4 then none
  else if b = 5 then some .agnd
  else if a ≤ 9 then (if bandUsed q (12 * (a - 6) + (b - 6)) then none else some .vss)
  else if b = 6 then some .vdda18
  else if a = 10 then (if b % 2 = 1 then some .vddio18 else some .vss)
  else if a = 11 then (if b % 2 = 1 then some .vddio33 else some .vss)
  else if b = 7 then some .vddsd
  else if (a + b) % 2 = 0 then some .vdd else some .vss

/-! ### What the device drives (R414, R415) -/

/-- What an output does: high impedance, a level, or a signal that toggles. -/
inductive Drive where
  | off | low | high | signal
  deriving DecidableEq, Repr

/-- A level. -/
def Drive.of (b : Bool) : Drive := if b then .high else .low

/-- After a power failure VDDIO33 lies below its range until the reset that follows is released: the gate, SOFT, AXG
and SO balls are low (R415, R419). -/
def Dev.io33Low (d : Dev) : Bool := d.held || d.keep.hold

/-- A test ball's select names a clock or the GATE_EN toggle, and it runs. The eleven values of PARAM are the divided
clocks in the order of the table. -/
def Dev.testClock (d : Dev) (lcs a : Nat) : Bool :=
  let w := d.rd a
  let p := fget Fld.TMA_SEL_PARAM w
  fbit Fld.TMA_SEL_EN w && d.tmOk lcs &&
    (if fget Fld.TMA_SEL_SIG w = 0x60 then d.flag Reg.SAFE_OUT Fld.SAFE_OUT_GATE_EN
     else decide (fget Fld.TMA_SEL_SIG w = 0x01) && decide (p ≤ 10) &&
      (if p = 0 then d.locked 0
       else if h : p - 1 < 4 then d.secClock ⟨p - 1, h⟩
       else if p = 5 then d.adcClock
       else if p = 6 then d.metClock
       else if p = 7 then d.netClock
       else if p = 8 then d.timeClock
       else true))

/-- What the device drives on a ball between two commands; inputs are high impedance, and so is an output that the table
leaves undriven. A port that is enabled drives its idle level, or a signal on a differential pair. -/
def Dev.drives (d : Dev) (lcs : Nat) : Ball → Drive
  | .gate g =>
    let (s, l, n) := gateOf g.val
    .of (!d.io33Low && ((d.sc s).lg l).ball.getLsbD n)
  | .soft l => .of (!d.io33Low && (d.sc (legSec l.val).1).soft (legSec l.val).2)
  | .hpIrq k => .of (d.held || !d.hpBall k)
  | .hpRdy k => if !d.held && d.portCompat k.val then .off else .low
  | .can _ rx => if rx then .off else .high
  | .uartTx n => if n = 1 ∧ d.keep.running.any (fun b => decide (b.kind = 5)) = true then .signal else .high
  | .uartDe n => .of (decide (n = 1) && d.keep.running.any (fun b => decide (b.kind = 5)))
  | .eth p rx _ => if rx || d.held || !d.flag (Reg.ETH_CFG p.val) Fld.ETH_CFG_EN then .off else .signal
  | .dl j rx _ => if rx || d.held || !d.flag (Reg.DL_CFG j.val) Fld.DL_CFG_EN then .off else .signal
  | .so n => .of (!d.io33Low && Nat.testBit (d.fld Reg.SAFE_OUT Fld.SAFE_OUT_SO) n.val)
  | .pls n => .of (!d.held && d.pulseBall n.val)
  | .axg i => .of (!d.io33Low && d.aux.on.getLsbD i.val)
  | .tm b n =>
    let a := if b then Reg.TMB_SEL n.val else Reg.TMA_SEL n.val
    if !d.held && d.testClock lcs a then .signal else .of (!d.held && d.testBall lcs a)
  | .clko n neg =>
    if d.held || (d.clkoDrive n.val).isNone || (neg && decide (4 ≤ d.fld (Reg.CLKO_CFG n.val) Fld.CLKO_CFG_FORMAT)) then .low
    else .signal
  | .ksw => if d.keep.running.any (fun b => decide (b.kind = 5)) then .high else .off
  | .wake => .of (d.flag Reg.KEEP_STAT Fld.KEEP_STAT_WAKE)
  | .refclk xo => if xo && !d.held then .signal else .off
  | .keepXtal xo => if xo then .signal else .off
  | .flt _ | .oc _ _ _ | .ain _ _ | .wm _ | .hpCs _ | .hpSck _ | .hpIo _ _ | .hpMode _ | .nrst | .i2c _ _ | .safeIn _ | .fbk _
  | .somon _ | .seal _ | .axcs _ | .axfb | .uartRx _ | .harvest _ | .vstore | .vbat | .tamp _ => .off

end Sys2Proof.Machine
end

