-- ==== Sys2Proof/Machine/CmdBoot.lean ====
section
/-! DEFINITION. Reset, boot, the commands to sections, tokens, reports and couching (R23 to R28, R54 to R58, R269, R338 to R354, R396). -/

namespace Sys2Proof.Machine

/-- DEVICE_RESET (R396). -/
def execDeviceReset (cause : ResetCause) (st : State) : Out := runKeep st (deviceReset cause)

/-- DEVICE_RESET_RELEASE (R396, R398). -/
def execDeviceResetRelease (straps : BitVec 4) (st : State) : Out := runKeep st (deviceResetRelease straps)

/-- BASE_BOOT_COMPLETE (R54, R56, R57, R338). -/
def execBaseBootComplete (r : BaseBoot) (st : State) : Out := runNv st (baseBootComplete r)

/-- INTERNAL_RESTART (R25, R269). -/
def execInternalRestart (st : State) : Out := runNv st (internalRestart)

/-- SEC_CMD_START (R23): SEC_CMD written with its key and START of the section. -/
def execSecCmdStart (s : Sec) (st : State) : Out := runNv st (hostWrite Reg.SEC_CMD (natW (0xA5C30000 + 2 ^ s.val)))

/-- SEC_CMD_ENABLE (R23). -/
def execSecCmdEnable (s : Sec) (st : State) : Out :=
  runNv st (hostWrite Reg.SEC_CMD (natW (0xA5C30000 + 2 ^ (4 + s.val))))

/-- SEC_CMD_STOP (R23). -/
def execSecCmdStop (s : Sec) (st : State) : Out :=
  runNv st (hostWrite Reg.SEC_CMD (natW (0xA5C30000 + 2 ^ (8 + s.val))))

/-- SECTION_BOOT_START (R55, R57, R58). -/
def execSectionBootStart (s : Sec) (st : State) : Out := runNv st (sectionBootStart s)

/-- SECTION_BOOT_COMPLETE (R58, R117). -/
def execSectionBootComplete (s : Sec) (st : State) : Out := runNv st (sectionBootComplete s)

/-- TOKEN (R341): BOOT_CMD written with its key and TOKEN. -/
def execToken (st : State) : Out := runNv st (hostWrite Reg.BOOT_CMD 0xA35C0002)

/-- TOKEN_DONE (R341, R342). -/
def execTokenDone (wrote : Bool) (st : State) : Out := runNv st (tokenDone wrote)

/-- REPORT (R345). -/
def execReport (st : State) : Out := runNv st (hostWrite Reg.BOOT_CMD 0xA35C0004)

/-- REPORT_DONE (R345). -/
def execReportDone (ecdsa : List Byte) (hss : List Byte) (st : State) : Out := run st (reportDone ecdsa hss)

/-- REPORT_WAIT_END (R345). -/
def execReportWaitEnd (st : State) : Out := runNv st (reportWaitEnd)

/-- FIELD (R342). -/
def execField (st : State) : Out := runNv st (hostWrite Reg.BOOT_CMD 0xA35C0001)

/-- COUCH_ARM (R346). -/
def execCouchArm (s : Sec) (st : State) : Out := runNv st (hostWrite (Reg.COUCH_CMD s.val) 0x5CA30001)

/-- COUCH_CANCEL (R353). -/
def execCouchCancel (s : Sec) (st : State) : Out := runNv st (hostWrite (Reg.COUCH_CMD s.val) 0x5CA30002)

/-- COUCH_NOW (R346). -/
def execCouchNow (s : Sec) (st : State) : Out := runNv st (hostWrite (Reg.COUCH_CMD s.val) 0x5CA30004)

/-- COUCH_ACTIVATE (R346, R347). -/
def execCouchActivate (s : Sec) (st : State) : Out := runNv st (couchActivate s)

/-- COUCH_B_LOAD (R348). -/
def execCouchBLoad (s : Sec) (st : State) : Out := runNv st (couchBLoad s)

/-- DIRECTORY_SWITCH (R351). -/
def execDirectorySwitch (s : Sec) (st : State) : Out := runNv st (directorySwitch s)

/-- COUCH_A_RELOAD (R352, R353). -/
def execCouchAReload (s : Sec) (ok : Bool) (st : State) : Out := run st (couchAReload s ok)

end Sys2Proof.Machine
end

