-- ==== Sys2Proof/Machine/CmdBridge.lean ====
section
/-! DEFINITION. The timed events of the bridge sequencers, of the grid assist block and of islanding detection (R200 to R235). -/

namespace Sys2Proof.Machine

/-- OBSERVER_HOLD_TIMEOUT (R200). -/
def execObserverHoldTimeout (s : Sec) (st : State) : Out := run st (fun d => d.secIf s (fun x => x.holdTimeout))

/-- PRE_TIMEOUT (R205). -/
def execPreTimeout (s : Sec) (b : Bridge) (st : State) : Out := run st (fun d => d.secIf s (fun x => x.preTimeout b))

/-- CONN_TIMEOUT (R205). -/
def execConnTimeout (s : Sec) (b : Bridge) (st : State) : Out :=
  run st (fun d => d.secIf s (fun x => x.connTimeout b))

/-- STOP_TIMEOUT (R205). -/
def execStopTimeout (s : Sec) (b : Bridge) (st : State) : Out :=
  run st (fun d => d.secIf s (fun x => x.stopTimeout b))

/-- SYNC_QUALIFIED (R205). -/
def execSyncQualified (s : Sec) (b : Bridge) (st : State) : Out :=
  run st (fun d => d.secIf s (fun x => x.syncQualified b d.soConfirmed))

/-- RIDE_HOLD_EXPIRY (R205). -/
def execRideHoldExpiry (s : Sec) (b : Bridge) (st : State) : Out :=
  run st (fun d => d.secIf s (fun x => x.rideHold b))

/-- RIDE_LIMIT (R214). -/
def execRideLimit (s : Sec) (b : Bridge) (st : State) : Out := run st (fun d => d.secIf s (fun x => x.rideLimit b))

/-- MPPT_INTERVAL (R211). -/
def execMpptInterval (s : Sec) (b : Bridge) (st : State) : Out :=
  run st (fun d => (d.secIf s (fun x => x.mpptInterval b d.freeCount)).tickFree)

/-- THERM_LOST (R216). -/
def execThermLost (s : Sec) (b : Bridge) (st : State) : Out := run st (fun d => d.secIf s (fun x => x.thermLost b))

/-- PASSIVE_TRIP (R224). -/
def execPassiveTrip (s : Sec) (n : Fin 6) (st : State) : Out :=
  run st (fun d => d.secIf s (fun x => x.passiveTrip n.val))

/-- CHIP_CLOSE (R228 to R234). -/
def execChipClose (st : State) : Out := run st chipClose

end Sys2Proof.Machine
end

