-- ==== Sys2Proof/Machine/CmdBus.lean ====
section
/-! DEFINITION. Register access and the native frames (R8, R22, R309, R310): every row that is a write or a read of one register. -/

namespace Sys2Proof.Machine

/-- REGISTER_WRITE (R8, R22): a software write of the word at an address. -/
def execRegisterWrite (addr : W) (val : W) (st : State) : Out := runNv st (hostWrite addr.toNat val)

/-- RWP_CLOSE (R53). -/
def execRwpClose (val : W) (st : State) : Out := runNv st (hostWrite Reg.RWP_CLOSE val)

/-- PARAM_COMMIT (R155). -/
def execParamCommit (s : Sec) (st : State) : Out := runNv st (hostWrite (secBase s + Reg.PARAM_COMMIT) 1)

/-- ENG_OUT_SEQ_READ (R157). -/
def execEngOutSeqRead (k : Port) (s : Sec) (st : State) : Out := runNv st (hostReadAt k (secBase s + Reg.ENG_OUT_SEQ))

/-- PLL_FREQ_WRITE (R66). -/
def execPllFreqWrite (p : Fin 7) (val : W) (st : State) : Out := runNv st (hostWrite (Reg.PLL_FREQ p.val) val)

/-- PLL_SS_WRITE (R67). -/
def execPllSsWrite (p : Fin 7) (val : W) (st : State) : Out := runNv st (hostWrite (Reg.PLL_SS p.val) val)

/-- PLL_PHASE_WRITE (R68). -/
def execPllPhaseWrite (p : Fin 7) (val : W) (st : State) : Out := runNv st (hostWrite (Reg.PLL_PHASE p.val) val)

/-- ACC_CFG_WRITE (R86). -/
def execAccCfgWrite (s : Sec) (k : Fin 48) (val : W) (st : State) : Out :=
  runNv st (hostWrite (secBase s + Reg.ACC_CFG k.val) val)

/-- ACC_ARM (R86): ACC_ARM0, or ACC_ARM1 with hi. -/
def execAccArm (s : Sec) (hi : Bool) (val : W) (st : State) : Out :=
  runNv st (hostWrite (secBase s + if hi then Reg.ACC_ARM1 else Reg.ACC_ARM0) val)

/-- ACC_STAT_READ (R92). -/
def execAccStatRead (p : Port) (s : Sec) (k : Fin 48) (st : State) : Out :=
  runNv st (hostReadAt p (secBase s + Reg.ACC_STAT k.val))

/-- PWM_COMMIT (R105, R106). -/
def execPwmCommit (s : Sec) (val : W) (st : State) : Out := runNv st (hostWrite (secBase s + Reg.PWM_COMMIT) val)

/-- FORCE_SET (R111). -/
def execForceSet (l : Leg) (st : State) : Out := runNv st (hostWrite (secBase l.sec + Reg.FORCE_CMD l.loc.val) 2)

/-- FORCE_CLR (R112). -/
def execForceClr (l : Leg) (st : State) : Out := runNv st (hostWrite (secBase l.sec + Reg.FORCE_CMD l.loc.val) 1)

/-- ALIGN_ENABLE (R113): a write of ALIGN_CFG. -/
def execAlignEnable (s : Sec) (val : W) (st : State) : Out := runNv st (hostWrite (secBase s + Reg.ALIGN_CFG) val)

/-- PROT_CLR (R139): PROT_CMD.CLR, with the driver returns that are asserted at that instant. -/
def execProtClr (l : Leg) (flt : BitVec 6) (st : State) : Out :=
  runNv st (fun nv d => hostWrite (secBase l.sec + Reg.PROT_CMD l.loc.val) 1 nv (d.seeFlt l flt))

/-- SELFTEST_START (R142). -/
def execSelftestStart (l : Leg) (st : State) : Out := runNv st (hostWrite (secBase l.sec + Reg.SELFTEST l.loc.val) 1)

/-- BR_CMD_START (R206). -/
def execBrCmdStart (s : Sec) (b : Bridge) (st : State) : Out :=
  runNv st (hostWrite (secBase s + Reg.BR_CMD b.val) 0x9C3A0001)

/-- BR_CMD_STOP (R206). -/
def execBrCmdStop (s : Sec) (b : Bridge) (st : State) : Out :=
  runNv st (hostWrite (secBase s + Reg.BR_CMD b.val) 0x9C3A0002)

/-- BR_CMD_RESET (R206). -/
def execBrCmdReset (s : Sec) (b : Bridge) (st : State) : Out :=
  runNv st (hostWrite (secBase s + Reg.BR_CMD b.val) 0x9C3A0004)

/-- BR_CMD_LOCK (R206). -/
def execBrCmdLock (s : Sec) (b : Bridge) (st : State) : Out :=
  runNv st (hostWrite (secBase s + Reg.BR_CMD b.val) 0x9C3A0008)

/-- ISL_T0_WRITE (R229), through the window of section s. -/
def execIslT0Write (s : Sec) (val : W) (st : State) : Out := runNv st (hostWrite (secBase s + Reg.ISL_T0) val)

/-- MP_TSEL_WRITE (R242). -/
def execMpTselWrite (k : Port) (p : Fin 8) (val : W) (st : State) : Out :=
  runNv st (hostWriteAt k (Reg.MP_TSEL p.val) val)

/-- MP_WSEQ_READ (R249). -/
def execMpWseqRead (k : Port) (p : Fin 8) (st : State) : Out := runNv st (hostReadAt k (Reg.MP_WSEQ p.val))

/-- HARM_SEL_WRITE (R252). -/
def execHarmSelWrite (k : Port) (val : W) (st : State) : Out := runNv st (hostWriteAt k Reg.HARM_SEL val)

/-- CLR_TOTALS (R246): a write of MET_CMD. -/
def execClrTotals (val : W) (st : State) : Out := runNv st (hostWrite Reg.MET_CMD val)

/-- MET_CMD_SAVE (R246): a write of MET_CMD. -/
def execMetCmdSave (val : W) (st : State) : Out := runNv st (hostWrite Reg.MET_CMD val)

/-- FC_LOG_POP (R271): a section's collector, or the device's. -/
def execFcLogPop (c : Option Sec) (st : State) : Out :=
  runNv st (hostWrite (match c with | some s => secBase s + Reg.FC_LOG_CMD | none => Reg.DFC_LOG_CMD) 1)

/-- TIME_INCR_WRITE (R294). -/
def execTimeIncrWrite (val : W) (st : State) : Out := runNv st (hostWrite Reg.TIME_INCR val)

/-- TIME_STEP (R299): TIME_CMD with STEP. -/
def execTimeStep (force : Bool) (st : State) : Out :=
  runNv st (hostWrite Reg.TIME_CMD (natW (0xC35A0001 + 4 * b2n force)))

/-- TIME_SLEW (R298): TIME_CMD with SLEW. -/
def execTimeSlew (st : State) : Out := runNv st (hostWrite Reg.TIME_CMD 0xC35A0002)

/-- TIME_NS_READ (R297). -/
def execTimeNsRead (k : Port) (st : State) : Out := runNv st (hostReadAt k Reg.TIME_NS)

/-- TIME_RAW_LO_READ (R294). -/
def execTimeRawLoRead (k : Port) (st : State) : Out := runNv st (hostReadAt k Reg.TIME_RAW_LO)

/-- HP_WRITE (R309 to R311): a frame with data words. -/
def execHpWrite (k : Port) (cmd : BitVec 48) (words : List W) (crc : BitVec 16) (others : List (Nat × Access)) (st : State) :
    Out :=
  runNv st (nativeFrame k cmd words crc others)

/-- HP_READ (R309 to R311). -/
def execHpRead (k : Port) (cmd : BitVec 48) (crc : BitVec 16) (others : List (Nat × Access)) (st : State) : Out :=
  runNv st (nativeFrame k cmd [] crc others)

/-- HP_STAT (R309). -/
def execHpStat (k : Port) (cmd : BitVec 48) (crc : BitVec 16) (st : State) : Out := runNv st (nativeFrame k cmd [] crc [])

/-- FRAME_ABORT (R310). -/
def execFrameAbort (k : Port) (st : State) : Out := run st (frameAbort k)

/-- Q_PTR_WRITE (R315). -/
def execQPtrWrite (q : Fin 64) (val : W) (st : State) : Out := runNv st (hostWrite (Reg.Q_PTR q.val) val)

/-- CAN_CMD_RECOVER (R321). -/
def execCanCmdRecover (n : Fin 2) (st : State) : Out := runNv st (hostWrite (Reg.CAN_CMD n.val) 1)

/-- I2C_GO (R323): a write of I2C_CMD. -/
def execI2cGo (n : Fin 2) (val : W) (st : State) : Out := runNv st (hostWrite (Reg.I2C_CMD n.val) val)

/-- DL_CMD_GO (R326). -/
def execDlCmdGo (j : Fin 8) (st : State) : Out := runNv st (hostWrite (Reg.DL_CMD j.val) 1)

/-- AUX_RUN_SET (R376). -/
def execAuxRunSet (st : State) : Out := runNv st (hostWrite Reg.AUX_CTRL 1)

/-- AUX_RUN_CLEAR (R376). -/
def execAuxRunClear (st : State) : Out := runNv st (hostWrite Reg.AUX_CTRL 0)

/-- AUX_CLR (R377): a write of AUX_CMD. -/
def execAuxClr (val : W) (st : State) : Out := runNv st (hostWrite Reg.AUX_CMD val)

/-- RTC_SEC_WRITE (R394). -/
def execRtcSecWrite (val : W) (st : State) : Out := runNv st (hostWrite Reg.RTC_SEC val)

/-- INJ_FIRE (R402): a write of INJ_CMD. -/
def execInjFire (val : W) (st : State) : Out := runNv st (hostWrite Reg.INJ_CMD val)

/-- INJ_STOP (R402): a write of INJ_CMD. -/
def execInjStop (val : W) (st : State) : Out := runNv st (hostWrite Reg.INJ_CMD val)

/-- INJ_END (R402). -/
def execInjEnd (st : State) : Out := run st (injEnd)

end Sys2Proof.Machine
end

