-- ==== Sys2Proof/Machine/CmdClock.lean ====
section
/-! DEFINITION. The events of the clock generators and the reference (R63 to R71). -/

namespace Sys2Proof.Machine

/-- PLL_LOCK (R65). -/
def execPllLock (p : Fin 7) (st : State) : Out := run st (pllLockDev p)

/-- FREQ_STEP_SETTLED (R66). -/
def execFreqStepSettled (p : Fin 7) (st : State) : Out := run st (freqStepSettled p)

/-- SPREAD_CHANGE_APPLY (R67). -/
def execSpreadChangeApply (p : Fin 7) (st : State) : Out := run st (spreadChangeApply p)

/-- PHASE_STEP_APPLY (R68). -/
def execPhaseStepApply (p : Fin 7) (st : State) : Out := run st (phaseStepApply p)

/-- REFCLK_LOST (R70). -/
def execRefclkLost (st : State) : Out := run st refclkLost

/-- HOLDOVER_EXPIRY (R70). -/
def execHoldoverExpiry (rcPpm : Int) (st : State) : Out := run st (holdoverExpiry rcPpm)

/-- REFCLK_ACCEPTED (R70). -/
def execRefclkAccepted (drift : Int) (st : State) : Out := run st (refclkAccepted drift)

/-- RETURN_STEP (R70). -/
def execReturnStep (p : Fin 7) (st : State) : Out := run st (returnStep p)

/-- REF_CMD_RETURN (R70): a write of REF_CMD, with the drift of the reference against the BOOT RC. -/
def execRefCmdReturn (val : W) (drift : Int) (st : State) : Out := run st (refCmdReturn val drift)

/-- SEC_PLL_UNLOCK (R71). -/
def execSecPllUnlock (s : Sec) (st : State) : Out := run st (secPllUnlock s)

/-- ADC_CLOCK_LOST (R71). -/
def execAdcClockLost (unlock : Bool) (st : State) : Out := run st (adcClockLost unlock)

/-- NET_CLOCK_LOST (R71, R301). -/
def execNetClockLost (unlock : Bool) (st : State) : Out := run st (netClockLost unlock)

end Sys2Proof.Machine
end

