-- ==== Sys2Proof/Machine/CmdCompat.lean ====
section
/-! DEFINITION. The frames of the forerunner and its synthesised ADC results (R356 to R369). -/

namespace Sys2Proof.Machine

/-- COMPAT_READ (R356). -/
def execCompatRead (k : Port) (addr : BitVec 7) (st : State) : Out := run st (compatRead k addr)

/-- COMPAT_WRITE (R357). -/
def execCompatWrite (k : Port) (addr : BitVec 7) (data : BitVec 16) (st : State) : Out :=
  run st (compatWrite k addr data)

/-- COMPAT_FRAME_ERROR (R357). -/
def execCompatFrameError (k : Port) (st : State) : Out := run st (compatFrameError k)

/-- COMPAT_TIMING_WRITE (R360 to R362): a write of PRD, DT, OVR, OUTEN or CTRL.RLD. -/
def execCompatTimingWrite (k : Port) (addr : BitVec 7) (data : BitVec 16) (st : State) : Out :=
  run st (compatWrite k addr data)

/-- COMPAT_CMP_WRITE (R361, R363): a write of CMPx that reaches the section at t. -/
def execCompatCmpWrite (k : Port) (x : Fin 3) (data : BitVec 16) (t : Nat) (st : State) : Out :=
  run st (compatWriteAt k (4 + x.val) data.toNat t)

/-- COMPAT_RUN_START (R365): CTRL written with RUN 1. -/
def execCompatRunStart (k : Port) (st : State) : Out := run st (fun d => compatWrite k 1 (d.cpCtrl k true) d)

/-- COMPAT_RUN_STOP (R365): CTRL written with RUN 0. -/
def execCompatRunStop (k : Port) (st : State) : Out := run st (fun d => compatWrite k 1 (d.cpCtrl k false) d)

/-- COMPAT_SWRST (R368): CTRL written with SWRST. -/
def execCompatSwrst (k : Port) (st : State) : Out := run st (compatWrite k 1 0x10)

/-- COMPAT_TRIPCFG_WRITE (R366). -/
def execCompatTripcfgWrite (k : Port) (data : BitVec 16) (st : State) : Out := run st (compatWrite k 0x0D data)

/-- COMPAT_FAULT_CLEAR (R367): a write of FAULT. -/
def execCompatFaultClear (k : Port) (data : BitVec 16) (st : State) : Out := run st (compatWrite k 0x0B data)

/-- COMPAT_ADC_RESULT (R369). -/
def execCompatAdcResult (k : Port) (smp : Samples) (st : State) : Out := run st (compatAdcResult k smp)

end Sys2Proof.Machine
end

