-- ==== Sys2Proof/Machine/CmdEngine.lean ====
section
/-! DEFINITION. The ticks of the sections and the instructions of the Ghefin engines (R12 to R18, R150 to R192). -/

namespace Sys2Proof.Machine

/-- TICK_TRIGGER (R12, R13). -/
def execTickTrigger (s : Sec) (clk : Nat) (st : State) : Out := runNv st (fun _ d => tickTrigger s clk d)

/-- WINDOW_RESULT_ARRIVAL (R14, R89). -/
def execWindowResultArrival (s : Sec) (clk : Nat) (st : State) : Out := run st (windowResultArrival s clk)

/-- ASSIST_UPDATE_COMPLETE (R195). -/
def execAssistUpdateComplete (s : Sec) (clk : Nat) (st : State) : Out := run st (assistUpdateComplete s clk)

/-- TICK_DEADLINE_EXPIRY (R16). -/
def execTickDeadlineExpiry (s : Sec) (st : State) : Out := runNv st (fun _ d => tickDeadlineExpiry s d)

/-- RECOMPUTE_START (R16). -/
def execRecomputeStart (s : Sec) (st : State) : Out := run st (fun d => d.onSec s (·.recomputeStart))

/-- WAIT_COMPLETE (R191). -/
def execWaitComplete (s : Sec) (e : EngSel) (st : State) : Out := run st (fun d => d.onSec s (·.waitComplete e))

/-- RING_DELIVERY (R318). -/
def execRingDelivery (s : Sec) (r : Fin 2) (st : State) : Out := run st (ringDelivery s r)

/-- SCRUB_READ (R162, R163). -/
def execScrubRead (s : Sec) (b : Bool) (mem : Fin 4) (addr : Fin 4096) (ecc : EccResult) (partnerOk : Bool) (st : State) : Out :=
  runNv st (fun _ d => if b then d.injRead s.val mem.val addr.val ecc (fun e => scrubRead s b mem addr e partnerOk) else scrubRead s b mem addr ecc partnerOk d)

/-- NOP (0x01, R176 to R191). -/
def execNop (s : Sec) (e : EngSel) (args : BitVec 26) (st : State) : Out :=
  runNv st (fun _ d => d.injWatch s (d.engOp s e 0x01 args opNop))

/-- BR (0x02, R176 to R191). -/
def execBr (s : Sec) (e : EngSel) (args : BitVec 26) (st : State) : Out :=
  runNv st (fun _ d => d.injWatch s (d.engOp s e 0x02 args opBr true))

/-- CALL (0x03, R176 to R191). -/
def execCall (s : Sec) (e : EngSel) (args : BitVec 26) (st : State) : Out :=
  runNv st (fun _ d => d.injWatch s (d.engOp s e 0x03 args opCall true))

/-- RET (0x04, R176 to R191). -/
def execRet (s : Sec) (e : EngSel) (args : BitVec 26) (st : State) : Out :=
  runNv st (fun _ d => d.injWatch s (d.engOp s e 0x04 args opRet true))

/-- WAIT (0x05, R176 to R191). -/
def execWait (s : Sec) (e : EngSel) (args : BitVec 26) (st : State) : Out :=
  runNv st (fun _ d => d.injWatch s (d.engOp s e 0x05 args opWait true))

/-- MOV (0x08, R176 to R191). -/
def execMov (s : Sec) (e : EngSel) (args : BitVec 26) (st : State) : Out :=
  runNv st (fun _ d => d.injWatch s (d.engOp s e 0x08 args opMov))

/-- LDK (0x09, R176 to R191). -/
def execLdk (s : Sec) (e : EngSel) (args : BitVec 26) (st : State) : Out :=
  runNv st (fun _ d => d.injWatch s (d.engOp s e 0x09 args opLdk))

/-- LDI (0x0A, R176 to R191). -/
def execLdi (s : Sec) (e : EngSel) (args : BitVec 26) (st : State) : Out :=
  runNv st (fun _ d => d.injWatch s (d.engOp s e 0x0A args opLdi))

/-- CVT (0x0B, R176 to R191). -/
def execCvt (s : Sec) (e : EngSel) (args : BitVec 26) (st : State) : Out :=
  runNv st (fun _ d => d.injWatch s (d.engOp s e 0x0B args opCvt))

/-- VADD (0x10, R176 to R191). -/
def execVadd (s : Sec) (e : EngSel) (args : BitVec 26) (st : State) : Out :=
  runNv st (fun _ d => d.injWatch s (d.engOp s e 0x10 args opVadd))

/-- VSUB (0x11, R176 to R191). -/
def execVsub (s : Sec) (e : EngSel) (args : BitVec 26) (st : State) : Out :=
  runNv st (fun _ d => d.injWatch s (d.engOp s e 0x11 args opVsub))

/-- VMUL (0x12, R176 to R191). -/
def execVmul (s : Sec) (e : EngSel) (args : BitVec 26) (st : State) : Out :=
  runNv st (fun _ d => d.injWatch s (d.engOp s e 0x12 args opVmul))

/-- VMAC (0x13, R176 to R191). -/
def execVmac (s : Sec) (e : EngSel) (args : BitVec 26) (st : State) : Out :=
  runNv st (fun _ d => d.injWatch s (d.engOp s e 0x13 args opVmac))

/-- VNEG (0x14, R176 to R191). -/
def execVneg (s : Sec) (e : EngSel) (args : BitVec 26) (st : State) : Out :=
  runNv st (fun _ d => d.injWatch s (d.engOp s e 0x14 args opVneg))

/-- VABS (0x15, R176 to R191). -/
def execVabs (s : Sec) (e : EngSel) (args : BitVec 26) (st : State) : Out :=
  runNv st (fun _ d => d.injWatch s (d.engOp s e 0x15 args opVabs))

/-- KMUL (0x16, R176 to R191). -/
def execKmul (s : Sec) (e : EngSel) (args : BitVec 26) (st : State) : Out :=
  runNv st (fun _ d => d.injWatch s (d.engOp s e 0x16 args opKmul))

/-- KADD (0x17, R176 to R191). -/
def execKadd (s : Sec) (e : EngSel) (args : BitVec 26) (st : State) : Out :=
  runNv st (fun _ d => d.injWatch s (d.engOp s e 0x17 args opKadd))

/-- CMP (0x18, R176 to R191). -/
def execCmp (s : Sec) (e : EngSel) (args : BitVec 26) (st : State) : Out :=
  runNv st (fun _ d => d.injWatch s (d.engOp s e 0x18 args opCmp))

/-- LIM (0x19, R176 to R191). -/
def execLim (s : Sec) (e : EngSel) (args : BitVec 26) (st : State) : Out :=
  runNv st (fun _ d => d.injWatch s (d.engOp s e 0x19 args opLim))

/-- VLIM (0x1A, R176 to R191). -/
def execVlim (s : Sec) (e : EngSel) (args : BitVec 26) (st : State) : Out :=
  runNv st (fun _ d => d.injWatch s (d.engOp s e 0x1A args opVlim))

/-- VLIM2 (0x1B, R176 to R191). -/
def execVlim2 (s : Sec) (e : EngSel) (args : BitVec 26) (st : State) : Out :=
  runNv st (fun _ d => d.injWatch s (d.engOp s e 0x1B args opVlim2))

/-- ROT (0x1C, R176 to R191). -/
def execRot (s : Sec) (e : EngSel) (args : BitVec 26) (st : State) : Out :=
  runNv st (fun _ d => d.injWatch s (d.engOp s e 0x1C args opRot))

/-- MVM (0x20, R176 to R191). -/
def execMvm (s : Sec) (e : EngSel) (args : BitVec 26) (st : State) : Out :=
  runNv st (fun _ d => d.injWatch s (d.engOp s e 0x20 args opMvm))

/-- LUT (0x21, R176 to R191). -/
def execLut (s : Sec) (e : EngSel) (args : BitVec 26) (st : State) : Out :=
  runNv st (fun _ d => d.injWatch s (d.engOp s e 0x21 args opLut))

/-- LSEL (0x22, R176 to R191). -/
def execLsel (s : Sec) (e : EngSel) (args : BitVec 26) (st : State) : Out :=
  runNv st (fun _ d => d.injWatch s (d.engOp s e 0x22 args opLsel))

/-- PSTEP (0x24, R176 to R191). -/
def execPstep (s : Sec) (e : EngSel) (args : BitVec 26) (st : State) : Out :=
  runNv st (fun _ d => d.injWatch s (d.engOp s e 0x24 args opPstep))

/-- PTGT (0x25, R176 to R191). -/
def execPtgt (s : Sec) (e : EngSel) (args : BitVec 26) (st : State) : Out :=
  runNv st (fun _ d => d.injWatch s (d.engOp s e 0x25 args opPtgt))

/-- PSET (0x26, R176 to R191). -/
def execPset (s : Sec) (e : EngSel) (args : BitVec 26) (st : State) : Out :=
  runNv st (fun _ d => d.injWatch s (d.engOp s e 0x26 args opPset))

/-- PY (0x27, R176 to R191). -/
def execPy (s : Sec) (e : EngSel) (args : BitVec 26) (st : State) : Out :=
  runNv st (fun _ d => d.injWatch s (d.engOp s e 0x27 args opPy))

/-- DUTY (0x2C, R176 to R191). -/
def execDuty (s : Sec) (e : EngSel) (args : BitVec 26) (st : State) : Out :=
  runNv st (fun _ d => d.injWatch s (d.engOp s e 0x2C args opDuty))

/-- DSET (0x2D, R176 to R191). -/
def execDset (s : Sec) (e : EngSel) (args : BitVec 26) (st : State) : Out :=
  runNv st (fun _ d => d.injWatch s (d.engOp s e 0x2D args opDset))

/-- OUT (0x2E, R176 to R191). -/
def execOut (s : Sec) (e : EngSel) (args : BitVec 26) (st : State) : Out :=
  runNv st (fun _ d => d.injWatch s (d.engOp s e 0x2E args opOut))

/-- REQ (0x2F, R176 to R191). -/
def execReq (s : Sec) (e : EngSel) (args : BitVec 26) (st : State) : Out :=
  runNv st (fun _ d => d.injWatch s (d.engOp s e 0x2F args opReq))

/-- SEND (0x30, R176 to R191). -/
def execSend (s : Sec) (e : EngSel) (args : BitVec 26) (st : State) : Out :=
  runNv st (fun _ d => d.injWatch s (d.engOp s e 0x30 args opSend))

/-- NEXT (0x06, R152). -/
def execNext (s : Sec) (e : EngSel) (args : BitVec 26) (st : State) : Out :=
  runNv st (fun _ d => d.injWatch s (d.engOp s e 0x06 args (d.sc s).opNext true))

/-- COMMIT (0x07, R15, R16). -/
def execCommit (s : Sec) (e : EngSel) (args : BitVec 26) (agree : Bool) (st : State) : Out :=
  runNv st (fun _ d => d.injWatch s (d.commitOp s e args agree))

/-- RDW (0x28, R185). -/
def execRdw (s : Sec) (e : EngSel) (args : BitVec 26) (st : State) : Out :=
  runNv st (fun _ d => d.injWatch s (d.engWindow s e 0x28 args (bitsN args.toNat 4 0) opRdw))

/-- WAVG (0x29, R185). -/
def execWavg (s : Sec) (e : EngSel) (args : BitVec 26) (st : State) : Out :=
  runNv st (fun _ d => d.injWatch s (d.engWindow s e 0x29 args (bitsN args.toNat 16 12) opWavg))

/-- RDI (0x2A, R186). -/
def execRdi (s : Sec) (e : EngSel) (args : BitVec 26) (st : State) : Out :=
  runNv st (fun _ d => d.injWatch s (d.rdi s e args))

/-- COUCH_TAKEOVER (R351). -/
def execCouchTakeover (s : Sec) (st : State) : Out := runNv st (fun _ d => couchTakeover s d)

end Sys2Proof.Machine
end

