-- ==== Sys2Proof/Machine/CmdFault.lean ====
section
/-! DEFINITION. The events of the fault collectors and the clock failures that act directly (R71, R260 to R277). -/

namespace Sys2Proof.Machine

/-- SOURCE_EVENT (R260, R262). -/
def execSourceEvent (g : Fin 576) (st : State) : Out := run st (sourceEvent g)

/-- ESC_WINDOW_EXPIRY (R263). -/
def execEscWindowExpiry (g : Fin 576) (st : State) : Out := run st (escWindowExpiry g)

/-- PAIR_BROKEN (R261). -/
def execPairBroken (g : Fin 576) (both1 : Bool) (st : State) : Out := run st (pairBroken g both1)

/-- PAIR_RESTORED (R261). -/
def execPairRestored (g : Fin 576) (st : State) : Out := run st (pairRestored g)

/-- COLLECTOR_SCRUB (R274, R275). An injected error can lie in the device collector (R401). -/
def execCollectorScrub (c : Option Sec) (ecc : EccResult) (st : State) : Out :=
  run st (fun d => match c with
    | none => d.injRead 4 0 0 ecc (fun e => collectorScrub none e)
    | some s => collectorScrub (some s) ecc d)

/-- STOPPING_COMPLETE (R26). -/
def execStoppingComplete (s : Sec) (st : State) : Out := run st (stoppingComplete s)

/-- SYS_CLOCK_LOST (R71). -/
def execSysClockLost (unlock : Bool) (st : State) : Out := run st (sysClockLost unlock)

/-- SEC_CLOCK_MISSING (R71). -/
def execSecClockMissing (s : Sec) (st : State) : Out := run st (secClockMissing s)

end Sys2Proof.Machine
end

