-- ==== Sys2Proof/Machine/CmdGate.lean ====
section
/-! DEFINITION. The events of the PWM slices, the gate interface, protection and the window monitors (R97 to R148). -/

namespace Sys2Proof.Machine

/-- PEAK (R97). -/
def execPeak (l : Leg) (t : Nat) (smp : Samples) (old : BitVec 4) (st : State) : Out :=
  run st (fun d => d.secAct l.sec (compatSampled l t true (peakEvent l t smp old)))

/-- VALLEY (R97). -/
def execValley (l : Leg) (t : Nat) (smp : Samples) (old : BitVec 4) (st : State) : Out :=
  run st (fun d => d.secAct l.sec (compatSampled l t false (valleyEvent l t smp old)))

/-- COMPARE_EDGE (R101). -/
def execCompareEdge (l : Leg) (u : Fin 3) (b : Bool) (t : Nat) (st : State) : Out :=
  run st (fun d => d.secIf l.sec (fun x => x.compareEdge l.loc u b t))

/-- DT_ON_EXPIRY (R102). -/
def execDtOnExpiry (l : Leg) (n : Fin 6) (t : Nat) (st : State) : Out :=
  run st (fun d => d.secIf l.sec (fun x => x.dtExpiry l.loc n t))

/-- FLOOR_EXPIRY (R121). -/
def execFloorExpiry (l : Leg) (n : Fin 6) (t : Nat) (st : State) : Out :=
  run st (fun d => d.secIf l.sec (fun x => x.floorExpiry l.loc n t))

/-- IMMEDIATE_ARRIVAL (R108). -/
def execImmediateArrival (l : Leg) (t : Nat) (st : State) : Out :=
  run st (fun d => d.secIf l.sec (fun x => x.immArrival l.loc t))

/-- VP_EVENT_EDGE (R103). -/
def execVpEventEdge (l : Leg) (t : Nat) (st : State) : Out :=
  run st (fun d => d.secIf l.sec (fun x => x.vpEdge l.loc t))

/-- VP_TIMEOUT (R103). -/
def execVpTimeout (l : Leg) (t : Nat) (st : State) : Out :=
  run st (fun d => d.secIf l.sec (fun x => x.vpTimeout l.loc t))

/-- TRIP_ACTIVE (R110, R111). -/
def execTripActive (l : Leg) (n : Fin 4) (st : State) : Out :=
  run st (fun d => d.secIf l.sec (fun x => x.tripActive l.loc n))

/-- TRIP_INACTIVE (R110). -/
def execTripInactive (l : Leg) (n : Fin 4) (st : State) : Out :=
  run st (fun d => d.secIf l.sec (fun x => x.tripInactive l.loc n))

/-- IDLE_REFRESH (R125). -/
def execIdleRefresh (l : Leg) (t : Nat) (st : State) : Out :=
  run st (fun d => d.secIf l.sec (fun x => x.idleRefresh l.loc t))

/-- PRECHARGE_TRAIN (R126). -/
def execPrechargeTrain (l : Leg) (t : Nat) (st : State) : Out :=
  run st (fun d => d.secIf l.sec (fun x => x.prechargeTrain l.loc t))

/-- REFRESH_PULSE_END (R124). -/
def execRefreshPulseEnd (l : Leg) (t : Nat) (st : State) : Out :=
  run st (fun d => d.secIf l.sec (fun x => x.refreshEnd l.loc t))

/-- DRIVER_FAULT (R128, R129). -/
def execDriverFault (l : Leg) (n : Fin 6) (low : Bool) (st : State) : Out :=
  run st (fun d => d.secIf l.sec (fun x => x.driverFault l.loc n low))

/-- OC1_CROSSING (R130, R131). -/
def execOc1Crossing (l : Leg) (st : State) : Out := run st (fun d => d.secIf l.sec (fun x => x.oc1 l.loc))

/-- OC2_CROSSING (R130, R133). -/
def execOc2Crossing (l : Leg) (st : State) : Out := run st (fun d => d.secIf l.sec (fun x => x.oc2 l.loc))

/-- COMPARATOR_GOOD_SIDE (R130, R132). -/
def execComparatorGoodSide (l : Leg) (oc2 : Bool) (st : State) : Out :=
  run st (fun d => d.secIf l.sec (fun x => x.goodSide l.loc oc2))

/-- BLANKING_END (R129, R131). -/
def execBlankingEnd (l : Leg) (n : Fin 6) (t : Nat) (low : Bool) (st : State) : Out :=
  run st (fun d => d.injFiltered (d.secIf l.sec (fun x => x.blankingEnd l.loc n t low)) (injLeg l.sec.val l.loc.val))

/-- PLATEAU_END (R134). -/
def execPlateauEnd (l : Leg) (t : Nat) (st : State) : Out :=
  run st (fun d => d.secIf l.sec (fun x => x.plateauEnd l.loc t))

/-- DELAY_LINE_END (R135). -/
def execDelayLineEnd (l : Leg) (t : Nat) (st : State) : Out :=
  run st (fun d => d.secIf l.sec (fun x => x.delayLineEnd l.loc t))

/-- STEP2_INNER_END (R136). -/
def execStep2InnerEnd (l : Leg) (t : Nat) (st : State) : Out :=
  run st (fun d => d.secIf l.sec (fun x => x.step2InnerEnd l.loc t))

/-- SELFTEST_DONE (R143). -/
def execSelftestDone (l : Leg) (failmap : BitVec 8) (st : State) : Out :=
  run st (fun d => d.secIf l.sec (fun x => x.selftestDone l.loc failmap))

/-- MONITOR_FILTER_CHANGE (R145). -/
def execMonitorFilterChange (s : Sec) (m : Fin 8) (hi : Bool) (smp : List Bool) (st : State) : Out :=
  run st (fun d => d.injFiltered (d.secIf s (fun x => x.monitorChange m.val hi smp)) (injMonitor s.val m.val hi))

end Sys2Proof.Machine
end

