-- ==== Sys2Proof/Machine/CmdMeasure.lean ====
section
/-! DEFINITION. The events of the converters and accumulators (R79 to R92). -/

namespace Sys2Proof.Machine

/-- ADC_SATURATION (R79, R255). -/
def execAdcSaturation (s : Sec) (c : Fin 12) (codes : List (BitVec 14)) (st : State) : Out :=
  run st (adcSaturation s c codes)

/-- SATURATION_RELEASE (R79). -/
def execSaturationRelease (s : Sec) (c : Fin 12) (st : State) : Out :=
  run st (fun d => d.onSec s (·.satRelease c.val))

/-- COUNT_WINDOW_CLOSE (R83). -/
def execCountWindowClose (s : Sec) (smp : Samples) (st : State) : Out := run st (countWindowClose s smp)

/-- TIME_WINDOW_BOUNDARY (R84). -/
def execTimeWindowBoundary (s : Sec) (smp : Samples) (st : State) : Out := run st (timeWindowBoundary s smp)

/-- FORCED_CLOSE (R85). -/
def execForcedClose (s : Sec) (k : Fin 48) (smp : Samples) (st : State) : Out := run st (forcedClose s k smp)

end Sys2Proof.Machine
end

