-- ==== Sys2Proof/Machine/CmdMeter.lean ====
section
/-! DEFINITION. The events of the metering points and pulse outputs (R238 to R254). -/

namespace Sys2Proof.Machine

/-- LINE_CYCLE_END (R239, R240). -/
def execLineCycleEnd (p : Fin 8) (st : State) : Out := run st (lineCycleEnd p)

/-- SUPRA_BLOCK (R251). -/
def execSupraBlock (p : Fin 8) (st : State) : Out := run st (supraBlock p)

/-- POINT_FREE_ENTRY (R238). -/
def execPointFreeEntry (p : Fin 8) (st : State) : Out := run st (pointFreeEntry p)

/-- METER_RECORD_SAVE (R243). -/
def execMeterRecordSave (st : State) : Out := run st meterRecordSave

/-- HARM_COPY_DONE (R252). -/
def execHarmCopyDone (k : Port) (st : State) : Out := run st (harmCopyDone k)

/-- PULSE_START (R253). -/
def execPulseStart (n : Fin 8) (st : State) : Out := run st (pulseStart n)

/-- PULSE_END (R253). -/
def execPulseEnd (n : Fin 8) (st : State) : Out := run st (pulseEnd n)

end Sys2Proof.Machine
end

