-- ==== Sys2Proof/Machine/CmdNet.lean ====
section
/-! DEFINITION. The events of Ethernet, network time and the field links (R298 to R326). -/

namespace Sys2Proof.Machine

/-- ETH_FRAME_RX (R302, R303, R320). -/
def execEthFrameRx (p : Port) (frame : List Byte) (st : State) : Out := run st (ethFrameRx p frame)

/-- FM_TIMEOUT (R303). -/
def execFmTimeout (p : Port) (i : Fin 4) (st : State) : Out := run st (fmTimeout p i)

/-- ETH_FRAME_TX (R302, R304, R320). -/
def execEthFrameTx (p : Port) (st : State) : Out := run st (ethFrameTx p)

/-- LAUNCH_SLOT_LOAD (R305). -/
def execLaunchSlotLoad (p : Port) (st : State) : Out := run st (launchSlotLoad p)

/-- TIMED_LAUNCH (R305). -/
def execTimedLaunch (p : Port) (i : Fin 16) (st : State) : Out := run st (timedLaunch p i)

/-- LAUNCH_MISSED (R306). -/
def execLaunchMissed (p : Port) (q : Fin 4) (slot : Option (Fin 16)) (st : State) : Out :=
  run st (launchMissed p q slot)

/-- ETH_LINK_DOWN (R291, R306). -/
def execEthLinkDown (p : Port) (st : State) : Out := run st (ethLinkDown p)

/-- ETH_LINK_UP (R291). -/
def execEthLinkUp (p : Port) (speed : BitVec 2) (st : State) : Out := run st (ethLinkUp p speed)

/-- SLEW_DONE (R298). -/
def execSlewDone (st : State) : Out := run st (slewDone)

/-- CAN_FRAME_RX (R321). -/
def execCanFrameRx (n : Fin 2) (id : W) (flags : W) (data : List Byte) (ago : Nat) (r : CanRx) (st : State) : Out :=
  run st (canFrameRx n id flags data ago r)

/-- CAN_FRAME_TX (R321). -/
def execCanFrameTx (n : Fin 2) (r : CanTx) (st : State) : Out := run st (canFrameTx n r)

/-- CAN_BUS_OFF (R321). -/
def execCanBusOff (n : Fin 2) (st : State) : Out := run st (canBusOff n)

/-- CAN_AUTO_RECOVER (R321). -/
def execCanAutoRecover (n : Fin 2) (st : State) : Out := run st (canAutoRecover n)

/-- UART_TX (R322). -/
def execUartTx (n : Fin 2) (st : State) : Out := run st (uartTx n)

/-- UART_RX_CLOSE (R322). -/
def execUartRxClose (n : Fin 2) (chars : List (Byte × Bool × Bool)) (ago : Nat) (st : State) : Out :=
  run st (uartRxClose n chars ago)

/-- I2C_DONE (R323). -/
def execI2cDone (n : Fin 2) (r : I2cResult) (rd : List Byte) (st : State) : Out := run st (i2cDone n r rd)

/-- DL_FRAME_RX (R325). -/
def execDlFrameRx (j : Fin 8) (frame : List Byte) (codeErr : Bool) (st : State) : Out :=
  run st (dlFrameRx j frame codeErr)

/-- DL_FRAME_TX (R324, R326). -/
def execDlFrameTx (j : Fin 8) (st : State) : Out := run st (dlFrameTx j)

/-- DL_LOST (R325). -/
def execDlLost (j : Fin 8) (st : State) : Out := run st (dlLost j)

end Sys2Proof.Machine
end

