-- ==== Sys2Proof/Machine/CmdPower.lean ====
section
/-! DEFINITION. The events of the auxiliary supply and of the keep domain (R371 to R395, R430). -/

namespace Sys2Proof.Machine

/-- AUX_PHASE_START (R372 to R374, R379). -/
def execAuxPhaseStart (i : Fin 4) (code : BitVec 12) (cs : List (BitVec 12)) (temp : BitVec 16) (st : State) : Out :=
  run st (auxPhaseStart i code cs temp)

/-- AUX_CURRENT_TRIP (R374). -/
def execAuxCurrentTrip (i : Fin 4) (st : State) : Out := run st (auxCurrentTrip i)

/-- AUX_MAX_ON (R374). -/
def execAuxMaxOn (i : Fin 4) (st : State) : Out := run st (auxMaxOn i)

/-- AUX_UNDERSHOOT (R375). -/
def execAuxUndershoot (st : State) : Out := run st (auxUndershoot)

/-- AUX_HICCUP (R377). -/
def execAuxHiccup (st : State) : Out := run st (auxHiccup)

/-- AUX_SOFTSTART_END (R376). -/
def execAuxSoftstartEnd (st : State) : Out := run st (auxSoftstartEnd)

/-- AUX_HICCUP_END (R377). -/
def execAuxHiccupEnd (st : State) : Out := run st (auxHiccupEnd)

/-- AUX_RETRY_RESET (R377). -/
def execAuxRetryReset (st : State) : Out := run st (auxRetryReset)

/-- AUX_OVERVOLTAGE (R378). -/
def execAuxOvervoltage (high : Bool) (st : State) : Out := run st (auxOvervoltage high)

/-- AUX_UV_TIMEOUT (R378). -/
def execAuxUvTimeout (st : State) : Out := run st (auxUvTimeout)

/-- KEEP_SUPPLY_CHANGE (R382). -/
def execKeepSupplyChange (main : Nat) (store : Nat) (vbat : Nat) (st : State) : Out :=
  runKeep st (keepSupplyChange main store vbat)

/-- KEEP_MEASURE (R383, R384, R394). -/
def execKeepMeasure (store : Nat) (vbat : Nat) (hv0 : Nat) (hv1 : Nat) (st : State) : Out :=
  runKeep st (keepMeasure store vbat hv0 hv1)

/-- BURST_START (R385 to R387). -/
def execBurstStart (store : Nat) (vbat : Nat) (hv0 : Nat) (hv1 : Nat) (st : State) : Out :=
  runKeep st (burstStart store vbat hv0 hv1)

/-- BURST_DONE (R385, R388, R389). -/
def execBurstDone (st : State) : Out := runKeep st (burstDone)

/-- PFAIL (R391 to R393). -/
def execPfail (st : State) : Out := runKeep st pfail

/-- RTC_ALARM (R394). -/
def execRtcAlarm (st : State) : Out := runKeep st (rtcAlarm)

/-- TAMPER (R395). -/
def execTamper (n : Fin 2) (st : State) : Out := runKeep st (tamper n)

/-- MPPSET_READ (R390). -/
def execMppsetRead (n : Fin 2) (ohms : Nat) (st : State) : Out := runKeep st (mppsetRead n ohms)

/-- FERAM_REFRESH (R430). -/
def execFeramRefresh (obj : Fin 3) (st : State) : Out := runKeep st (feramRefresh obj)

/-- KEEP_POWER_ON (R381). -/
def execKeepPowerOn (st : State) : Out := runKeep st (keepPowerOn)

end Sys2Proof.Machine
end

