-- ==== Sys2Proof/Machine/CmdSafe.lean ====
section
/-! DEFINITION. The events of the safety block (R279 to R289). -/

namespace Sys2Proof.Machine

/-- SAFE_INIT_DONE (R284): the seal is read in INIT. -/
def execSafeInitDone (sv : BitVec 8) (st : State) : Out := run st (safeInitDone sv)

/-- SAFE_INPUT_CHANGE (R280, R281). -/
def execSafeInputChange (ch : Fin 8) (level : Bool) (st : State) : Out :=
  run st (safeInputChange ch level)

/-- DISCREPANCY_TIMEOUT (R281). -/
def execDiscrepancyTimeout (n : Fin 3) (st : State) : Out := run st (discrepancyTimeout n)

/-- SAFE_SELF_FAIL (R279). -/
def execSafeSelfFail (st : State) : Out := run st safeSelfFail

/-- SEAL_READ (R282, R283). -/
def execSealRead (sv : BitVec 8) (st : State) : Out := run st (sealRead sv)

/-- RAMP_EXPIRY (R285). -/
def execRampExpiry (st : State) : Out := run st rampExpiry

/-- SAFE_PLATEAU_END (R286). -/
def execSafePlateauEnd (st : State) : Out := run st safePlateauEnd

/-- GATE_EN_STOP (R286). -/
def execGateEnStop (st : State) : Out := run st gateEnStop

/-- GATE_EN_LOSS (R281). -/
def execGateEnLoss (st : State) : Out := run st gateEnLoss

/-- SO_DEENERGISE (R286). -/
def execSoDeenergise (st : State) : Out := run st soDeenergise

/-- OFF_PULSE_TEST (R287). -/
def execOffPulseTest (n : Fin 4) (ok : Bool) (st : State) : Out := run st (offPulseTest n ok)

/-- MIRROR_TIMEOUT (R287). -/
def execMirrorTimeout (n : Fin 4) (st : State) : Out := run st (mirrorTimeout n)

/-- SHUNT_TRIP_PULSE (R288). -/
def execShuntTripPulse (st : State) : Out := run st shuntTripPulse

/-- SHUNT_PULSE_END (R288). -/
def execShuntPulseEnd (opened : Bool) (st : State) : Out := run st (shuntPulseEnd opened)

/-- SRESET_PULSE (R289). -/
def execSresetPulse (ms : Nat) (st : State) : Out := run st (sresetPulse ms)

/-- SAFE_AUTO_RESET (R284, R289). -/
def execSafeAutoReset (st : State) : Out := run st safeAutoReset

/-- CONTACTOR_CONFIRM (R207). -/
def execContactorConfirm (n : Fin 4) (closed : Bool) (st : State) : Out := run st (contactorConfirm n closed)

/-- READ_BACK_CONFIRMED (R287). -/
def execReadBackConfirmed (n : Fin 4) (st : State) : Out := run st (readBackConfirmed n)

end Sys2Proof.Machine
end

