-- ==== Sys2Proof/Machine/Dispatch.lean ====
section
/-! DEFINITION. Which meaning each command has: one arm per constructor. -/

namespace Sys2Proof.Machine

/-- The effect of a command on everything but the queue of waiting commands. -/
def exec (i : Instr) (s : State) : Host.Outcome State Fault Refusal :=
  match i with
  | .deviceReset cause => Sys2Proof.Machine.execDeviceReset cause s
  | .deviceResetRelease straps => Sys2Proof.Machine.execDeviceResetRelease straps s
  | .baseBootComplete r => Sys2Proof.Machine.execBaseBootComplete r s
  | .secCmdStart sc => Sys2Proof.Machine.execSecCmdStart sc s
  | .secCmdEnable sc => Sys2Proof.Machine.execSecCmdEnable sc s
  | .secCmdStop sc => Sys2Proof.Machine.execSecCmdStop sc s
  | .sectionBootStart sc => Sys2Proof.Machine.execSectionBootStart sc s
  | .sectionBootComplete sc => Sys2Proof.Machine.execSectionBootComplete sc s
  | .stoppingComplete sc => Sys2Proof.Machine.execStoppingComplete sc s
  | .registerWrite addr val => Sys2Proof.Machine.execRegisterWrite addr val s
  | .rwpClose val => Sys2Proof.Machine.execRwpClose val s
  | .tickTrigger sc clk => Sys2Proof.Machine.execTickTrigger sc clk s
  | .windowResultArrival sc clk => Sys2Proof.Machine.execWindowResultArrival sc clk s
  | .assistUpdateComplete sc clk => Sys2Proof.Machine.execAssistUpdateComplete sc clk s
  | .observerHoldTimeout sc => Sys2Proof.Machine.execObserverHoldTimeout sc s
  | .tickDeadlineExpiry sc => Sys2Proof.Machine.execTickDeadlineExpiry sc s
  | .recomputeStart sc => Sys2Proof.Machine.execRecomputeStart sc s
  | .nop sc e args => Sys2Proof.Machine.execNop sc e args s
  | .br sc e args => Sys2Proof.Machine.execBr sc e args s
  | .call sc e args => Sys2Proof.Machine.execCall sc e args s
  | .ret sc e args => Sys2Proof.Machine.execRet sc e args s
  | .wait sc e args => Sys2Proof.Machine.execWait sc e args s
  | .waitComplete sc e => Sys2Proof.Machine.execWaitComplete sc e s
  | .next sc e args => Sys2Proof.Machine.execNext sc e args s
  | .commit sc e args agree => Sys2Proof.Machine.execCommit sc e args agree s
  | .mov sc e args => Sys2Proof.Machine.execMov sc e args s
  | .ldk sc e args => Sys2Proof.Machine.execLdk sc e args s
  | .ldi sc e args => Sys2Proof.Machine.execLdi sc e args s
  | .cvt sc e args => Sys2Proof.Machine.execCvt sc e args s
  | .vadd sc e args => Sys2Proof.Machine.execVadd sc e args s
  | .vsub sc e args => Sys2Proof.Machine.execVsub sc e args s
  | .vmul sc e args => Sys2Proof.Machine.execVmul sc e args s
  | .vmac sc e args => Sys2Proof.Machine.execVmac sc e args s
  | .vneg sc e args => Sys2Proof.Machine.execVneg sc e args s
  | .vabs sc e args => Sys2Proof.Machine.execVabs sc e args s
  | .kmul sc e args => Sys2Proof.Machine.execKmul sc e args s
  | .kadd sc e args => Sys2Proof.Machine.execKadd sc e args s
  | .cmp sc e args => Sys2Proof.Machine.execCmp sc e args s
  | .lim sc e args => Sys2Proof.Machine.execLim sc e args s
  | .vlim sc e args => Sys2Proof.Machine.execVlim sc e args s
  | .vlim2 sc e args => Sys2Proof.Machine.execVlim2 sc e args s
  | .rot sc e args => Sys2Proof.Machine.execRot sc e args s
  | .mvm sc e args => Sys2Proof.Machine.execMvm sc e args s
  | .lut sc e args => Sys2Proof.Machine.execLut sc e args s
  | .lsel sc e args => Sys2Proof.Machine.execLsel sc e args s
  | .pstep sc e args => Sys2Proof.Machine.execPstep sc e args s
  | .ptgt sc e args => Sys2Proof.Machine.execPtgt sc e args s
  | .pset sc e args => Sys2Proof.Machine.execPset sc e args s
  | .py sc e args => Sys2Proof.Machine.execPy sc e args s
  | .rdw sc e args => Sys2Proof.Machine.execRdw sc e args s
  | .wavg sc e args => Sys2Proof.Machine.execWavg sc e args s
  | .rdi sc e args => Sys2Proof.Machine.execRdi sc e args s
  | .duty sc e args => Sys2Proof.Machine.execDuty sc e args s
  | .dset sc e args => Sys2Proof.Machine.execDset sc e args s
  | .out sc e args => Sys2Proof.Machine.execOut sc e args s
  | .req sc e args => Sys2Proof.Machine.execReq sc e args s
  | .send sc e args => Sys2Proof.Machine.execSend sc e args s
  | .paramCommit sc => Sys2Proof.Machine.execParamCommit sc s
  | .engOutSeqRead k sc => Sys2Proof.Machine.execEngOutSeqRead k sc s
  | .scrubRead sc b mem addr ecc partnerOk => Sys2Proof.Machine.execScrubRead sc b mem addr ecc partnerOk s
  | .pllLock p => Sys2Proof.Machine.execPllLock p s
  | .pllFreqWrite p val => Sys2Proof.Machine.execPllFreqWrite p val s
  | .freqStepSettled p => Sys2Proof.Machine.execFreqStepSettled p s
  | .pllSsWrite p val => Sys2Proof.Machine.execPllSsWrite p val s
  | .spreadChangeApply p => Sys2Proof.Machine.execSpreadChangeApply p s
  | .pllPhaseWrite p val => Sys2Proof.Machine.execPllPhaseWrite p val s
  | .phaseStepApply p => Sys2Proof.Machine.execPhaseStepApply p s
  | .holdoverExpiry rcPpm => Sys2Proof.Machine.execHoldoverExpiry rcPpm s
  | .refclkAccepted drift => Sys2Proof.Machine.execRefclkAccepted drift s
  | .returnStep p => Sys2Proof.Machine.execReturnStep p s
  | .refCmdReturn val drift => Sys2Proof.Machine.execRefCmdReturn val drift s
  | .sysClockLost unlock => Sys2Proof.Machine.execSysClockLost unlock s
  | .secPllUnlock sc => Sys2Proof.Machine.execSecPllUnlock sc s
  | .secClockMissing sc => Sys2Proof.Machine.execSecClockMissing sc s
  | .adcClockLost unlock => Sys2Proof.Machine.execAdcClockLost unlock s
  | .netClockLost unlock => Sys2Proof.Machine.execNetClockLost unlock s
  | .adcSaturation sc c codes => Sys2Proof.Machine.execAdcSaturation sc c codes s
  | .accCfgWrite sc k val => Sys2Proof.Machine.execAccCfgWrite sc k val s
  | .accArm sc hi val => Sys2Proof.Machine.execAccArm sc hi val s
  | .countWindowClose sc smp => Sys2Proof.Machine.execCountWindowClose sc smp s
  | .timeWindowBoundary sc smp => Sys2Proof.Machine.execTimeWindowBoundary sc smp s
  | .forcedClose sc k smp => Sys2Proof.Machine.execForcedClose sc k smp s
  | .accStatRead p sc k => Sys2Proof.Machine.execAccStatRead p sc k s
  | .peak l t smp old => Sys2Proof.Machine.execPeak l t smp old s
  | .valley l t smp old => Sys2Proof.Machine.execValley l t smp old s
  | .compareEdge l u b t => Sys2Proof.Machine.execCompareEdge l u b t s
  | .dtOnExpiry l n t => Sys2Proof.Machine.execDtOnExpiry l n t s
  | .floorExpiry l n t => Sys2Proof.Machine.execFloorExpiry l n t s
  | .pwmCommit sc val => Sys2Proof.Machine.execPwmCommit sc val s
  | .immediateArrival l t => Sys2Proof.Machine.execImmediateArrival l t s
  | .vpEventEdge l t => Sys2Proof.Machine.execVpEventEdge l t s
  | .vpTimeout l t => Sys2Proof.Machine.execVpTimeout l t s
  | .tripActive l n => Sys2Proof.Machine.execTripActive l n s
  | .tripInactive l n => Sys2Proof.Machine.execTripInactive l n s
  | .forceSet l => Sys2Proof.Machine.execForceSet l s
  | .forceClr l => Sys2Proof.Machine.execForceClr l s
  | .alignEnable sc val => Sys2Proof.Machine.execAlignEnable sc val s
  | .idleRefresh l t => Sys2Proof.Machine.execIdleRefresh l t s
  | .prechargeTrain l t => Sys2Proof.Machine.execPrechargeTrain l t s
  | .refreshPulseEnd l t => Sys2Proof.Machine.execRefreshPulseEnd l t s
  | .driverFault l n low => Sys2Proof.Machine.execDriverFault l n low s
  | .oc1Crossing l => Sys2Proof.Machine.execOc1Crossing l s
  | .oc2Crossing l => Sys2Proof.Machine.execOc2Crossing l s
  | .comparatorGoodSide l oc2 => Sys2Proof.Machine.execComparatorGoodSide l oc2 s
  | .blankingEnd l n t low => Sys2Proof.Machine.execBlankingEnd l n t low s
  | .plateauEnd l t => Sys2Proof.Machine.execPlateauEnd l t s
  | .delayLineEnd l t => Sys2Proof.Machine.execDelayLineEnd l t s
  | .step2InnerEnd l t => Sys2Proof.Machine.execStep2InnerEnd l t s
  | .protClr l flt => Sys2Proof.Machine.execProtClr l flt s
  | .selftestStart l => Sys2Proof.Machine.execSelftestStart l s
  | .selftestDone l failmap => Sys2Proof.Machine.execSelftestDone l failmap s
  | .monitorFilterChange sc m hi smp => Sys2Proof.Machine.execMonitorFilterChange sc m hi smp s
  | .brCmdStart sc b => Sys2Proof.Machine.execBrCmdStart sc b s
  | .brCmdStop sc b => Sys2Proof.Machine.execBrCmdStop sc b s
  | .brCmdReset sc b => Sys2Proof.Machine.execBrCmdReset sc b s
  | .brCmdLock sc b => Sys2Proof.Machine.execBrCmdLock sc b s
  | .contactorConfirm n closed => Sys2Proof.Machine.execContactorConfirm n closed s
  | .preTimeout sc b => Sys2Proof.Machine.execPreTimeout sc b s
  | .connTimeout sc b => Sys2Proof.Machine.execConnTimeout sc b s
  | .stopTimeout sc b => Sys2Proof.Machine.execStopTimeout sc b s
  | .syncQualified sc b => Sys2Proof.Machine.execSyncQualified sc b s
  | .rideHoldExpiry sc b => Sys2Proof.Machine.execRideHoldExpiry sc b s
  | .rideLimit sc b => Sys2Proof.Machine.execRideLimit sc b s
  | .mpptInterval sc b => Sys2Proof.Machine.execMpptInterval sc b s
  | .thermLost sc b => Sys2Proof.Machine.execThermLost sc b s
  | .passiveTrip sc n => Sys2Proof.Machine.execPassiveTrip sc n s
  | .islT0Write sc val => Sys2Proof.Machine.execIslT0Write sc val s
  | .lineCycleEnd p => Sys2Proof.Machine.execLineCycleEnd p s
  | .supraBlock p => Sys2Proof.Machine.execSupraBlock p s
  | .mpTselWrite k p val => Sys2Proof.Machine.execMpTselWrite k p val s
  | .mpWseqRead k p => Sys2Proof.Machine.execMpWseqRead k p s
  | .harmSelWrite k val => Sys2Proof.Machine.execHarmSelWrite k val s
  | .harmCopyDone k => Sys2Proof.Machine.execHarmCopyDone k s
  | .clrTotals val => Sys2Proof.Machine.execClrTotals val s
  | .metCmdSave val => Sys2Proof.Machine.execMetCmdSave val s
  | .pulseStart n => Sys2Proof.Machine.execPulseStart n s
  | .pulseEnd n => Sys2Proof.Machine.execPulseEnd n s
  | .sourceEvent g => Sys2Proof.Machine.execSourceEvent g s
  | .escWindowExpiry g => Sys2Proof.Machine.execEscWindowExpiry g s
  | .pairBroken g both1 => Sys2Proof.Machine.execPairBroken g both1 s
  | .pairRestored g => Sys2Proof.Machine.execPairRestored g s
  | .fcLogPop c => Sys2Proof.Machine.execFcLogPop c s
  | .collectorScrub c ecc => Sys2Proof.Machine.execCollectorScrub c ecc s
  | .safeInitDone sv => Sys2Proof.Machine.execSafeInitDone sv s
  | .safeInputChange ch level => Sys2Proof.Machine.execSafeInputChange ch level s
  | .discrepancyTimeout n => Sys2Proof.Machine.execDiscrepancyTimeout n s
  | .sealRead sv => Sys2Proof.Machine.execSealRead sv s
  | .offPulseTest n ok => Sys2Proof.Machine.execOffPulseTest n ok s
  | .mirrorTimeout n => Sys2Proof.Machine.execMirrorTimeout n s
  | .shuntPulseEnd opened => Sys2Proof.Machine.execShuntPulseEnd opened s
  | .sresetPulse ms => Sys2Proof.Machine.execSresetPulse ms s
  | .ethFrameRx p frame => Sys2Proof.Machine.execEthFrameRx p frame s
  | .fmTimeout p ix => Sys2Proof.Machine.execFmTimeout p ix s
  | .ethFrameTx p => Sys2Proof.Machine.execEthFrameTx p s
  | .launchSlotLoad p => Sys2Proof.Machine.execLaunchSlotLoad p s
  | .timedLaunch p ix => Sys2Proof.Machine.execTimedLaunch p ix s
  | .launchMissed p q slot => Sys2Proof.Machine.execLaunchMissed p q slot s
  | .ethLinkDown p => Sys2Proof.Machine.execEthLinkDown p s
  | .timeIncrWrite val => Sys2Proof.Machine.execTimeIncrWrite val s
  | .timeStep force => Sys2Proof.Machine.execTimeStep force s
  | .timeNsRead k => Sys2Proof.Machine.execTimeNsRead k s
  | .timeRawLoRead k => Sys2Proof.Machine.execTimeRawLoRead k s
  | .hpWrite k cmd words crc others => Sys2Proof.Machine.execHpWrite k cmd words crc others s
  | .hpRead k cmd crc others => Sys2Proof.Machine.execHpRead k cmd crc others s
  | .hpStat k cmd crc => Sys2Proof.Machine.execHpStat k cmd crc s
  | .frameAbort k => Sys2Proof.Machine.execFrameAbort k s
  | .qPtrWrite q val => Sys2Proof.Machine.execQPtrWrite q val s
  | .ringDelivery sc r => Sys2Proof.Machine.execRingDelivery sc r s
  | .canFrameRx n id flags data ago r => Sys2Proof.Machine.execCanFrameRx n id flags data ago r s
  | .canFrameTx n r => Sys2Proof.Machine.execCanFrameTx n r s
  | .canBusOff n => Sys2Proof.Machine.execCanBusOff n s
  | .canAutoRecover n => Sys2Proof.Machine.execCanAutoRecover n s
  | .canCmdRecover n => Sys2Proof.Machine.execCanCmdRecover n s
  | .uartTx n => Sys2Proof.Machine.execUartTx n s
  | .uartRxClose n chars ago => Sys2Proof.Machine.execUartRxClose n chars ago s
  | .i2cGo n val => Sys2Proof.Machine.execI2cGo n val s
  | .i2cDone n r rd => Sys2Proof.Machine.execI2cDone n r rd s
  | .dlFrameRx j frame codeErr => Sys2Proof.Machine.execDlFrameRx j frame codeErr s
  | .dlFrameTx j => Sys2Proof.Machine.execDlFrameTx j s
  | .dlLost j => Sys2Proof.Machine.execDlLost j s
  | .dlCmdGo j => Sys2Proof.Machine.execDlCmdGo j s
  | .tokenDone wrote => Sys2Proof.Machine.execTokenDone wrote s
  | .reportDone ecdsa hss => Sys2Proof.Machine.execReportDone ecdsa hss s
  | .couchArm sc => Sys2Proof.Machine.execCouchArm sc s
  | .couchNow sc => Sys2Proof.Machine.execCouchNow sc s
  | .couchCancel sc => Sys2Proof.Machine.execCouchCancel sc s
  | .couchActivate sc => Sys2Proof.Machine.execCouchActivate sc s
  | .couchBLoad sc => Sys2Proof.Machine.execCouchBLoad sc s
  | .couchTakeover sc => Sys2Proof.Machine.execCouchTakeover sc s
  | .directorySwitch sc => Sys2Proof.Machine.execDirectorySwitch sc s
  | .couchAReload sc ok => Sys2Proof.Machine.execCouchAReload sc ok s
  | .compatRead k addr => Sys2Proof.Machine.execCompatRead k addr s
  | .compatWrite k addr data => Sys2Proof.Machine.execCompatWrite k addr data s
  | .compatFrameError k => Sys2Proof.Machine.execCompatFrameError k s
  | .compatTimingWrite k addr data => Sys2Proof.Machine.execCompatTimingWrite k addr data s
  | .compatCmpWrite k x data t => Sys2Proof.Machine.execCompatCmpWrite k x data t s
  | .compatRunStart k => Sys2Proof.Machine.execCompatRunStart k s
  | .compatRunStop k => Sys2Proof.Machine.execCompatRunStop k s
  | .compatSwrst k => Sys2Proof.Machine.execCompatSwrst k s
  | .compatTripcfgWrite k data => Sys2Proof.Machine.execCompatTripcfgWrite k data s
  | .compatFaultClear k data => Sys2Proof.Machine.execCompatFaultClear k data s
  | .compatAdcResult k smp => Sys2Proof.Machine.execCompatAdcResult k smp s
  | .auxPhaseStart ix code cs temp => Sys2Proof.Machine.execAuxPhaseStart ix code cs temp s
  | .auxCurrentTrip ix => Sys2Proof.Machine.execAuxCurrentTrip ix s
  | .auxMaxOn ix => Sys2Proof.Machine.execAuxMaxOn ix s
  | .auxClr val => Sys2Proof.Machine.execAuxClr val s
  | .auxOvervoltage high => Sys2Proof.Machine.execAuxOvervoltage high s
  | .keepSupplyChange main store vbat => Sys2Proof.Machine.execKeepSupplyChange main store vbat s
  | .keepMeasure store vbat hv0 hv1 => Sys2Proof.Machine.execKeepMeasure store vbat hv0 hv1 s
  | .burstStart store vbat hv0 hv1 => Sys2Proof.Machine.execBurstStart store vbat hv0 hv1 s
  | .rtcSecWrite val => Sys2Proof.Machine.execRtcSecWrite val s
  | .tamper n => Sys2Proof.Machine.execTamper n s
  | .mppsetRead n ohms => Sys2Proof.Machine.execMppsetRead n ohms s
  | .feramRefresh obj => Sys2Proof.Machine.execFeramRefresh obj s
  | .injFire val => Sys2Proof.Machine.execInjFire val s
  | .injStop val => Sys2Proof.Machine.execInjStop val s
  | .ethLinkUp p speed => Sys2Proof.Machine.execEthLinkUp p speed s
  | .pointFreeEntry p => Sys2Proof.Machine.execPointFreeEntry p s
  | .readBackConfirmed n => Sys2Proof.Machine.execReadBackConfirmed n s
  | .saturationRelease sc c => Sys2Proof.Machine.execSaturationRelease sc c s
  | .internalRestart => Sys2Proof.Machine.execInternalRestart s
  | .refclkLost => Sys2Proof.Machine.execRefclkLost s
  | .chipClose => Sys2Proof.Machine.execChipClose s
  | .meterRecordSave => Sys2Proof.Machine.execMeterRecordSave s
  | .safeSelfFail => Sys2Proof.Machine.execSafeSelfFail s
  | .rampExpiry => Sys2Proof.Machine.execRampExpiry s
  | .safePlateauEnd => Sys2Proof.Machine.execSafePlateauEnd s
  | .gateEnStop => Sys2Proof.Machine.execGateEnStop s
  | .gateEnLoss => Sys2Proof.Machine.execGateEnLoss s
  | .soDeenergise => Sys2Proof.Machine.execSoDeenergise s
  | .shuntTripPulse => Sys2Proof.Machine.execShuntTripPulse s
  | .safeAutoReset => Sys2Proof.Machine.execSafeAutoReset s
  | .timeSlew => Sys2Proof.Machine.execTimeSlew s
  | .slewDone => Sys2Proof.Machine.execSlewDone s
  | .token => Sys2Proof.Machine.execToken s
  | .report => Sys2Proof.Machine.execReport s
  | .field => Sys2Proof.Machine.execField s
  | .auxUndershoot => Sys2Proof.Machine.execAuxUndershoot s
  | .auxHiccup => Sys2Proof.Machine.execAuxHiccup s
  | .auxSoftstartEnd => Sys2Proof.Machine.execAuxSoftstartEnd s
  | .auxHiccupEnd => Sys2Proof.Machine.execAuxHiccupEnd s
  | .auxRetryReset => Sys2Proof.Machine.execAuxRetryReset s
  | .auxRunSet => Sys2Proof.Machine.execAuxRunSet s
  | .auxRunClear => Sys2Proof.Machine.execAuxRunClear s
  | .auxUvTimeout => Sys2Proof.Machine.execAuxUvTimeout s
  | .burstDone => Sys2Proof.Machine.execBurstDone s
  | .pfail => Sys2Proof.Machine.execPfail s
  | .rtcAlarm => Sys2Proof.Machine.execRtcAlarm s
  | .injEnd => Sys2Proof.Machine.execInjEnd s
  | .keepPowerOn => Sys2Proof.Machine.execKeepPowerOn s
  | .reportWaitEnd => Sys2Proof.Machine.execReportWaitEnd s

end Sys2Proof.Machine
end

