-- ==== Sys2Proof/Machine/Step.lean ====
section
/-! DEFINITION. One step of the block: the command at the front of the queue, or one clock of the TIME domain when no
command waits. -/

namespace Sys2Proof.Machine

/-- One step. With an empty queue one clock of the TIME domain passes (notes/assumptions/1.md); otherwise the front
command leaves the queue and acts. -/
def step (s : State) : Host.Outcome State Fault Refusal :=
  match s.pending with
  | [] => idle s
  | i :: rest => exec i { s with pending := rest }

/-- The state with the command that a table word spells put in front. The table gives its rows no bits, so no word
spells a command. -/
def State.withFetchWord (s : State) (nbits w : Nat) : State :=
  match decodeTableWord nbits w with
  | some i => { s with pending := i :: s.pending }
  | none => s

end Sys2Proof.Machine
end

