-- ==== Sys2Proof/WellFormed.lean ====
section
/-! DEFINITION. The commands that an environment can give: every operand in the range that its wire, its frame or its
converter admits. A meaning is given for every command; well-formedness is a premise of statements and nothing else. -/

namespace Sys2Proof

/-- A byte address of a register access names a word (R21): registers and memory are accessed as aligned words. -/
def wordAddress (a : W) : Bool := decide (a.toNat % 4 = 0)

/-- The data lengths of a CAN FD frame (R320). -/
def canLengths : List Nat := [0, 1, 2, 3, 4, 5, 6, 7, 8, 12, 16, 20, 24, 32, 48, 64]

/-- A voltage in millivolts as the keep domain's 16-bit fields hold it (R384). -/
def keepMillivolts (v : Nat) : Bool := decide (v < 65536)

/-- A word that an engine memory has: registers, profile state and tracings, 4,096 coefficients, eight tables of 257
points at a stride of 512, 2,048 program words (R159, R163, ECC_STAT.MEM). -/
def scrubHas (mem addr : Nat) : Bool :=
  match mem with
  | 2 => decide (addr % 512 < 257)
  | 3 => decide (addr < 2048)
  | _ => true

/-- The command is one that the environment can give. -/
def Instr.wf : Instr → Bool
  | .registerWrite addr _ => wordAddress addr
  | .scrubRead _ _ mem addr _ _ => scrubHas mem.val addr.val
  | .canFrameRx _ _ _ data _ _ => canLengths.contains data.length
  | .i2cDone _ _ rd => decide (rd.length ≤ 8)
  | .reportDone ecdsa hss => decide (ecdsa.length = 96 ∧ hss.length ≤ 0x4000 - 0x384)
  | .keepSupplyChange main store vbat => keepMillivolts main && keepMillivolts store && keepMillivolts vbat
  | .keepMeasure store vbat hv0 hv1 => keepMillivolts store && keepMillivolts vbat && keepMillivolts hv0 && keepMillivolts hv1
  | .burstStart store vbat hv0 hv1 => keepMillivolts store && keepMillivolts vbat && keepMillivolts hv0 && keepMillivolts hv1
  | _ => true

end Sys2Proof
end

