-- ==== Sys2Proof/Safety.lean ====
section
/-! DEFINITION. What counts as a well-formed state and a safe step, in the terms that the statements use: the memories
and tables that a state holds as plain data are in their one canonical form, and a step never stops the block. -/

namespace Sys2Proof.Machine

/-- The memories that keep their content without power are in canonical form. -/
def NonVol.wf (nv : NonVol) : Bool := Memory.wf nv.mram && Memory.wf nv.feram

/-- What the memories, fuses and counters that keep their content always meet: the memories are in canonical form, at
most two owner slots are burned (R335), the security state is one of three (R342), and BOOT_COUNT is a word (R431). -/
abbrev NonVol.Inv (nv : NonVol) : Prop :=
  nv.wf = true ∧ nv.fuses.owners.length ≤ 2 ∧ nv.fuses.lcs ≤ 2 ∧ nv.keys.boots ≤ 0xFFFFFFFF

/-- Fuses are only burned and counters only rise: no anti-rollback counter falls (R336), owner slots and revocations
stay (R334, R335), the security state goes forward only (R342), boots are never uncounted (R431), the UID, the vendor
hashes and the factory calibration stay (R333, R78), and the device secret stays until RETURNED burns it to all ones.
-/
structure NonVol.Onward (nv nv' : NonVol) : Prop where
  arb : ∀ i, (nv.arbOf i).toNat ≤ (nv'.arbOf i).toNat
  boots : nv.keys.boots ≤ nv'.keys.boots
  revoked : nv.fuses.revoked &&& nv'.fuses.revoked = nv.fuses.revoked
  owners : nv.fuses.owners <+: nv'.fuses.owners
  lcs : nv.fuses.lcs ≤ nv'.fuses.lcs
  secret : nv'.fuses.secret = nv.fuses.secret ∨ (nv'.fuses.lcs = 2 ∧ nv'.fuses.secret = List.replicate 32 0xFF)
  fixed : nv'.fuses.uid = nv.fuses.uid ∧ nv'.fuses.ecdsa = nv.fuses.ecdsa ∧ nv'.fuses.hss = nv.fuses.hss ∧
    nv'.fuses.adc = nv.fuses.adc

/-- The packet pool is in canonical form. -/
def Dev.poolWf (d : Dev) : Bool := Memory.wf d.pool

/-- The device registers are in canonical form: no listed register holds its reset value, addresses rise. -/
def Dev.regsWf (d : Dev) : Bool := Tbl.ok devReset d.regs

/-- The section registers are in canonical form. -/
def SecState.regsWf (s : SecState) : Bool := Tbl.ok secReset s.regs

/-- The device answers: it is not held in reset (R396). -/
abbrev State.awake (s : State) : Prop := s.dev.held = false

/-- The device answers and has left BOOT, so that its ports reach its registers (R22, R310). -/
abbrev State.ready (s : State) : Prop := s.dev.held = false ∧ s.dev.devState ≠ 1

/-- A section answers at its window and no port has claimed it, so that a software write reaches its registers (R22,
R355). -/
abbrev State.reach (s : State) (sc : Sec) : Prop := s.ready ∧ s.dev.secDead sc = false ∧ s.dev.claimed sc = false

/-- The device answers and the logic of the section is there (R22, R26). -/
abbrev State.up (s : State) (sc : Sec) : Prop := s.dev.held = false ∧ s.dev.secUp sc = true

/-- Entry i of the band table of PLL p is valid and contains the whole range the VCO will cover, spread included
(R65). -/
def Dev.bandFits (d : Dev) (p i : Nat) : Bool :=
  fbit Fld.BAND_VALID (d.rd (Reg.BAND p i)) &&
    inBand (vcoRange (d.rd (Reg.PLL_FREQ p)) (d.rd (Reg.PLL_SS p))) (fget Fld.BAND_F_LO (d.rd (Reg.BAND p i)))
      (fget Fld.BAND_F_HI (d.rd (Reg.BAND p i)))

/-- Every device register reads as before but those listed. -/
def Dev.regsBut (d d' : Dev) (as : List Nat) : Prop := ∀ a, a ∉ as → d'.rd a = d.rd a

/-- Every section register reads as before but those listed. -/
def SecState.regsBut (x x' : SecState) (as : List Nat) : Prop := ∀ a, a ∉ as → x'.rd a = x.rd a

/-- Every source pair of a collector is as before but those listed. -/
def Collector.pairsBut (c c' : Collector) (ns : List Nat) : Prop := ∀ n, n ∉ ns → c'.pair n = c.pair n

/-- A source is asserted at its collector: the detector drives its pair (R260). -/
abbrev Collector.raised (c : Collector) (n : Nat) : Prop := (c.pair n).drive = true

/-- Every section is as before but those listed. -/
def Dev.secsBut (d d' : Dev) (ss : List Sec) : Prop := ∀ s, s ∉ ss → d'.sc s = d.sc s

/-- A device register whose write follows R8 alone: no command, key or special rule stands behind it. -/
def plainReg (a : Nat) : Bool :=
  (a / 0x10000 == 0 && a != Reg.SEC_CMD && a != Reg.RWP_CLOSE && a != Reg.BUS_ERR_STAT) || a / 0x10000 == 3 ||
    (decide (0x10100 ≤ a) && decide (a < 0x10800) && decide (0x40 ≤ a % 0x100)) ||
    (a / 0x10000 == 6 && decide (a < 0x68000) && !(decide (a < 0x60400) && a % 16 == 8))

/-- The one effect of a write is a bus error, recorded as the first since VALID was cleared (R22). -/
abbrev State.busError (s t : State) (cause a : Nat) : Prop :=
  t.dev.fld Reg.BUS_ERR_STAT Fld.BUS_ERR_STAT_VALID = 1 ∧ t.dev.fld Reg.BUS_ERR_STAT Fld.BUS_ERR_STAT_CAUSE = cause ∧
    t.dev.fld Reg.BUS_ERR_STAT Fld.BUS_ERR_STAT_WRITE = 1 ∧ t.dev.rd Reg.BUS_ERR_ADDR = natW a ∧ t.dev.fc.raised 40 ∧
    t.dev = { s.dev.quiet with regs := t.dev.regs, fc := t.dev.fc } ∧ s.dev.regsBut t.dev [Reg.BUS_ERR_STAT, Reg.BUS_ERR_ADDR] ∧
    s.dev.fc.pairsBut t.dev.fc [40] ∧ t.nv = s.nv ∧ t.pending = s.pending

/-- An event of the keep domain or of the reset itself, which a device held in reset does not stop (R381, R396). -/
def keepEvent : Instr → Bool
  | .deviceReset _ | .deviceResetRelease _ | .keepSupplyChange _ _ _ | .keepMeasure _ _ _ _ | .burstStart _ _ _ _ | .burstDone
  | .pfail | .rtcAlarm | .tamper _ | .mppsetRead _ _ | .feramRefresh _ | .keepPowerOn => true
  | _ => false

/-- Non-volatile storage and the queue of waiting commands are as before. -/
abbrev State.sameStore (s t : State) : Prop := t.nv = s.nv ∧ t.pending = s.pending

/-- The block goes on: the answer of a step is a next state. -/
def Out.goesOn (o : Out) : Bool :=
  match o with
  | .next _ => true
  | _ => false

/-! ### Engine runs -/

/-- The run of the pair or the proof run, where one is in progress. -/
def SecState.runOf (x : SecState) (e : EngSel) : EngRun := (x.engRun e).getD {}

/-- Element j of a vector source field: bits [5:0] the first register, bit 6 context 0 (R178). -/
def EngRun.srcAt (r : EngRun) (f j : Nat) : Int := r.reg (if f / 64 % 2 = 1 then 0 else r.ctx) (f % 64 + j)

/-- Element j of source B, the same register for every element with BC (R182). -/
def EngRun.srcBAt (r : EngRun) (a j : Nat) : Int := if Nat.testBit a 5 then r.srcAt (fB a) 0 else r.srcAt (fB a) j

/-- Coefficient word k of what an engine has been loaded with, signed. -/
def EngImg.coefI (i : EngImg) (k : Nat) : Int := (Tbl.get (fun _ => (0 : W)) i.coef k).toInt

/-- The fields of an instruction that names a vector destination, a vector source and its length lie in the register
file. -/
abbrev vecFits (a : Nat) : Prop := fD a + fN a ≤ 64 ∧ fA a % 64 + fN a ≤ 64

/-- The same with source B. -/
abbrev vecFitsB (a : Nat) : Prop := vecFits a ∧ (Nat.testBit a 5 = true ∨ fB a % 64 + fN a ≤ 64)

/-- An instruction is issued on a run that has the clocks left for it (R152, R176), and the engines of a pair in
lockstep agree on it (R168). -/
abbrev State.issues (s : State) (sc : Sec) (e : EngSel) (op : Nat) (args : BitVec 26) (r : EngRun) (clocks : Nat) : Prop :=
  s.awake ∧ (s.dev.sc sc).issue e op args = .go r ∧ r.exe + clocks ≤ ((s.dev.sc sc).imgOf e).worst ∧
    (e = .split → (s.dev.sc sc).eng.mode ≠ 0)

/-- An instruction has changed nothing but the run it belongs to and the context that ENG_STAT shows. -/
abbrev State.ranOnly (s t : State) (sc : Sec) (e : EngSel) : Prop :=
  s.sameStore t ∧ t.dev = { s.dev.quiet with sec := t.dev.sec } ∧ s.dev.secsBut t.dev [sc] ∧
    ((t.dev.sc sc).engRun e).isSome = true ∧
    t.dev.sc sc = { s.dev.sc sc with
      eng := { (s.dev.sc sc).eng with run := (t.dev.sc sc).eng.run, prun := (t.dev.sc sc).eng.prun, ctx := (t.dev.sc sc).eng.ctx } } ∧
    (if e = .proof then (t.dev.sc sc).eng.run = (s.dev.sc sc).eng.run else (t.dev.sc sc).eng.prun = (s.dev.sc sc).eng.prun)

/-- The section, engine, opcode and arguments of an engine instruction. -/
def engineOp : Instr → Option (Sec × EngSel × Nat × BitVec 26)
  | .nop s e a => some (s, e, 0x01, a) | .br s e a => some (s, e, 0x02, a) | .call s e a => some (s, e, 0x03, a)
  | .ret s e a => some (s, e, 0x04, a) | .wait s e a => some (s, e, 0x05, a) | .next s e a => some (s, e, 0x06, a)
  | .commit s e a _ => some (s, e, 0x07, a) | .mov s e a => some (s, e, 0x08, a) | .ldk s e a => some (s, e, 0x09, a)
  | .ldi s e a => some (s, e, 0x0A, a) | .cvt s e a => some (s, e, 0x0B, a) | .vadd s e a => some (s, e, 0x10, a)
  | .vsub s e a => some (s, e, 0x11, a) | .vmul s e a => some (s, e, 0x12, a) | .vmac s e a => some (s, e, 0x13, a)
  | .vneg s e a => some (s, e, 0x14, a) | .vabs s e a => some (s, e, 0x15, a) | .kmul s e a => some (s, e, 0x16, a)
  | .kadd s e a => some (s, e, 0x17, a) | .cmp s e a => some (s, e, 0x18, a) | .lim s e a => some (s, e, 0x19, a)
  | .vlim s e a => some (s, e, 0x1A, a) | .vlim2 s e a => some (s, e, 0x1B, a) | .rot s e a => some (s, e, 0x1C, a)
  | .mvm s e a => some (s, e, 0x20, a) | .lut s e a => some (s, e, 0x21, a) | .lsel s e a => some (s, e, 0x22, a)
  | .pstep s e a => some (s, e, 0x24, a) | .ptgt s e a => some (s, e, 0x25, a) | .pset s e a => some (s, e, 0x26, a)
  | .py s e a => some (s, e, 0x27, a) | .rdw s e a => some (s, e, 0x28, a) | .wavg s e a => some (s, e, 0x29, a)
  | .rdi s e a => some (s, e, 0x2A, a) | .duty s e a => some (s, e, 0x2C, a) | .dset s e a => some (s, e, 0x2D, a)
  | .out s e a => some (s, e, 0x2E, a) | .req s e a => some (s, e, 0x2F, a) | .send s e a => some (s, e, 0x30, a)
  | _ => none

/-- The result registers of accumulator k. -/
def accRegs (k : Nat) : List Nat := [Reg.ACC_STAT k, Reg.ACC_SUM k, Reg.ACC_MINMAX k, Reg.ACC_TSTAMP k]

/-- What the codes of channel c can write in the section: its saturation mark and the results of its accumulators. -/
def chanRegs (c : Nat) : List Nat := Reg.ADC_SAT :: [0, 1, 2, 3].flatMap (fun a => accRegs (4 * c + a))

/-- Converter codes have been taken in section sc: they change its windows, streams and saturation, and the metering
points that the streams feed, and of the section's registers those listed. -/
abbrev State.fed (s t : State) (sc : Sec) (as : List Nat) : Prop :=
  s.sameStore t ∧ s.dev.secsBut t.dev [sc] ∧
    t.dev = { s.dev with regs := t.dev.regs, sec := t.dev.sec, points := t.dev.points, fc := t.dev.fc, freeCount := t.dev.freeCount } ∧
    s.dev.regsBut t.dev ((upTo 8).map Reg.MP_STAT) ∧ s.dev.fc.pairsBut t.dev.fc [22] ∧
    (let x := s.dev.sc sc
     let x' := t.dev.sc sc
     x' = { x with
       regs := x'.regs, accs := x'.accs, fifo := x'.fifo, lastClose := x'.lastClose, dec := x'.dec, drain := x'.drain
       satPair := x'.satPair, fc := x'.fc } ∧ x.regsBut x' as)

/-- An accumulator whose network-time boundary has come (R84). -/
abbrev SecState.timeDue (x : SecState) (k now : Nat) : Prop :=
  x.armed k = true ∧ x.accMode k = 2 ∧ ∃ b, (x.acc k).due = some b ∧ b ≤ now

/-- Two tables of words agree outside n keys from k on. -/
def sameOutside (m m' : Tbl W) (k n : Nat) : Prop :=
  ∀ j, j < k ∨ k + n ≤ j → Tbl.get (fun _ => (0 : W)) m' j = Tbl.get (fun _ => (0 : W)) m j

/-- A run after an instruction of so many clocks that may write registers, flags L and W, and saturation marks, and
goes on to the next address. -/
abbrev EngRun.wroteRegs (r r' : EngRun) (d n clocks : Nat) : Prop :=
  r' = { r with clk := r.clk + clocks, exe := r.exe + clocks, pc := r.pc + 1, satf := r'.satf, marks := r'.marks, l := r'.l
                w := r'.w, st := { r.st with wreg := r'.st.wreg } } ∧
    sameOutside r.st.wreg r'.st.wreg (64 * r.ctx + d) n

/-- The destination registers d to d + n - 1 of the running context hold the values, SATF gathers what saturated, and
no other register changes. -/
abbrev EngRun.gave (r r' : EngRun) (d n clocks : Nat) (v : Nat → Int × Bool) : Prop :=
  (∀ j, j < n → r'.reg r.ctx (d + j) = (v j).1) ∧ r'.satf = (r.satf || (upTo n).any (fun j => (v j).2)) ∧
    r.wroteRegs r' d n clocks

/-- TICK_CFG selects the trigger that has come (R12): a carrier event of the master leg that has triggered no tick
yet, or an expiry of a running section time base, whole periods after the last accepted trigger. -/
abbrev SecState.selects (x : SecState) (clk : Nat) : Prop :=
  if x.fld Reg.TICK_CFG Fld.TICK_CFG_SRC = 3 then
    x.fld Reg.TICK_CFG Fld.TICK_CFG_TB_PERIOD ≠ 0 ∧
      (x.rd Reg.TRIG_CNT = 0 ∨ clk % x.fld Reg.TICK_CFG Fld.TICK_CFG_TB_PERIOD = 0)
  else x.trig.isSome = true

/-! ### What a part of the device can change -/

/-- A register of the queue block or of a host port: what the rings write. -/
def queueReg (a : Nat) : Bool := decide (0x60000 ≤ a) && decide (a < 0x80000)

/-- The change of a device by the rings: only queue and port registers, the pool and the pair of QUEUE_DROP differ. -/
structure Dev.QueueOnly (d d' : Dev) : Prop where
  regs : ∀ a, queueReg a = false → d'.rd a = d.rd a
  rest : d' = { d with regs := d'.regs, pool := d'.pool, fc := d'.fc }
  pairs : d.fc.pairsBut d'.fc [41]
  kept : ∀ n, d.fc.raised n → d'.fc.raised n

/-- A device register that a section command can reach: SAFE_OUT, and the registers of the rings and ports. -/
def sectionReg (a : Nat) : Bool := a == Reg.SAFE_OUT || queueReg a

/-- The change of the device around section s by a command of that section. -/
structure Dev.SectionOnly (s : Sec) (d d' : Dev) : Prop where
  regs : ∀ a, sectionReg a = false → d'.rd a = d.rd a
  rest : d' = { d with
    regs := d'.regs, sec := d'.sec, fc := d'.fc, pool := d'.pool, safe := { d.safe with conf := d'.safe.conf, win := d'.safe.win }
    hp := d'.hp }
  others : ∀ k, k ≠ s → d'.sc k = d.sc k
  kept : ∀ n, d.fc.raised n → d'.fc.raised n

/-- A register that the gate stages and the sequencers write: GATE_STAT, GATE_EVCNT, FORCE_STAT, BR_STAT, BR_EVCNT, and
ISL_PSTAT, whose ARMED and checks follow the bridges (R223). -/
def gateLog (a : Nat) : Bool :=
  a == Reg.ISL_PSTAT || [0, 1, 2, 3].any (fun l => a == Reg.GATE_STAT l || a == Reg.GATE_EVCNT l || a == Reg.FORCE_STAT l || a == Reg.BR_STAT l ||
    a == Reg.BR_EVCNT l)

/-- The part of a leg that belongs to its carrier and its compares is as before. -/
def LegState.sameCarrier (L L' : LegState) : Prop :=
  L' = { L with
    perm := L'.perm, permEnds := L'.permEnds, req := L'.req, out := L'.out, wait := L'.wait, held := L'.held
    shoot := L'.shoot, offT := L'.offT, ball := L'.ball, blank := L'.blank, step := L'.step, frozen := L'.frozen
    allOff := L'.allOff, safeWait := L'.safeWait, clockDead := L'.clockDead, holdReload := L'.holdReload
    bsPulse := L'.bsPulse, bsEnd := L'.bsEnd, train := L'.train, trainDue := L'.trainDue, hiSince := L'.hiSince
    bsFrom := L'.bsFrom, loLast := L'.loLast, frozen5 := L'.frozen5 }

/-- The change of a section by its gate stages and sequencers. -/
structure SecState.GateOnly (x x' : SecState) : Prop where
  regs : ∀ a, gateLog a = false → x'.rd a = x.rd a
  rest : x' = { x with
    regs := x'.regs, fc := x'.fc, legs := x'.legs
    ast := { x.ast with seq := x'.ast.seq, pasRun := x'.ast.pasRun } }
  carrier : ∀ l, (x.lg l).sameCarrier (x'.lg l)
  kept : ∀ n, x.fc.raised n → x'.fc.raised n

/-- Every section register reads as before but those listed and those that the gate stages and sequencers write. -/
def SecState.gateRegsBut (x x' : SecState) (as : List Nat) : Prop := ∀ a, a ∉ as → gateLog a = false → x'.rd a = x.rd a

/-- A command has changed one section alone, around it only what a section's commands reach, and of its registers
those listed and those of the gates and sequencers. -/
abbrev State.inSec (s t : State) (sc : Sec) (as : List Nat) : Prop :=
  s.sameStore t ∧ Dev.SectionOnly sc s.dev t.dev ∧ (s.dev.sc sc).gateRegsBut (t.dev.sc sc) as

/-- The same of a software write, which begins with no write to non-volatile storage ordered. -/
abbrev State.wroteSec (s t : State) (sc : Sec) (as : List Nat) : Prop :=
  s.sameStore t ∧ Dev.SectionOnly sc s.dev.quiet t.dev ∧ (s.dev.sc sc).gateRegsBut (t.dev.sc sc) as

/-- A BR_CMD has been queued for bridge b, the command bits n. -/
abbrev State.brQueued (s t : State) (sc : Sec) (b : Bridge) (n : Nat) : Prop :=
  s.wroteSec t sc [] ∧ ((t.dev.sc sc).ast.seq.get b).cmds = ((s.dev.sc sc).ast.seq.get b).cmds ++ [n]

/-- A BR_CMD has been turned away with one flag of BR_STAT. -/
abbrev State.brTurned (s t : State) (sc : Sec) (b : Bridge) (f : Field) : Prop :=
  s.wroteSec t sc [] ∧ (t.dev.sc sc).flag (Reg.BR_STAT b.val) f = true ∧
    ((t.dev.sc sc).ast.seq.get b).cmds = ((s.dev.sc sc).ast.seq.get b).cmds

/-- No live bridge of the section has a latch in one of its legs: none is about to go to SAFE (R205). -/
abbrev SecState.calm (x : SecState) : Prop :=
  ∀ b : Bridge, (x.bridges.get b).kind = 0 ∨ x.brLive b = false ∨ x.brLatch b = 0

/-- The carriers of every leg of a section but one are as before. -/
def SecState.carriersBut (x x' : SecState) (l : Fin 4) : Prop := ∀ k, k ≠ l → (x.lg k).sameCarrier (x'.lg k)

/-! ### Fault collectors -/

/-- The collector that takes source g: the device's, or that of a section (R256). -/
def Dev.ioOf (d : Dev) (g : Nat) : FcIO := if g < 64 then d.fcIO else (d.sc (srcSec g)).fcIO (srcSec g)

/-- The number of source g in its collector. -/
def locOf (g : Nat) : Nat := if g < 64 then g else srcLoc g

/-- The collector of source g has its clock. -/
def Dev.fcUp (d : Dev) (g : Nat) : Bool := decide (g < 64) || d.secUp (srcSec g)

/-- The events counted in the window of a source with the next one (R263). -/
def FcIO.escNext (io : FcIO) (n : Nat) : Nat :=
  if fbit Fld.FC_ESC_OPEN (io.rd (0x400 + 4 * n)) then min 255 (fget Fld.FC_ESC_COUNT (io.rd (0x400 + 4 * n)) + 1) else 1

/-- The next event of a source is escalated: its N is not 0 and reached (R263). -/
def FcIO.escalates (io : FcIO) (n : Nat) : Bool :=
  decide (bitsN (io.rd (0x200 + 4 * n)).toNat 13 6 ≠ 0) && decide (bitsN (io.rd (0x200 + 4 * n)).toNat 13 6 ≤ io.escNext n)

/-- The severity at which the next event of a source is applied (R262, R263). -/
def FcIO.nextSev (io : FcIO) (n : Nat) : Nat :=
  if io.escalates n then bitsN (io.rd (0x200 + 4 * n)).toNat 5 3 else bitsN (io.rd (0x200 + 4 * n)).toNat 2 0

/-- Only the collector of source g differs. -/
def Dev.fcOnly (g : Nat) (d d' : Dev) : Prop :=
  if g < 64 then d' = { d with regs := d'.regs, fc := d'.fc } ∧ ∀ a, a / 0x10000 ≠ 2 → d'.rd a = d.rd a
  else d' = { d with sec := d'.sec } ∧ d.secsBut d' [srcSec g] ∧
    d'.sc (srcSec g) = { d.sc (srcSec g) with regs := (d'.sc (srcSec g)).regs, fc := (d'.sc (srcSec g)).fc } ∧
    ∀ a, a / 0x10000 ≠ 5 → (d'.sc (srcSec g)).rd a = (d.sc (srcSec g)).rd a

/-- Every device register reads as before but those listed and those that the rings write. -/
def Dev.ringRegsBut (d d' : Dev) (as : List Nat) : Prop := ∀ a, a ∉ as → queueReg a = false → d'.rd a = d.rd a

/-! ### The safety block -/

/-- Only the safety block, the gate stages and sequencers of the sections, the fault pairs, and what the rings and
ports show of its changes differ. -/
abbrev Dev.safeOnly (d d' : Dev) : Prop :=
  d' = { d with regs := d'.regs, fc := d'.fc, pool := d'.pool, safe := d'.safe, sec := d'.sec, hp := d'.hp } ∧
    (∀ a, a / 0x10000 ≠ 3 → queueReg a = false → d'.rd a = d.rd a) ∧ ∀ sc, (d.sc sc).gateRegsBut (d'.sc sc) []

/-- Stage 5 has taken every leg, and the outputs are to be de-energised (R286). -/
abbrev Dev.removing (d : Dev) : Prop := d.safe.step5 = 1 ∧ d.safe.offPend = true ∧ ∀ sc, (d.sc sc).safe5 = 1

/-- The block is in LOCKOUT with a cause recorded and stamped; a lock-out that it was not in yet is counted and raises
SAFE_LOCKOUT, and from READY and RAMP it is a category-0 stop (R283, R285, R290). -/
abbrev Dev.lockedOut (d d' : Dev) (cause : Nat) : Prop :=
  d'.safeSt = 4 ∧ wbit (d'.rd Reg.SAFE_CAUSE) cause = true ∧
    (d.safeSt = 4 → d'.rd Reg.SAFE_TRIP_TIME = d.rd Reg.SAFE_TRIP_TIME ∧ d'.rd Reg.SAFE_STATE = d.rd Reg.SAFE_STATE) ∧
    (d.safeSt ≠ 4 → d'.rd Reg.SAFE_TRIP_TIME = d.stamp ∧ d'.fc.raised 20 ∧ d'.fld Reg.SAFE_STATE Fld.SAFE_STATE_PREV = d.safeSt ∧
      d'.fld Reg.SAFE_EVCNT Fld.SAFE_EVCNT_LOCKS = min 255 (d.fld Reg.SAFE_EVCNT Fld.SAFE_EVCNT_LOCKS + 1)) ∧
    (d.safeSt = 2 ∨ d.safeSt = 3 → d'.removing) ∧ d.safeOnly d'

/-- The energies in units of 2^-32 of the word that an ended cycle adds to the totals (R240 to R242), each with its
quantity. -/
abbrev Dev.cycleUnits (d : Dev) (p : Nat) (c : Cycle) : List (Nat × Nat) :=
  ({ d with freeCount := d.freeCount + 192 } : Dev).cycleEnergies p (d.cycleQuants p (d.cycleData p c) (c.stop - c.start))

/-! ### The auxiliary supply -/

/-- The converter has entered HICCUP, counted in RETRY, or with RETRY at 8 LATCHED with AUX_SC (R376). -/
abbrev State.auxHiccuped (s t : State) : Prop :=
  s.sameStore t ∧ t.dev.aux.on = 0 ∧ t.dev.aux.icmd = 0 ∧ t.dev.aux.xi = 0 ∧
    (let n := s.dev.fld Reg.AUX_STAT Fld.AUX_STAT_RETRY
     (n = 8 → t.dev.auxState = 4 ∧ t.dev.fc.raised 32) ∧
     (n < 8 → t.dev.auxState = 3 ∧ t.dev.fld Reg.AUX_STAT Fld.AUX_STAT_RETRY = n + 1 ∧ t.dev.fc = s.dev.fc ∧
       t.dev.fld Reg.AUX_EVCNT Fld.AUX_EVCNT_HICCUP = min 255 (s.dev.fld Reg.AUX_EVCNT Fld.AUX_EVCNT_HICCUP + 1))) ∧
    t.dev = { s.dev with regs := t.dev.regs, aux := t.dev.aux, fc := t.dev.fc } ∧
    s.dev.regsBut t.dev [Reg.AUX_STAT, Reg.AUX_EVCNT] ∧ s.dev.fc.pairsBut t.dev.fc [32]

/-- Phase i has turned off, and nothing else has changed. -/
abbrev State.phaseOff (s t : State) (i : Fin 4) : Prop :=
  s.sameStore t ∧ t.dev.aux.on.getLsbD i.val = false ∧
    (∀ j, j < 4 → j ≠ i.val → t.dev.aux.on.getLsbD j = s.dev.aux.on.getLsbD j) ∧
    t.dev = { s.dev with aux := { s.dev.aux with on := t.dev.aux.on, off0 := t.dev.aux.off0 } }

/-! ### The forerunner's port -/

/-- Only the part of port k in compatibility mode differs. -/
abbrev Dev.portOnly (k : Port) (d d' : Dev) : Prop :=
  d' = { d with hp := d'.hp } ∧ (∀ j, j ≠ k → d'.hp.get j = d.hp.get j) ∧ (d'.hp.get k).data = (d.hp.get k).data

/-- A write of a claiming port has changed its section alone, of its registers those listed and those of the gates and
sequencers, and no other port. -/
abbrev State.portWrote (s t : State) (k : Port) (as : List Nat) : Prop :=
  s.inSec t k as ∧ (∀ j, j ≠ k → t.dev.hp.get j = s.dev.hp.get j) ∧ (t.dev.hp.get k).data = (s.dev.hp.get k).data

/-- The registers that a commit of a claiming port writes (R360, R361). -/
def compatShadow : List Nat :=
  [0, 1, 2].flatMap (fun l => [Reg.SH_PRD l, Reg.SH_CMP l 0, Reg.SH_CMP l 1, Reg.SH_CMP l 2, Reg.SH_CMP l 3, Reg.SH_FORCE l,
    Reg.SH_DT l 0, Reg.CAR_CFG l, Reg.LEG_STAT l])

/-- The level that R362 gives where OVR does not hold a phase and OUTEN lets it follow: 1 low, 2 high, 0 follow. -/
def CompatPort.followed (p : CompatPort) (l : Nat) : Nat :=
  if p.rd (0x04 + l) = 0 then 1 else if p.rd 0x03 ≤ p.rd (0x04 + l) then 2 else 0

/-- The shadow set of a leg is as the registers of the port give it (R360, R362). -/
abbrev SecState.portShows (x : SecState) (p : CompatPort) (l : Fin 4) : Prop :=
  x.rd (Reg.SH_PRD l.val) = natW (p.rd 0x03) ∧
    (∀ j, j < 4 → x.rd (Reg.SH_CMP l.val j) = natW (p.rd (0x04 + l.val) * 128)) ∧
    x.rd (Reg.SH_DT l.val 0) = natW (p.rd 0x07 * 128 * 65536 + p.rd 0x07 * 128) ∧
    x.fld (Reg.CAR_CFG l.val) Fld.CAR_CFG_RELOAD = (if Nat.testBit (p.rd 0x01) 1 then 2 else 0) ∧
    bitsN (x.rd (Reg.SH_FORCE l.val)).toNat 1 0 =
      (if Nat.testBit (p.rd 0x09) 15 then (if Nat.testBit (p.rd 0x09) (2 * l.val) then 2 else 1)
       else if Nat.testBit (p.rd 0x0A) (2 * l.val) then p.followed l.val else 1) ∧
    bitsN (x.rd (Reg.SH_FORCE l.val)).toNat 3 2 =
      (if Nat.testBit (p.rd 0x09) 15 then (if Nat.testBit (p.rd 0x09) (2 * l.val + 1) then 1 else 2)
       else if Nat.testBit (p.rd 0x0A) (2 * l.val + 1) then p.followed l.val else 2)

/-- A port in compatibility mode that answers, its section having reached READY (R355, R357). -/
abbrev State.portLive (s : State) (k : Port) : Prop :=
  s.awake ∧ s.dev.portCompat k.val = true ∧ (s.dev.cp k).live = true

end Sys2Proof.Machine
end

