-- ==== Sys2Proof/Certificates/Slice0/Obligations.lean ====
section
/-! DEFINITION. The statements for the provers, by chapter of the spec. A statement about a command says that it completes
in a next state under hypotheses on the state and the operands, what that state holds, and what it leaves as it was. -/

open Sys2Proof Sys2Proof.Machine

/-! ### The block as a whole -/

/-- A step takes the command at the front of the queue and runs it with the rest of the queue. -/
def Obligations.StepRunsFrontCommand : Prop :=
  ∀ (s : State) (c : Instr) (rest : List Instr),
    step { s with pending := c :: rest } = exec c { s with pending := rest }

/-- Part of R334, R335, R336, R342, R431: from every state whose memories, fuses and counters are in order, a step leaves them in order,
whatever command it runs and with an empty queue too; and on the way fuses are only burned and counters only rise. -/
def Obligations.StepsKeepMemoriesAndOnlyBurnFuses : Prop :=
  ∀ s t : State, s.nv.Inv → step s = .next t → t.nv.Inv ∧ NonVol.Onward s.nv t.nv

/-- What reset leaves: the queue is empty and reset is released, the device is in BOOT and every section OFF (R24, R26), no fault
source is driven and nothing is logged (R260, R271), the safety block is in INIT with nothing energised (R284), and the memories,
fuses and counters are in order. -/
def Obligations.ResetLeavesTheDeviceInBoot : Prop :=
  State.reset.pending = [] ∧ State.reset.awake ∧ State.reset.dev.devState = 1 ∧ (∀ sc, State.reset.dev.secSt sc = 0) ∧
    (∀ n, ¬State.reset.dev.fc.raised n) ∧ (∀ sc n, ¬(State.reset.dev.sc sc).fc.raised n) ∧ State.reset.dev.fc.log = [] ∧
    State.reset.dev.fld Reg.SAFE_STATE Fld.SAFE_STATE_STATE = 0 ∧ State.reset.dev.fld Reg.SAFE_OUT Fld.SAFE_OUT_SO = 0 ∧
    State.reset.dev.fld Reg.SAFE_OUT Fld.SAFE_OUT_GATE_EN = 0 ∧ State.reset.nv.Inv

/-! ### Clocks and the reference (spec/03_clocks.md) -/

/-- Part of R70: a loss of REFCLK takes the PLLs into holdover, ends a return in progress and raises REF_LOST; once T_MS expires with REFCLK
still lost, FALLBACK sets and REF_FALLBACK is raised, and PLL_FREQ keeps its values. REFCLK back in holdover ends the holdover; back
in fall-back it starts the return only with AUTO_RETURN 1, and otherwise the return waits for REF_CMD.RETURN. A return sets
RETURNING and gives every PLL that is on its distance from the programmed frequency; a step of it moves one PLL by at most 1,000 ppm
towards that frequency, and with the last PLL back RETURNING and FALLBACK clear. -/
def Obligations.ReferenceLossHoldoverFallbackAndReturn : Prop :=
  (∀ s : State, s.awake →
    ∃ t, exec .refclkLost s = .next t ∧ s.sameStore t ∧
      t.dev.fld Reg.REF_STAT Fld.REF_STAT_HOLDOVER = 1 ∧ t.dev.fld Reg.REF_STAT Fld.REF_STAT_REF_OK = 0 ∧
      t.dev.fld Reg.REF_STAT Fld.REF_STAT_RETURNING = 0 ∧
      t.dev.fld Reg.REF_STAT Fld.REF_STAT_FALLBACK = s.dev.fld Reg.REF_STAT Fld.REF_STAT_FALLBACK ∧
      t.dev.fc.raised 2 ∧ t.dev = { s.dev with regs := t.dev.regs, fc := t.dev.fc } ∧ s.dev.regsBut t.dev [Reg.REF_STAT] ∧ s.dev.fc.pairsBut t.dev.fc [2]) ∧
  (∀ (s : State) (rc : Int), s.awake → s.dev.flag Reg.REF_STAT Fld.REF_STAT_HOLDOVER = true →
    s.dev.flag Reg.REF_STAT Fld.REF_STAT_REF_OK = false →
    ∃ t, exec (.holdoverExpiry rc) s = .next t ∧ s.sameStore t ∧
      t.dev.fld Reg.REF_STAT Fld.REF_STAT_HOLDOVER = 0 ∧ t.dev.fld Reg.REF_STAT Fld.REF_STAT_FALLBACK = 1 ∧
      t.dev.fc.raised 3 ∧ t.dev.rcPpm = rc ∧ t.dev = { s.dev with regs := t.dev.regs, fc := t.dev.fc, rcPpm := rc } ∧
      s.dev.regsBut t.dev [Reg.REF_STAT] ∧ s.dev.fc.pairsBut t.dev.fc [3]) ∧
  (∀ (s : State) (drift : Int), s.awake → s.dev.flag Reg.REF_STAT Fld.REF_STAT_FALLBACK = false →
    ∃ t, exec (.refclkAccepted drift) s = .next t ∧ s.sameStore t ∧
      t.dev.fld Reg.REF_STAT Fld.REF_STAT_REF_OK = 1 ∧ t.dev.fld Reg.REF_STAT Fld.REF_STAT_HOLDOVER = 0 ∧
      t.dev = { s.dev with regs := t.dev.regs } ∧ s.dev.regsBut t.dev [Reg.REF_STAT]) ∧
  (∀ (s : State) (drift : Int), s.awake → s.dev.flag Reg.REF_STAT Fld.REF_STAT_FALLBACK = true →
    s.dev.flag Reg.REF_STAT Fld.REF_STAT_RETURNING = false →
    ∃ t, exec (.refclkAccepted drift) s = .next t ∧ s.sameStore t ∧
      t.dev.fld Reg.REF_STAT Fld.REF_STAT_RETURNING = b2n (s.dev.flag Reg.REF_CFG Fld.REF_CFG_AUTO_RETURN) ∧
      t.dev.fld Reg.REF_STAT Fld.REF_STAT_FALLBACK = s.dev.fld Reg.REF_STAT Fld.REF_STAT_FALLBACK ∧
      (∀ p, p < 7 → (t.dev.pll p).off = if s.dev.flag Reg.REF_CFG Fld.REF_CFG_AUTO_RETURN && s.dev.pllOn p then drift
        else (s.dev.pll p).off) ∧ s.dev.regsBut t.dev [Reg.REF_STAT]) ∧
  (∀ (s : State) (w : W) (drift : Int), s.ready → keyIs w 0x5AC3 = true → wbit w 0 = true →
    s.dev.flag Reg.REF_STAT Fld.REF_STAT_REF_OK = true → s.dev.flag Reg.REF_STAT Fld.REF_STAT_FALLBACK = true →
    s.dev.flag Reg.REF_STAT Fld.REF_STAT_RETURNING = false →
    ∃ t, exec (.refCmdReturn w drift) s = .next t ∧ s.sameStore t ∧
      t.dev.fld Reg.REF_STAT Fld.REF_STAT_RETURNING = 1 ∧
      (∀ p, p < 7 → (t.dev.pll p).off = if s.dev.pllOn p then drift else (s.dev.pll p).off) ∧
      s.dev.regsBut t.dev [Reg.REF_STAT]) ∧
  (∀ (s : State) (p : Fin 7), s.awake → s.dev.flag Reg.REF_STAT Fld.REF_STAT_RETURNING = true →
      ∃ t, exec (.returnStep p) s = .next t ∧ s.sameStore t ∧
        (t.dev.pll p).off.natAbs = (s.dev.pll p).off.natAbs - 1000 ∧
        0 ≤ (t.dev.pll p).off * (s.dev.pll p).off ∧
        (∀ q, q ≠ p.val → t.dev.pll q = s.dev.pll q) ∧
        ((∀ q, q < 7 → s.dev.pllOn q = true → (t.dev.pll q).off = 0) →
          t.dev.fld Reg.REF_STAT Fld.REF_STAT_FALLBACK = 0 ∧ t.dev.fld Reg.REF_STAT Fld.REF_STAT_RETURNING = 0) ∧
        (¬(∀ q, q < 7 → s.dev.pllOn q = true → (t.dev.pll q).off = 0) → t.dev.regs = s.dev.regs) ∧
        s.dev.regsBut t.dev [Reg.REF_STAT] ∧ t.dev.sec = s.dev.sec ∧ t.dev.fc = s.dev.fc)

/-- Part of R65: a PLL that is on and not locked takes the lowest-numbered valid band entry that contains its whole VCO range and
sets LOCK; with no such entry NO_BAND sets and it does not lock. -/
def Obligations.LockTakesLowestBand : Prop :=
  (∀ (s : State) (p : Fin 7) (i : Nat), s.awake → s.dev.pllOn p.val = true → s.dev.locked p.val = false →
    freqValid (s.dev.rd (Reg.PLL_FREQ p.val)) = true → i < 16 → s.dev.bandFits p.val i = true →
    (∀ j, j < i → s.dev.bandFits p.val j = false) →
    ∃ t, exec (.pllLock p) s = .next t ∧ s.sameStore t ∧ t.dev.fld (Reg.PLL_STAT p.val) Fld.PLL_STAT_LOCK = 1 ∧
      (t.dev.pll p.val).band = some (fget Fld.BAND_F_LO (s.dev.rd (Reg.BAND p.val i)), fget Fld.BAND_F_HI (s.dev.rd (Reg.BAND p.val i))) ∧
      (∀ q, q ≠ p.val → t.dev.pll q = s.dev.pll q) ∧ s.dev.regsBut t.dev [Reg.PLL_STAT p.val, Reg.TIME_STAT] ∧
      (p.val ≠ 6 ∨ s.dev.fld (Reg.PLL_DIV 6) Fld.PLL_DIV_OUT1 ≠ 0 → t.dev.isl = s.dev.isl) ∧
      t.dev = { s.dev with regs := t.dev.regs, plls := t.dev.plls, isl := t.dev.isl }) ∧
  (∀ (s : State) (p : Fin 7), s.awake → s.dev.pllOn p.val = true → s.dev.locked p.val = false →
    freqValid (s.dev.rd (Reg.PLL_FREQ p.val)) = true → (∀ i, i < 16 → s.dev.bandFits p.val i = false) →
    ∃ t, exec (.pllLock p) s = .next t ∧ s.sameStore t ∧ t.dev.fld (Reg.PLL_STAT p.val) Fld.PLL_STAT_NO_BAND = 1 ∧
      t.dev.locked p.val = false ∧ t.dev = { s.dev with regs := t.dev.regs } ∧ s.dev.regsBut t.dev [Reg.PLL_STAT p.val])

/-- Part of R24, R26, R71, R275, R301, R371: a lost section, ADC or NET clock raises its source, SEC_CLK_LOST of the section, ADC_CLK_LOST
or NET_CLK_LOST, in lock as well as after software has switched the PLL off; an unlocked PLL clears LOCK and sets LOST; with the
NET clock the time counter halts and its value holds. With the SYS clock lost the device enters SAFE with FC_LAST_SAFE.CAUSE 3, every section that is READY, ENABLED or COUCHING goes to
STOPPING, and every AXG ball is low. A section whose clock is missing goes to STOPPING, its runs end, SEC_STOPs is raised and no
other section changes. -/
def Obligations.ClockLossRaisesAndStops : Prop :=
  (∀ (s : State) (sc : Sec), s.awake → s.dev.clockWatched (1 + sc.val) = true →
    ∃ t, exec (.secPllUnlock sc) s = .next t ∧ s.sameStore t ∧ t.dev.fc.raised (6 + sc.val) ∧
      t.dev.fld (Reg.PLL_STAT (1 + sc.val)) Fld.PLL_STAT_LOCK = 0 ∧ t.dev.fld (Reg.PLL_STAT (1 + sc.val)) Fld.PLL_STAT_LOST = 1 ∧
      t.dev = { s.dev with regs := t.dev.regs, fc := t.dev.fc } ∧ s.dev.regsBut t.dev [Reg.PLL_STAT (1 + sc.val)] ∧ s.dev.fc.pairsBut t.dev.fc [6 + sc.val]) ∧
  (∀ (s : State) (unlock : Bool), s.awake → s.dev.clockWatched 5 = true →
    ∃ t, exec (.adcClockLost unlock) s = .next t ∧ s.sameStore t ∧ t.dev.fc.raised 4 ∧
      t.dev.locked 5 = (s.dev.locked 5 && !unlock) ∧
      t.dev = { s.dev with regs := t.dev.regs, fc := t.dev.fc } ∧ s.dev.regsBut t.dev [Reg.PLL_STAT 5] ∧ s.dev.fc.pairsBut t.dev.fc [4]) ∧
  (∀ (s : State) (unlock : Bool), s.awake → s.dev.clockWatched 6 = true →
    ∃ t, exec (.netClockLost unlock) s = .next t ∧ s.sameStore t ∧ t.dev.fc.raised 5 ∧
      t.dev.fld Reg.TIME_STAT Fld.TIME_STAT_HALTED = 1 ∧ t.dev.fld Reg.TIME_STAT Fld.TIME_STAT_RUNNING = 0 ∧
      t.dev.locked 6 = (s.dev.locked 6 && !unlock) ∧ t.dev.timeNs = s.dev.timeNs ∧ t.dev.isl.toFree = true ∧
      t.dev = { s.dev with regs := t.dev.regs, fc := t.dev.fc, isl := { s.dev.isl with toFree := true, toAligned := false } } ∧ s.dev.regsBut t.dev [Reg.PLL_STAT 6, Reg.TIME_STAT] ∧ s.dev.fc.pairsBut t.dev.fc [5]) ∧
  (∀ (s : State) (unlock : Bool), s.awake → s.dev.clockWatched 0 = true → s.dev.devState ≠ 5 → s.dev.devState ≠ 6 →
    ∃ t, exec (.sysClockLost unlock) s = .next t ∧ s.sameStore t ∧ t.dev.devState = 5 ∧
      t.dev.rd Reg.FC_LAST_SAFE = 0xC0000000 ∧ t.dev.aux.on = 0 ∧ t.dev.locked 0 = (s.dev.locked 0 && !unlock) ∧
      (∀ sc, t.dev.secSt sc = if s.dev.secSt sc = 3 ∨ s.dev.secSt sc = 4 ∨ s.dev.secSt sc = 7 then 5 else s.dev.secSt sc)) ∧
  (∀ (s : State) (sc : Sec), s.awake → s.dev.secSt sc = 3 ∨ s.dev.secSt sc = 4 ∨ s.dev.secSt sc = 7 →
    ∃ t, exec (.secClockMissing sc) s = .next t ∧ s.sameStore t ∧ t.dev.secSt sc = 5 ∧ t.dev.fc.raised (44 + sc.val) ∧
      (t.dev.sc sc).eng.run = none ∧ (t.dev.sc sc).eng.prun = none ∧ s.dev.secsBut t.dev [sc])

/-- Part of R66, R67, R68: the end of a frequency step clears SETTLING; an accepted spread setting takes effect at the triangle
minimum; a phase step moves the PLL by one step towards the commanded count and PH_BUSY clears with the last. -/
def Obligations.PllStepsComplete : Prop :=
  (∀ (s : State) (p : Fin 7), s.awake →
    ∃ t, exec (.freqStepSettled p) s = .next t ∧ s.sameStore t ∧ t.dev.fld (Reg.PLL_STAT p.val) Fld.PLL_STAT_SETTLING = 0 ∧
      t.dev = { s.dev with regs := t.dev.regs } ∧ s.dev.regsBut t.dev [Reg.PLL_STAT p.val]) ∧
  (∀ (s : State) (p : Fin 7), s.awake → (s.dev.pll p).ssPend = true →
    ∃ t, exec (.spreadChangeApply p) s = .next t ∧ s.sameStore t ∧ (t.dev.pll p).ssOn = s.dev.rd (Reg.PLL_SS p.val) ∧
      (t.dev.pll p).ssPend = false ∧ (∀ q, q ≠ p.val → t.dev.pll q = s.dev.pll q) ∧ t.dev = { s.dev with plls := t.dev.plls }) ∧
  (∀ (s : State) (p : Fin 7) (n : Int), s.awake → s.dev.flag (Reg.PLL_STAT p.val) Fld.PLL_STAT_PH_BUSY = true →
    sgn 16 (s.dev.fld (Reg.PLL_STAT p.val) Fld.PLL_STAT_PH_REMAIN) = n → n ≠ 0 →
    ∃ t, exec (.phaseStepApply p) s = .next t ∧ s.sameStore t ∧
      (t.dev.pll p).phase = (s.dev.pll p).phase + n.sign ∧
      sgn 16 (t.dev.fld (Reg.PLL_STAT p.val) Fld.PLL_STAT_PH_REMAIN) = n - n.sign ∧
      (t.dev.flag (Reg.PLL_STAT p.val) Fld.PLL_STAT_PH_BUSY = true ↔ n ≠ n.sign) ∧
      (∀ q, q ≠ p.val → t.dev.pll q = s.dev.pll q) ∧ s.dev.regsBut t.dev [Reg.PLL_STAT p.val])

/-- Part of R63, R66: a PLL_FREQ write outside the allowed range, while SETTLING, or of more than 1,000 ppm while the domain runs is
refused with FREQ_REF and leaves PLL_FREQ; one of at most 1,000 ppm inside the band is applied with SETTLING; one to a PLL
that is off is held for its EN. -/
def Obligations.PllFreqWriteAppliesOrRefuses : Prop :=
  (∀ (s : State) (p : Fin 7) (v : W), s.ready → freqValid v = true →
    s.dev.flag (Reg.PLL_STAT p.val) Fld.PLL_STAT_SETTLING = false → s.dev.smallStep p.val v = true →
    ∃ t, exec (.pllFreqWrite p v) s = .next t ∧ s.sameStore t ∧ t.dev.rd (Reg.PLL_FREQ p.val) = v ∧
      t.dev.fld (Reg.PLL_STAT p.val) Fld.PLL_STAT_SETTLING = 1 ∧ t.dev.locked p.val = s.dev.locked p.val ∧
      t.dev = { s.dev.quiet with regs := t.dev.regs } ∧ s.dev.regsBut t.dev [Reg.PLL_FREQ p.val, Reg.PLL_STAT p.val]) ∧
  (∀ (s : State) (p : Fin 7) (v : W), s.ready → freqValid v = false ∨ s.dev.flag (Reg.PLL_STAT p.val) Fld.PLL_STAT_SETTLING = true ∨
      (s.dev.smallStep p.val v = false ∧ s.dev.domainRuns p.val = true) →
    ∃ t, exec (.pllFreqWrite p v) s = .next t ∧ s.sameStore t ∧
      t.dev.fld (Reg.PLL_STAT p.val) Fld.PLL_STAT_FREQ_REF = 1 ∧
      t.dev = { s.dev.quiet with regs := t.dev.regs } ∧ s.dev.regsBut t.dev [Reg.PLL_STAT p.val]) ∧
  (∀ (s : State) (p : Fin 7) (v : W), s.ready → freqValid v = true →
    s.dev.flag (Reg.PLL_STAT p.val) Fld.PLL_STAT_SETTLING = false → s.dev.locked p.val = false → s.dev.pllOn p.val = false →
    ∃ t, exec (.pllFreqWrite p v) s = .next t ∧ s.sameStore t ∧ t.dev.rd (Reg.PLL_FREQ p.val) = v ∧
      t.dev = { s.dev.quiet with regs := t.dev.regs } ∧ s.dev.regsBut t.dev [Reg.PLL_FREQ p.val])

/-- Part of R67, R68, R115: with its lock open, a spread setting that is allowed and stays inside the band is taken and waits for the
triangle minimum, any other sets SS_REF; a phase count starts a sequence of that many steps with PH_BUSY, and is refused with
PH_REF while one runs, by PLL_NET, and while the alignment of the section owns the steps. -/
def Obligations.PllSpreadAndPhaseWrites : Prop :=
  (∀ (s : State) (p : Fin 7) (v : W), s.ready → s.dev.rwpOpen (Reg.PLL_SS p.val) = true →
    ssAllowed p.val v = true → s.dev.ssInBand p.val v = true →
    ∃ t, exec (.pllSsWrite p v) s = .next t ∧ s.sameStore t ∧ t.dev.rd (Reg.PLL_SS p.val) = (v &&& 0xC01F0FFF) ∧
      (t.dev.pll p.val).ssPend = true ∧ (t.dev.pll p.val).ssOn = (s.dev.pll p.val).ssOn ∧
      (∀ q, q ≠ p.val → t.dev.pll q = s.dev.pll q) ∧ s.dev.regsBut t.dev [Reg.PLL_SS p.val] ∧
      t.dev = { s.dev.quiet with regs := t.dev.regs, plls := t.dev.plls }) ∧
  (∀ (s : State) (p : Fin 7) (v : W), s.ready → s.dev.rwpOpen (Reg.PLL_SS p.val) = true →
    (ssAllowed p.val v && s.dev.ssInBand p.val v) = false →
    ∃ t, exec (.pllSsWrite p v) s = .next t ∧ s.sameStore t ∧ t.dev.fld (Reg.PLL_STAT p.val) Fld.PLL_STAT_SS_REF = 1 ∧
      t.dev = { s.dev.quiet with regs := t.dev.regs } ∧ s.dev.regsBut t.dev [Reg.PLL_STAT p.val]) ∧
  (∀ (s : State) (p : Fin 7) (v : W), s.ready → p.val ≠ 6 → s.dev.phaseOwned p.val = false →
    s.dev.flag (Reg.PLL_STAT p.val) Fld.PLL_STAT_PH_BUSY = false → sgn 16 (fget Fld.PLL_PHASE_STEPS v) ≠ 0 →
    ∃ t, exec (.pllPhaseWrite p v) s = .next t ∧ s.sameStore t ∧
      t.dev.flag (Reg.PLL_STAT p.val) Fld.PLL_STAT_PH_BUSY = true ∧
      sgn 16 (t.dev.fld (Reg.PLL_STAT p.val) Fld.PLL_STAT_PH_REMAIN) = sgn 16 (fget Fld.PLL_PHASE_STEPS v) ∧
      t.dev = { s.dev.quiet with regs := t.dev.regs } ∧ s.dev.regsBut t.dev [Reg.PLL_STAT p.val]) ∧
  (∀ (s : State) (p : Fin 7) (v : W), s.ready → p.val = 6 ∨ s.dev.phaseOwned p.val = true ∨
      s.dev.flag (Reg.PLL_STAT p.val) Fld.PLL_STAT_PH_BUSY = true →
    ∃ t, exec (.pllPhaseWrite p v) s = .next t ∧ s.sameStore t ∧ t.dev.fld (Reg.PLL_STAT p.val) Fld.PLL_STAT_PH_REF = 1 ∧
      t.dev.fld (Reg.PLL_STAT p.val) Fld.PLL_STAT_PH_REMAIN = s.dev.fld (Reg.PLL_STAT p.val) Fld.PLL_STAT_PH_REMAIN ∧
      t.dev = { s.dev.quiet with regs := t.dev.regs } ∧ s.dev.regsBut t.dev [Reg.PLL_STAT p.val])


/-! ### Reset, boot and the states of the device and its sections (spec/01_architecture.md, spec/02_plates.md) -/

/-- Part of R308, R381, R393, R396, R398, R431: device reset takes every block but the keep domain to its reset values, with the device in
BOOT and every section OFF; the keep domain asks for it only after a power failure; loss of a core supply is first an entry into
SAFE, which the keep domain counts (the model's order, log entry 21). At its release each port takes its strap, the
device boot is counted, and the device goes on in the state its reset left; nothing but HP_STAT, the challenge and the keep
domain's hold changes. -/
def Obligations.DeviceResetAndItsRelease : Prop :=
  (∀ (s : State) (cause : ResetCause), cause ≠ .keep ∨ s.dev.keep.hold = true →
    ∃ t, exec (.deviceReset cause) s = .next t ∧ s.sameStore t ∧ t.dev.held = true ∧
      (cause ≠ .supply true ∨ s.dev.held = true → t.dev.keep = s.dev.keep) ∧
      (cause = .supply true → s.dev.held = false → s.dev.devState ≠ 5 → s.dev.devState ≠ 6 →
        t.dev.keep.hist.head? = some (s.dev.rd Reg.RTC_SEC)) ∧
      (∀ a, t.dev.rd a = if a / 0x10000 = 9 then s.dev.rd a else devReset a) ∧ t.dev.devState = 1 ∧
      (∀ sc, t.dev.secSt sc = 0) ∧ t.dev.fc = {} ∧ t.dev.plls = [] ∧ t.dev.crypto = []) ∧
  (∀ s : State, s.dev.keep.hold = false → ∃ t, exec (.deviceReset .keep) s = .next t ∧ s.sameStore t ∧ t.dev = s.dev.quiet) ∧
  (∀ (s : State) (straps : BitVec 4), s.dev.held = true → s.dev.holdEnded = true → s.dev.keep.tamper = false →
      ∃ t, exec (.deviceResetRelease straps) s = .next t ∧ t.pending = s.pending ∧ t.dev.held = false ∧
        (∀ k, k < 4 → t.dev.flag (Reg.HP_STAT k) Fld.HP_STAT_COMPAT = straps.getLsbD k) ∧
        t.nv = { s.nv with keys := { s.nv.keys with boots := min 0xFFFFFFFF (s.nv.keys.boots + 1) } } ∧
        t.dev.keep = { s.dev.keep with hold := false, tamper := false } ∧ t.dev.sec = s.dev.sec ∧ t.dev.fc = s.dev.fc ∧
        s.dev.regsBut t.dev ((upTo 4).map Reg.HP_STAT ++ (upTo 8).map Reg.CHALLENGE))

/-- Part of R381, R396: while device reset is held, no event but the release of the reset, a further reset and the events of the keep
domain changes anything. -/
def Obligations.HeldResetStopsEveryOtherCommand : Prop :=
  ∀ (s : State) (c : Instr), s.dev.held = true → keepEvent c = false →
    ∃ t, exec c s = .next t ∧ s.sameStore t ∧ t.dev.quiet = s.dev.quiet

/-- Part of R54, R56, R338: a failed known-answer test sets KAT_FAIL and leaves the device REJECTED with no image tried. With no new
image in the proof bank the active bank's is judged: a valid one whose PLLs lock is applied and the device enters SERVICE, and
each section whose policy or claim asks for it waits to boot; otherwise the device is REJECTED with the reason in
PLATE_STAT. -/
def Obligations.BaseBootEndsInServiceOrRejected : Prop :=
  (∀ (s : State) (r : BaseBoot), s.awake → s.dev.devState = 1 → r.katOk = false →
    ∃ t, exec (.baseBootComplete r) s = .next t ∧ s.sameStore t ∧ t.dev.devState = 2 ∧
      t.dev.fld Reg.BOOT_STAT Fld.BOOT_STAT_KAT_FAIL = 1 ∧ t.dev.fld Reg.TIME_STAT Fld.TIME_STAT_HALTED = 1 ∧
      (∀ p, p < 7 → t.dev.locked p = false) ∧ t.dev.sec = s.dev.sec) ∧
  (∀ (s : State) (r : BaseBoot), s.awake → s.dev.devState = 1 → r.katOk = true → s.nv.proofNew 0 = false →
    ∃ t, exec (.baseBootComplete r) s = .next t ∧ t.pending = s.pending ∧ t.nv.mram = s.nv.mram ∧ t.nv.fuses = s.nv.fuses ∧
      match s.nv.bankImage 0 with
      | none => t.dev.devState = 2 ∧ t.dev.fld Reg.PLATE_STAT Fld.PLATE_STAT_REASON = 0x1 ∧ t.nv = s.nv
      | some bs =>
        match s.dev.quiet.basePlan s.nv r.locks bs with
        | .error e => t.dev.devState = 2 ∧ t.dev.fld Reg.PLATE_STAT Fld.PLATE_STAT_REASON = e.1 % 16 ∧ t.nv = s.nv
        | .ok (d, _) =>
          if d.planLocked then
            t.dev.devState = 3 ∧ t.dev.fld Reg.REF_STAT Fld.REF_STAT_REF_OK = 1 ∧
              (∀ sc, t.dev.secSt sc = if t.dev.claimed sc || wbit (d.policy.get sc) 0 then 1 else d.secSt sc)
          else t.dev.devState = 2 ∧ t.dev.fld Reg.PLATE_STAT Fld.PLATE_STAT_REASON = 0xD ∧ t.nv = s.nv)

/-- Part of R25, R269: from SAFE, once its causes have cleared, the device restarts into BOOT: sections OFF, PLL_NET, the safety block,
the time counter, the keep block and FC_LAST_SAFE stay, stage 5 of every section stays with the safety block, and the straps are
not taken anew. While PLL_SYS is out of lock or the metering record of the SAFE entry is still to be committed it does not restart. -/
def Obligations.InternalRestartKeepsTheListedBlocks : Prop :=
  (∀ s : State, s.awake → s.dev.devState = 5 → s.dev.mayRestart = true →
    ∃ t, exec .internalRestart s = .next t ∧ t.pending = s.pending ∧ t.dev.devState = 1 ∧ (∀ sc, t.dev.secSt sc = 0) ∧
      (∀ a, keptByRestart a = true → a ≠ Reg.SAFE_OUT → t.dev.rd a = s.dev.rd a) ∧
      (∀ k, k < 4 → t.dev.portCompat k = s.dev.portCompat k) ∧ t.dev.time = s.dev.time ∧ t.dev.keep = s.dev.keep ∧
      t.dev.pll 6 = s.dev.pll 6 ∧ t.dev.fc = {} ∧ t.dev.held = false ∧ (∀ sc, (t.dev.sc sc).safe5 = s.dev.safe.step5) ∧
      t.nv = { s.nv with keys := { s.nv.keys with boots := min 0xFFFFFFFF (s.nv.keys.boots + 1) } }) ∧
  (∀ s : State, s.awake → s.dev.locked 0 = false ∨ (∃ b ∈ s.dev.keep.waiting, b.kind = 4) →
    ∃ t, exec .internalRestart s = .next t ∧ s.sameStore t ∧ t.dev = s.dev.quiet)

/-- Part of R23, R26, R57: START takes an OFF, REJECTED or STOPPED section to BOOT and queues its boot at the crypto engine; ENABLE
takes a READY one to ENABLED and the device to OPERATE; STOP takes a READY, ENABLED or COUCHING one to STOPPING and raises
SEC_STOPs. -/
def Obligations.SectionCommandsActInTheirStates : Prop :=
  (∀ (s : State) (sc : Sec), s.ready → s.dev.claimed sc = false → s.dev.secSt sc = 0 ∨ s.dev.secSt sc = 2 ∨ s.dev.secSt sc = 6 →
    ∃ t, exec (.secCmdStart sc) s = .next t ∧ s.sameStore t ∧ t.dev.secSt sc = 1 ∧
      t.dev.crypto = s.dev.crypto ++ [sc.val] ∧ s.dev.secsBut t.dev [sc] ∧
      (∀ a, queueReg a = false → t.dev.rd a = s.dev.rd a)) ∧
  (∀ (s : State) (sc : Sec), s.ready → s.dev.claimed sc = false → s.dev.secSt sc = 3 →
    ∃ t, exec (.secCmdEnable sc) s = .next t ∧ s.sameStore t ∧ t.dev.secSt sc = 4 ∧ s.dev.secsBut t.dev [sc] ∧
      t.dev.devState = if s.dev.devState = 3 then 4 else s.dev.devState) ∧
  (∀ (s : State) (sc : Sec), s.ready → s.dev.claimed sc = false → s.dev.secSt sc = 3 ∨ s.dev.secSt sc = 4 ∨ s.dev.secSt sc = 7 →
    ∃ t, exec (.secCmdStop sc) s = .next t ∧ s.sameStore t ∧ t.dev.secSt sc = 5 ∧ t.dev.fc.raised (44 + sc.val) ∧
      (t.dev.sc sc).eng.run = none ∧ s.dev.secsBut t.dev [sc])

/-- R23: of several command bits for one section STOP acts and the others are ignored; a command that the section's state does not
accept is ignored with CMD_IGN, and one for a claimed section with CMD_REJ. -/
def Obligations.SectionCommandsAreRankedIgnoredAndRejected : Prop :=
  (∀ (s : State) (sc : Sec) (v : W), s.ready → keyIs v 0xA5C3 = true → wbit v (8 + sc.val) = true →
    ∃ t, exec (.registerWrite (natW Reg.SEC_CMD) v) s = .next t ∧
      exec (.registerWrite (natW Reg.SEC_CMD) (v &&& ~~~(natW (2 ^ sc.val + 2 ^ (4 + sc.val))))) s = .next t) ∧
  (∀ (s : State) (sc : Sec) (c : Instr) (n : Nat), s.ready → s.dev.claimed sc = false → n = s.dev.secSt sc →
    (c = .secCmdStart sc ∧ n ≠ 0 ∧ n ≠ 2 ∧ n ≠ 6) ∨ (c = .secCmdEnable sc ∧ n ≠ 3) ∨
      (c = .secCmdStop sc ∧ n ≠ 1 ∧ n ≠ 3 ∧ n ≠ 4 ∧ n ≠ 7) →
    ∃ t, exec c s = .next t ∧ s.sameStore t ∧ t.dev.fld Reg.CMD_STAT Fld.CMD_STAT_CMD_IGN = 1 ∧
      t.dev = { s.dev.quiet with regs := t.dev.regs } ∧ s.dev.regsBut t.dev [Reg.CMD_STAT]) ∧
  (∀ (s : State) (sc : Sec) (c : Instr), s.ready → s.dev.claimed sc = true →
    c = .secCmdStart sc ∨ c = .secCmdEnable sc ∨ c = .secCmdStop sc →
    ∃ t, exec c s = .next t ∧ s.sameStore t ∧ t.dev.fld Reg.CMD_STAT Fld.CMD_STAT_CMD_REJ = 1 ∧
      t.dev = { s.dev.quiet with regs := t.dev.regs } ∧ s.dev.regsBut t.dev [Reg.CMD_STAT])

/-- Part of R26, R28, R55, R57, R58, R357: the crypto engine serves the boot at the head of its requests. With a running section clock
the window returns to its reset values and the boot goes on; without one the section is REJECTED with reason 0xD. The boot of a
claimed section loads the ROM sheet; that of another one, with no new sheet in the proof bank, the active bank's, judged by the
checks of R433. A good sheet is applied and the section is READY, or STOPPED where a stop cause came in between; a bad one leaves
it REJECTED with its reason. A new sheet that the checks refuse raises UPDATE_REJ. STOPPING ends in STOPPED once no leg is
inside the two-step turn-off. -/
def Obligations.SectionBootAndStopEnd : Prop :=
  (∀ (s : State) (sc : Sec) (rest : List Nat), s.awake → s.dev.crypto = sc.val :: rest → s.dev.cryptoOn = false →
    s.dev.secClock sc = true →
    ∃ t, exec (.sectionBootStart sc) s = .next t ∧ s.sameStore t ∧ t.dev.cryptoOn = true ∧ t.dev.crypto = s.dev.crypto ∧
      t.dev.secSt sc = s.dev.secSt sc ∧ (t.dev.sc sc).fc.log = [] ∧ (t.dev.sc sc).accs = [] ∧ (t.dev.sc sc).eng = {} ∧
      (t.dev.sc sc).legs = Quad.all {} ∧ (t.dev.sc sc).rd Reg.TRIG_CNT = secReset Reg.TRIG_CNT ∧
      (s.dev.inj.act = none → (∀ a, queueReg a = false → t.dev.rd a = s.dev.rd a) ∧
        ∀ k, k ≠ sc → (t.dev.sc k).regs = (s.dev.sc k).regs)) ∧
  (∀ (s : State) (sc : Sec) (rest : List Nat), s.awake → s.dev.crypto = sc.val :: rest → s.dev.cryptoOn = false →
    s.dev.secClock sc = false →
    ∃ t, exec (.sectionBootStart sc) s = .next t ∧ s.sameStore t ∧ t.dev.cryptoOn = false ∧ t.dev.crypto = rest ∧
      t.dev.secSt sc = 2 ∧ (t.dev.sc sc).fld Reg.SHEET_STAT Fld.SHEET_STAT_REASON = 0xD) ∧
  (∀ (s : State) (sc : Sec) (rest : List Nat), s.awake → s.dev.crypto = sc.val :: rest → s.dev.cryptoOn = true →
    s.dev.claimed sc = true ∨ s.nv.proofNew (sc.val + 1) = false →
    ∃ t, exec (.sectionBootComplete sc) s = .next t ∧ t.pending = s.pending ∧ t.dev.cryptoOn = false ∧ t.dev.crypto = rest ∧
      (t.dev.sc sc).bootStop = false ∧ (∀ k, k ≠ sc → t.dev.secSt k = s.dev.secSt k) ∧ t.nv.fuses = s.nv.fuses ∧
      t.nv.mram = s.nv.mram ∧
      match (if s.dev.claimed sc then .ok (romPlan (s.dev.sc sc) (s.dev.ownMetered sc))
        else match s.nv.bankImage (sc.val + 1) with
          | none => .error (1, 0)
          | some bs => s.dev.judgeSheet s.nv sc (s.dev.sc sc) bs : Checked SheetPlan) with
      | .ok p => t.dev.secSt sc = (if p.section.bootStop then 6 else 3) ∧
          (t.dev.sc sc).rd Reg.SHEET_BUILD = p.builds.1 ∧ (t.dev.sc sc).rd Reg.PROG_BUILD = p.builds.2 ∧
          (t.dev.sc sc).eng.imgA = p.img ∧ (t.dev.sc sc).eng.imgB = p.img ∧
          ((s.dev.claimed sc && !p.section.bootStop) = true → (t.dev.cp sc).live = true ∧ (t.dev.cp sc).run = false)
      | .error e => t.dev.secSt sc = 2 ∧ (t.dev.sc sc).fld Reg.SHEET_STAT Fld.SHEET_STAT_REASON = e.1 % 16 ∧ t.nv = s.nv) ∧
  (∀ (s : State) (sc : Sec) (rest : List Nat), s.awake → s.dev.crypto = sc.val :: rest → s.dev.cryptoOn = true →
    s.dev.claimed sc = false → s.nv.proofNew (sc.val + 1) = true →
    (s.dev.judgeSheet s.nv sc (s.dev.sc sc) (s.nv.proofImage (sc.val + 1))).isOk = false →
    ∃ t, exec (.sectionBootComplete sc) s = .next t ∧ t.pending = s.pending ∧ t.dev.crypto = rest ∧ t.dev.fc.raised 38 ∧
      (t.dev.sc sc).fld Reg.SHEET_STAT Fld.SHEET_STAT_PROOF_REJ = 1 ∧ t.nv.fuses = s.nv.fuses) ∧
  (∀ (s : State) (sc : Sec), s.awake → s.dev.secSt sc = 5 →
    (∀ l, ((s.dev.sc sc).lg l).step ≠ 1 ∧ ((s.dev.sc sc).lg l).step ≠ 2) →
    ∃ t, exec (.stoppingComplete sc) s = .next t ∧ s.sameStore t ∧ t.dev.secSt sc = 6 ∧
      (t.dev.sc sc).fld Reg.SEC_STATE Fld.SEC_STATE_PREV = 5 ∧ s.dev.secsBut t.dev [sc] ∧
      (t.dev.sc sc).legs = (s.dev.sc sc).legs ∧ ∀ a, queueReg a = false → t.dev.rd a = s.dev.rd a)

/-! ### Security and couching (spec/16_security_update.md) -/

/-- Part of R340, R341, R342: TOKEN waits at the crypto engine with BUSY; the token at its head ends with the RESULT of the first check
that fails. One that fails changes neither non-volatile storage nor the challenge; an accepted one carries both signatures of a
vendor slot in force over itself, and that of KIND 4 takes the device to RETURNED with the secret burned to ones and the plate key
erased. FIELD takes DEVELOPMENT to FIELD and has no effect later. -/
def Obligations.TokensAndFieldChangeTheSecurityState : Prop :=
  (∀ s : State, s.ready →
    ∃ t, exec .token s = .next t ∧ s.sameStore t ∧ t.dev.fld Reg.TOKEN_STAT Fld.TOKEN_STAT_BUSY = 1 ∧
      t.dev = { s.dev.quiet with regs := t.dev.regs, crypto := s.dev.crypto ++ [8] } ∧ s.dev.regsBut t.dev [Reg.TOKEN_STAT]) ∧
  (∀ (s : State) (wrote : Bool) (rest : List Nat) (tok : List Byte), s.awake → s.dev.crypto = 8 :: rest →
    tok = Memory.readBytes s.nv.mram (proofBank + s.dev.fld Reg.TOKEN_PTR Fld.TOKEN_PTR_OFFSET)
      (0x700000 - proofBank - s.dev.fld Reg.TOKEN_PTR Fld.TOKEN_PTR_OFFSET) →
    ∃ t, exec (.tokenDone wrote) s = .next t ∧ t.pending = s.pending ∧ t.dev.crypto = rest ∧
      t.dev.fld Reg.TOKEN_STAT Fld.TOKEN_STAT_RESULT = s.dev.tokenResult s.nv wrote tok ∧
      t.dev.flag Reg.TOKEN_STAT Fld.TOKEN_STAT_BUSY = rest.contains 8 ∧ t.dev.sec = s.dev.sec ∧
      s.dev.regsBut t.dev (Reg.TOKEN_STAT :: Reg.BOOT_STAT :: (upTo 8).map Reg.CHALLENGE) ∧
      (t.dev.fld Reg.TOKEN_STAT Fld.TOKEN_STAT_RESULT = 0 →
        s.nv.vendorEcdsaOk tok (imgWord tok 8) = true ∧ s.nv.vendorHssOk tok (imgWord tok 8) = true ∧ wrote = true ∧
          t.nv.mram = s.nv.mram ∧
          (imgWord tok 4 = 4 → t.nv.fuses.lcs = 2 ∧ t.nv.fuses.secret = List.replicate 32 0xFF ∧ t.nv.keys.plateKey = none) ∧
          (imgWord tok 4 = 3 → t.nv.fuses.revoked = s.nv.fuses.revoked ||| BitVec.ofNat 8 (imgWord tok 0x3C))) ∧
      (t.dev.fld Reg.TOKEN_STAT Fld.TOKEN_STAT_RESULT ≠ 0 → t.nv = s.nv ∧ s.dev.regsBut t.dev [Reg.TOKEN_STAT])) ∧
  (∀ s : State, s.ready → s.nv.fuses.lcs = 0 →
    ∃ t, exec .field s = .next t ∧ t.pending = s.pending ∧ t.dev = s.dev.quiet ∧
      t.nv = { s.nv with fuses := { s.nv.fuses with lcs := 1 } }) ∧
  (∀ s : State, s.ready → s.nv.fuses.lcs ≠ 0 →
    ∃ t, exec .field s = .next t ∧ s.sameStore t ∧ t.dev = s.dev.quiet)

/-- Part of R345: a REPORT assembles the report and requests the commit of the next leaf index, or waits while one is in progress or the
last began less than 1.25 s ago, which REPORT_WAIT_END ends; in RETURNED it is refused. With both signatures the report is
complete, RPT_STAT gives its length, and a report that waits stays pending. -/
def Obligations.ReportsAreMadeOneAtATime : Prop :=
  (∀ s : State, s.ready → s.nv.fuses.lcs ≠ 2 → s.dev.rpt = 0 → s.dev.rptRecent = false →
    ∃ t, exec .report s = .next t ∧ s.sameStore t ∧ t.dev.rd Reg.RPT_STAT = 0x80000000 ∧ t.dev.rpt = 1 ∧
      t.dev.rptRecent = true ∧ t.dev.keep.waiting.getLast?.map (·.kind) = some 2 ∧ s.dev.regsBut t.dev [Reg.RPT_STAT] ∧
      t.dev.sec = s.dev.sec) ∧
  (∀ s : State, s.ready → s.nv.fuses.lcs ≠ 2 → s.dev.rpt ≠ 0 ∨ s.dev.rptRecent = true →
    ∃ t, exec .report s = .next t ∧ s.sameStore t ∧ t.dev.rd Reg.RPT_STAT = 0x80000000 ∧
      t.dev = { s.dev.quiet with regs := t.dev.regs, rptWait := true } ∧ s.dev.regsBut t.dev [Reg.RPT_STAT]) ∧
  (∀ s : State, s.ready → s.nv.fuses.lcs = 2 →
    ∃ t, exec .report s = .next t ∧ s.sameStore t ∧ t.dev.rd Reg.RPT_STAT = 0x01000000 ∧
      t.dev = { s.dev.quiet with regs := t.dev.regs } ∧ s.dev.regsBut t.dev [Reg.RPT_STAT]) ∧
  (∀ s : State, s.awake → s.dev.rptWait = true → s.dev.rpt = 0 →
    ∃ t, exec .reportWaitEnd s = .next t ∧ s.sameStore t ∧ t.dev.rpt = 1 ∧ t.dev.rptWait = false ∧
      t.dev.rd Reg.RPT_STAT = 0x80000000 ∧ s.dev.regsBut t.dev [Reg.RPT_STAT]) ∧
  (∀ (s : State) (ecdsa hss : List Byte), s.awake → s.dev.rpt = 2 → hss.length ≤ 0x4000 - 0x384 →
    ∃ t, exec (.reportDone ecdsa hss) s = .next t ∧ s.sameStore t ∧ t.dev.rpt = 0 ∧
      t.dev.report = s.dev.report ++ ecdsa ++ natBytes 4 hss.length ++ hss ∧
      t.dev.rd Reg.RPT_STAT = natW (b2n s.dev.rptWait * 2 ^ 31 + 2 ^ 30 + 0x384 + hss.length) ∧
      s.dev.regsBut t.dev [Reg.RPT_STAT])

/-- Part of R346, R347, R353: ARM sets PHASE 1 and NOW activates at once; an activation that R347 refuses leaves PHASE 0 with its
REASON, any other is due at the section's next tick start. CANCEL disarms, and abandons a couching before takeover with reason
12 and COUCH_ABANDON. -/
def Obligations.CouchCommands : Prop :=
  (∀ (s : State) (sc : Sec), s.ready → s.dev.couchBusy sc = false →
    ∃ t, exec (.couchArm sc) s = .next t ∧ s.sameStore t ∧ t.dev.couchPhase sc = 1 ∧
      s.dev.time.passes + s.dev.fld (Reg.COUCH_AT_WRAPS sc.val) Fld.COUCH_AT_WRAPS_WRAPS ≤ (t.dev.sc sc).couch.passes ∧
      s.dev.secsBut t.dev [sc] ∧ (t.dev.sc sc).eng = (s.dev.sc sc).eng ∧ s.dev.regsBut t.dev [Reg.COUCH_STAT sc.val]) ∧
  (∀ (s : State) (sc : Sec), s.ready → s.dev.couchBusy sc = false → s.dev.couchRefusal s.nv sc = 0 →
    ∃ t, exec (.couchNow sc) s = .next t ∧ s.sameStore t ∧ t.dev.couchPhase sc = 1 ∧ (t.dev.sc sc).couch.due = true ∧
      s.dev.secsBut t.dev [sc] ∧ s.dev.regsBut t.dev [Reg.COUCH_STAT sc.val]) ∧
  (∀ (s : State) (sc : Sec), s.ready → s.dev.couchBusy sc = false → s.dev.couchRefusal s.nv sc ≠ 0 →
    ∃ t, exec (.couchNow sc) s = .next t ∧ s.sameStore t ∧ t.dev.couchPhase sc = 0 ∧
      t.dev.fld (Reg.COUCH_STAT sc.val) Fld.COUCH_STAT_REASON = s.dev.couchRefusal s.nv sc ∧
      t.dev = { s.dev.quiet with regs := t.dev.regs } ∧ s.dev.regsBut t.dev [Reg.COUCH_STAT sc.val]) ∧
  (∀ (s : State) (sc : Sec), s.awake → s.dev.couchPhase sc = 1 → (s.dev.sc sc).couch.due = false → s.dev.timeInv = false →
    (s.dev.sc sc).couch.passes < s.dev.time.passes → s.dev.couchRefusal s.nv sc = 0 →
    ∃ t, exec (.couchActivate sc) s = .next t ∧ s.sameStore t ∧ (t.dev.sc sc).couch.due = true ∧ s.dev.secsBut t.dev [sc] ∧
      s.dev.regsBut t.dev [Reg.COUCH_STAT sc.val]) ∧
  (∀ (s : State) (sc : Sec), s.ready → s.dev.couchPhase sc = 1 → (s.dev.sc sc).couch.due = false →
    ∃ t, exec (.couchCancel sc) s = .next t ∧ s.sameStore t ∧ t.dev.couchPhase sc = 0 ∧
      t.dev = { s.dev.quiet with regs := t.dev.regs } ∧ s.dev.regsBut t.dev [Reg.COUCH_STAT sc.val]) ∧
  (∀ (s : State) (sc : Sec), s.ready → s.dev.couchPhase sc = 2 ∨ s.dev.couchPhase sc = 3 → (s.dev.sc sc).couch.due = false →
    ∃ t, exec (.couchCancel sc) s = .next t ∧ s.sameStore t ∧ t.dev.couchPhase sc = 6 ∧
      t.dev.fld (Reg.COUCH_STAT sc.val) Fld.COUCH_STAT_REASON = 12 ∧ t.dev.fc.raised 39 ∧ (t.dev.sc sc).eng.prun = none ∧
      t.dev.secSt sc = s.dev.secSt sc ∧ s.dev.secsBut t.dev [sc] ∧ s.dev.regsBut t.dev [Reg.COUCH_STAT sc.val])

/-- Part of R348, R351, R352: engine B's boot of the proof sheet ends loaded with the sheet's program, or, where the checks of R433 or
R348 refuse it, abandoned with the reason and COUCH_ABANDON; takeover runs the section from B with the new
deadline and COUCH_TAKE stamped; the directory switch then consumes the proof entry and raises the counters; the reloaded
engine is ready after a good check, and the first failed check leaves it to be tried again. -/
def Obligations.CouchingLoadsTakesOverAndSwitches : Prop :=
  (∀ (s : State) (sc : Sec) (rest : List Nat), s.awake → s.dev.crypto = (4 + sc.val) :: rest →
    s.dev.cryptoOn = false → s.dev.couchPhase sc = 2 →
    ∃ t, exec (.couchBLoad sc) s = .next t ∧ t.pending = s.pending ∧ t.nv.fuses = s.nv.fuses ∧ t.nv.keys = s.nv.keys ∧
      (match s.dev.judgeSheet s.nv sc (s.dev.blankOf s.nv sc) (s.nv.proofImage (sc.val + 1)) with
        | .ok p =>
          if couchCheck (s.dev.sc sc) p = 0 ∧ (s.nv.gap (s.nv.proofImage (sc.val + 1)).length).isSome = true then
            t.dev.couchPhase sc = 2 ∧ (t.dev.sc sc).couch.loaded = true ∧ (t.dev.sc sc).couch.img = p.img ∧
              (t.dev.sc sc).couch.builds = p.builds ∧ t.dev.crypto = rest
          else t.dev.couchPhase sc = 6 ∧ t.dev.fc.raised 39 ∧ t.nv = s.nv ∧ t.dev.crypto = rest.erase (4 + sc.val) ∧
            t.dev.fld (Reg.COUCH_STAT sc.val) Fld.COUCH_STAT_REASON =
              if couchCheck (s.dev.sc sc) p = 0 then 4 else couchCheck (s.dev.sc sc) p
        | .error _ => t.dev.couchPhase sc = 6 ∧ t.dev.fc.raised 39 ∧ (t.nv.proof (sc.val + 1)).2.2 = 2 ∧
            t.dev.crypto = rest.erase (4 + sc.val) ∧ t.dev.fld (Reg.COUCH_STAT sc.val) Fld.COUCH_STAT_REASON = 4) ∧
      (t.dev.sc sc).eng.st = (s.dev.sc sc).eng.st ∧ t.dev.secSt sc = s.dev.secSt sc ∧ s.dev.secsBut t.dev [sc]) ∧
  (∀ (s : State) (sc : Sec), s.awake → (s.dev.sc sc).state = 7 → s.dev.couchPhase sc = 3 → (s.dev.sc sc).eng.run = none →
    (s.dev.sc sc).eng.prun = none → s.dev.proofTicks sc ≤ s.dev.fld (Reg.COUCH_STAT sc.val) Fld.COUCH_STAT_PROOF →
    (s.dev.sc sc).couch.fcmap.length ≤ 128 →
    ∃ t, exec (.couchTakeover sc) s = .next t ∧ s.sameStore t ∧ t.dev.couchPhase sc = 4 ∧ (t.dev.sc sc).eng.mode = 2 ∧
      (t.dev.sc sc).eng.first = true ∧ (t.dev.sc sc).rd Reg.TICK_DEADLINE = (s.dev.sc sc).couch.deadline ∧
      (t.dev.sc sc).rd Reg.SHEET_BUILD = (s.dev.sc sc).couch.builds.1 ∧ t.dev.rd (Reg.COUCH_TAKE sc.val) = s.dev.stamp ∧
      t.dev.secSt sc = 7 ∧ s.dev.secsBut t.dev [sc] ∧ s.dev.regsBut t.dev [Reg.COUCH_STAT sc.val, Reg.COUCH_TAKE sc.val]) ∧
  (∀ (s : State) (sc : Sec), s.awake → s.dev.couchPhase sc = 4 → (s.dev.sc sc).couch.place.2 ≠ 0 →
    ∃ t, exec (.directorySwitch sc) s = .next t ∧ t.pending = s.pending ∧ (t.nv.proof (sc.val + 1)).2.2 = 1 ∧
      (s.dev.sc sc).couch.arbs.1.toNat ≤ (t.nv.arbOf (1 + sc.val)).toNat ∧
      (s.dev.sc sc).couch.arbs.2.toNat ≤ (t.nv.arbOf (5 + sc.val)).toNat ∧ (t.dev.sc sc).couch.place = (0, 0) ∧
      t.nv.fuses = s.nv.fuses ∧ t.nv.feram = s.nv.feram ∧ s.dev.secsBut t.dev [sc] ∧ t.dev.regs = s.dev.regs) ∧
  (∀ (s : State) (sc : Sec), s.awake → s.dev.couchPhase sc = 4 → (s.dev.sc sc).couch.place.2 = 0 →
    (s.dev.sc sc).couch.ready = false → (s.dev.sc sc).state = 7 →
    ∃ t, exec (.couchAReload sc true) s = .next t ∧ s.sameStore t ∧ (t.dev.sc sc).couch.ready = true ∧
      (t.dev.sc sc).regs = (s.dev.sc sc).regs ∧ s.dev.secsBut t.dev [sc] ∧ t.dev.regs = s.dev.regs) ∧
  (∀ (s : State) (sc : Sec), s.awake → s.dev.couchPhase sc = 4 → (s.dev.sc sc).couch.place.2 = 0 →
    (s.dev.sc sc).couch.ready = false → (s.dev.sc sc).couch.fails = 0 →
    ∃ t, exec (.couchAReload sc false) s = .next t ∧ s.sameStore t ∧ (t.dev.sc sc).couch.fails = 1 ∧
      t.dev.secSt sc = s.dev.secSt sc ∧ s.dev.secsBut t.dev [sc] ∧ t.dev.regs = s.dev.regs)

/-! ### Register access (spec/00_scope.md, spec/01_architecture.md) and the native frames (spec/15_host_links.md) -/

/-- Part of R8: a write of a plain register gives every RW field, and every RWP field whose lock is open, its new value, clears the W1C
bits written with 1, and leaves every other bit and register; a write that changes a locked RWP field leaves that field and is a
bus error with cause 2. -/
def Obligations.RegisterWriteFollowsItsFieldTypes : Prop :=
  (∀ (s : State) (a v : W) (r : RegRow), s.ready → plainReg a.toNat = true → devRow a.toNat = some r →
    r.lockedHit (s.dev.rwpOpen a.toNat) (s.dev.rd a.toNat) v = false →
    ∃ t, exec (.registerWrite a v) s = .next t ∧ s.sameStore t ∧
      t.dev.rd a.toNat = r.merge (s.dev.rwpOpen a.toNat) (s.dev.rd a.toNat) v ∧
      t.dev = { s.dev.quiet with regs := t.dev.regs } ∧ s.dev.regsBut t.dev [a.toNat]) ∧
  (∀ (s : State) (a v : W) (r : RegRow), s.ready → plainReg a.toNat = true → devRow a.toNat = some r →
    r.lockedHit (s.dev.rwpOpen a.toNat) (s.dev.rd a.toNat) v = true →
    s.dev.flag Reg.BUS_ERR_STAT Fld.BUS_ERR_STAT_VALID = false →
    ∃ t, exec (.registerWrite a v) s = .next t ∧ s.sameStore t ∧ t.dev.rd a.toNat = r.merge false (s.dev.rd a.toNat) v ∧
      t.dev.fld Reg.BUS_ERR_STAT Fld.BUS_ERR_STAT_CAUSE = 2 ∧ t.dev.rd Reg.BUS_ERR_ADDR = a ∧ t.dev.fc.raised 40 ∧
      t.dev = { s.dev.quiet with regs := t.dev.regs, fc := t.dev.fc } ∧
      s.dev.regsBut t.dev [a.toNat, Reg.BUS_ERR_STAT, Reg.BUS_ERR_ADDR] ∧ s.dev.fc.pairsBut t.dev.fc [40])

/-- Part of R22, R327, R355: a write to an address that maps nothing is a bus error of cause 0, to a section that does not answer of
cause 1, and to a register of a claimed section or into an active bank of cause 3; nothing else comes of it. In BOOT no write
has an effect. -/
def Obligations.BusErrorsHaveTheirCauses : Prop :=
  (∀ (s : State) (a v : W), s.ready → s.dev.flag Reg.BUS_ERR_STAT Fld.BUS_ERR_STAT_VALID = false →
    placeOf a.toNat = .nowhere → ∃ t, exec (.registerWrite a v) s = .next t ∧ s.busError t 0 a.toNat) ∧
  (∀ (s : State) (a v : W) (sc : Sec) (o : Nat), s.ready → s.dev.flag Reg.BUS_ERR_STAT Fld.BUS_ERR_STAT_VALID = false →
    placeOf a.toNat = .sec sc o → statusFile o = false → s.dev.secDead sc = true →
    ∃ t, exec (.registerWrite a v) s = .next t ∧ s.busError t 1 a.toNat) ∧
  (∀ (s : State) (a v : W) (sc : Sec) (o : Nat), s.ready → s.dev.flag Reg.BUS_ERR_STAT Fld.BUS_ERR_STAT_VALID = false →
    placeOf a.toNat = .sec sc o → statusFile o = false → s.dev.secDead sc = false → s.dev.claimed sc = true → brCmdAt o = none →
    ∃ t, exec (.registerWrite a v) s = .next t ∧ s.busError t 3 a.toNat) ∧
  (∀ (s : State) (a v : W) (o : Nat), s.ready → s.dev.flag Reg.BUS_ERR_STAT Fld.BUS_ERR_STAT_VALID = false →
    placeOf a.toNat = .mram o → a.toNat % 4 = 0 → o < proofBank ∨ 0x700000 ≤ o →
    ∃ t, exec (.registerWrite a v) s = .next t ∧ s.busError t 3 a.toNat) ∧
  (∀ (s : State) (a v : W), s.awake → s.dev.devState = 1 →
    ∃ t, exec (.registerWrite a v) s = .next t ∧ s.sameStore t ∧ t.dev = s.dev.quiet)

/-- R331: a word of an entry of the proof directory, or of the image that the entry places in the proof bank, is refused while the
device verifies or copies the image and while a couching of its section runs; it is a bus error of cause 3, sets PB_REF, and records
its address where PB_REF was 0. A word that no entry protects is stored, least significant byte first, and no other byte. -/
def Obligations.ProtectedProofBankWordsAreRefused : Prop :=
  (∀ (s : State) (a v : W) (o e off size st : Nat) (sc : Sec), s.ready → placeOf a.toNat = .mram (proofBank + o) → a.toNat % 4 = 0 →
    o < 0x380000 → e = sc.val + 1 → s.nv.proof e = (off, size, st) →
    (s.dev.cryptoOn = true ∧ s.dev.crypto.head? = some sc.val ∧ s.dev.claimed sc = false ∧ s.nv.proofNew e = true) ∨
      s.dev.couchEarly sc = true →
    (0x04 + 12 * e ≤ o ∧ o < 0x04 + 12 * e + 12) ∨ (off < o + 4 ∧ o < off + size) →
    s.dev.flag Reg.BUS_ERR_STAT Fld.BUS_ERR_STAT_VALID = false →
    ∃ t, exec (.registerWrite a v) s = .next t ∧ s.sameStore t ∧ t.dev.fld Reg.BUS_ERR_STAT Fld.BUS_ERR_STAT_CAUSE = 3 ∧
      t.dev.flag Reg.BUS_ERR_STAT Fld.BUS_ERR_STAT_WRITE = true ∧ t.dev.rd Reg.BUS_ERR_ADDR = a ∧ t.dev.fc.raised 40 ∧
      t.dev.flag Reg.BOOT_STAT Fld.BOOT_STAT_PB_REF = true ∧
      t.dev.rd Reg.PB_REF_ADDR = (if s.dev.flag Reg.BOOT_STAT Fld.BOOT_STAT_PB_REF = true then s.dev.rd Reg.PB_REF_ADDR else a) ∧
      t.dev = { s.dev.quiet with regs := t.dev.regs, fc := t.dev.fc } ∧
      s.dev.regsBut t.dev [Reg.BUS_ERR_STAT, Reg.BUS_ERR_ADDR, Reg.BOOT_STAT, Reg.PB_REF_ADDR] ∧ s.dev.fc.pairsBut t.dev.fc [40]) ∧
  (∀ (s : State) (a v : W) (o : Nat), s.ready → placeOf a.toNat = .mram (proofBank + o) → a.toNat % 4 = 0 → o < 0x380000 →
    s.dev.quiet.proofRefused s.nv o = false →
    ∃ t, exec (.registerWrite a v) s = .next t ∧ t.pending = s.pending ∧ t.dev = s.dev.quiet ∧
      (∀ i, i < 4 → Memory.read t.nv.mram (proofBank + o + i) = v.extractLsb' (8 * i) 8) ∧
      (∀ b, b < proofBank + o ∨ proofBank + o + 4 ≤ b → Memory.read t.nv.mram b = Memory.read s.nv.mram b) ∧
      t.nv.feram = s.nv.feram ∧ t.nv.fuses = s.nv.fuses ∧ t.nv.keys = s.nv.keys)

/-- Part of R53: RWP_CLOSE with its key closes the open ranges of the base image with bit 4 and those of the sheet of section s with
bit s; with a wrong key it only sets BAD_KEY. -/
def Obligations.RwpCloseClosesTheRangesItNames : Prop :=
  (∀ (s : State) (v : W), s.ready → keyIs v 0x3C5A = true →
    ∃ t, exec (.rwpClose v) s = .next t ∧ s.sameStore t ∧
      t.dev.rwpBase = (if wbit v 4 then [] else s.dev.rwpBase) ∧
      (∀ sc : Sec, t.dev.rwpSheet.get sc = if wbit v sc.val then [] else s.dev.rwpSheet.get sc) ∧
      t.dev = { s.dev.quiet with rwpBase := t.dev.rwpBase, rwpSheet := t.dev.rwpSheet }) ∧
  (∀ (s : State) (v : W), s.ready → keyIs v 0x3C5A = false →
    ∃ t, exec (.rwpClose v) s = .next t ∧ s.sameStore t ∧ t.dev.fld Reg.CMD_STAT Fld.CMD_STAT_BAD_KEY = 1 ∧
      t.dev = { s.dev.quiet with regs := t.dev.regs } ∧ s.dev.regsBut t.dev [Reg.CMD_STAT])

/-- Part of R309, R310, R311: a native WRITE of one word with its CRC at port 0 is the register write of that word, with STATUS in
HP_STAT.LAST and STATUS and NOT STATUS driven; a READ of n words returns n words, their CRC, STATUS and NOT STATUS, whatever
other accesses fall between them; STAT returns HP_STAT and clears its counters; an aborted or incomplete frame is counted and does
nothing else. A frame is refused with STATUS 1 and the CRC count for a bad CRC, 6 in BOOT, 2 for an OP that is none, and 3 for a length
of 0, of more than 256 words written, or past the end of the address space, and then changes nothing but HP_STAT. -/
def Obligations.NativeFramesAccessRegistersOrChangeNothing : Prop :=
  (∀ (s : State) (cmd : BitVec 48) (w : W), s.ready → s.dev.portCompat 0 = false → cmdOp cmd = 0x02 → cmdLen cmd = 1 →
    ∃ t u, exec (.hpWrite 0 cmd [w] (frameCrc cmd [w]) []) s = .next t ∧
      exec (.registerWrite (natW (cmdAddr cmd * 4)) w) s = .next u ∧
      t.pending = s.pending ∧ t.nv = u.nv ∧ t.dev.sec = u.dev.sec ∧ t.dev.fc = u.dev.fc ∧ t.dev.pool = u.dev.pool ∧
      u.dev.regsBut t.dev [Reg.HP_STAT 0] ∧
      (t.dev.fld (Reg.HP_STAT 0) Fld.HP_STAT_LAST = 0 ∨ t.dev.fld (Reg.HP_STAT 0) Fld.HP_STAT_LAST = 4) ∧
      (t.dev.hp.get 0).answer = frameAnswer none (t.dev.fld (Reg.HP_STAT 0) Fld.HP_STAT_LAST)) ∧
  (∀ (s : State) (k : Port) (cmd : BitVec 48) (xs : List (Nat × Access)), s.ready → s.dev.portCompat k.val = false →
    cmdOp cmd = 0x03 → cmdLen cmd ≠ 0 → cmdAddr cmd + cmdLen cmd ≤ 2 ^ 24 →
    ∃ t, exec (.hpRead k cmd (frameCrc cmd []) xs) s = .next t ∧ t.pending = s.pending ∧ (xs = [] → t.nv = s.nv) ∧
      (t.dev.hp.get k).data.length = cmdLen cmd ∧
      (t.dev.fld (Reg.HP_STAT k.val) Fld.HP_STAT_LAST = 0 ∨ t.dev.fld (Reg.HP_STAT k.val) Fld.HP_STAT_LAST = 4) ∧
      (t.dev.hp.get k).answer =
        frameAnswer (some (t.dev.hp.get k).data) (t.dev.fld (Reg.HP_STAT k.val) Fld.HP_STAT_LAST)) ∧
  (∀ (s : State) (k : Port) (cmd : BitVec 48), s.ready → s.dev.portCompat k.val = false → cmdOp cmd = 0x05 → cmdAddr cmd = 0 →
    cmdLen cmd = 0 →
    ∃ t, exec (.hpStat k cmd (frameCrc cmd [])) s = .next t ∧ s.sameStore t ∧
      (t.dev.hp.get k).data = [s.dev.rd (Reg.HP_STAT k.val)] ∧
      t.dev.rd (Reg.HP_STAT k.val) = (s.dev.rd (Reg.HP_STAT k.val) &&& 0xFF000000) ∧
      t.dev = { s.dev.quiet with regs := t.dev.regs, hp := t.dev.hp } ∧ s.dev.regsBut t.dev [Reg.HP_STAT k.val] ∧
      ∀ j, j ≠ k → t.dev.hp.get j = s.dev.hp.get j) ∧
  (∀ (s : State) (k : Port), s.awake → s.dev.portCompat k.val = false →
    ∃ t, exec (.frameAbort k) s = .next t ∧ s.sameStore t ∧
      t.dev.fld (Reg.HP_STAT k.val) Fld.HP_STAT_ABORT = min 255 (s.dev.fld (Reg.HP_STAT k.val) Fld.HP_STAT_ABORT + 1) ∧
      t.dev = { s.dev with regs := t.dev.regs } ∧ s.dev.regsBut t.dev [Reg.HP_STAT k.val]) ∧
  (∀ (s : State) (k : Port) (cmd : BitVec 48) (ws : List W) (crc : BitVec 16) (xs : List (Nat × Access)), s.awake →
    s.dev.portCompat k.val = false → cmdOp cmd = 0x02 → ws.length < cmdLen cmd →
    ∃ t, exec (.hpWrite k cmd ws crc xs) s = .next t ∧ s.sameStore t ∧
      t.dev.fld (Reg.HP_STAT k.val) Fld.HP_STAT_ABORT = min 255 (s.dev.fld (Reg.HP_STAT k.val) Fld.HP_STAT_ABORT + 1) ∧
      t.dev = { s.dev.quiet with regs := t.dev.regs } ∧ s.dev.regsBut t.dev [Reg.HP_STAT k.val]) ∧
  (∀ (s : State) (k : Port) (cmd : BitVec 48) (ws : List W) (crc : BitVec 16) (xs : List (Nat × Access)), s.awake →
    s.dev.portCompat k.val = false → cmdOp cmd = 0x02 → cmdLen cmd ≤ ws.length → crc ≠ frameCrc cmd (ws.take (cmdLen cmd)) →
    ∃ t, exec (.hpWrite k cmd ws crc xs) s = .next t ∧ s.sameStore t ∧
      t.dev.fld (Reg.HP_STAT k.val) Fld.HP_STAT_LAST = 1 ∧
      t.dev.fld (Reg.HP_STAT k.val) Fld.HP_STAT_CRC_ERR = min 255 (s.dev.fld (Reg.HP_STAT k.val) Fld.HP_STAT_CRC_ERR + 1) ∧
      t.dev = { s.dev.quiet with regs := t.dev.regs, hp := t.dev.hp } ∧ s.dev.regsBut t.dev [Reg.HP_STAT k.val]) ∧
  (∀ (s : State) (k : Port) (cmd : BitVec 48) (ws : List W) (xs : List (Nat × Access)), s.awake → s.dev.portCompat k.val = false →
    cmdOp cmd = 0x02 → cmdLen cmd ≤ ws.length →
    s.dev.devState = 1 ∨ cmdLen cmd = 0 ∨ 256 < cmdLen cmd ∨ 2 ^ 24 < cmdAddr cmd + cmdLen cmd →
    ∃ t, exec (.hpWrite k cmd ws (frameCrc cmd (ws.take (cmdLen cmd))) xs) s = .next t ∧ s.sameStore t ∧
      t.dev.fld (Reg.HP_STAT k.val) Fld.HP_STAT_LAST = (if s.dev.devState = 1 then 6 else 3) ∧
      t.dev = { s.dev.quiet with regs := t.dev.regs, hp := t.dev.hp } ∧ s.dev.regsBut t.dev [Reg.HP_STAT k.val]) ∧
  (∀ (s : State) (k : Port) (cmd : BitVec 48) (ws : List W) (xs : List (Nat × Access)), s.awake → s.dev.portCompat k.val = false →
    cmdOp cmd ≠ 0x02 → cmdOp cmd ≠ 0x03 → cmdOp cmd ≠ 0x05 →
    ∃ t, exec (.hpWrite k cmd ws (frameCrc cmd ws) xs) s = .next t ∧ s.sameStore t ∧
      t.dev.fld (Reg.HP_STAT k.val) Fld.HP_STAT_LAST = (if s.dev.devState = 1 then 6 else 2) ∧
      t.dev = { s.dev.quiet with regs := t.dev.regs, hp := t.dev.hp } ∧ s.dev.regsBut t.dev [Reg.HP_STAT k.val])

/-- Part of R315: the host moves PUT of a ring it produces into, or GET of one it consumes from, forward by no more than there is room or
entries for; any other value is refused with PTR_REF and the indices stay. -/
def Obligations.RingPointersMoveForwardOnly : Prop :=
  (∀ (s : State) (q : Fin 64) (v : W), s.ready → hostProduces q.val = true → 2 ≤ s.dev.qLog q.val →
    bitsN v.toNat 31 16 ≠ s.dev.qPut q.val →
    ∃ t, exec (.qPtrWrite q v) s = .next t ∧ s.sameStore t ∧ t.dev = { s.dev.quiet with regs := t.dev.regs } ∧
      t.dev.qGet q.val = s.dev.qGet q.val ∧
      if bitsN v.toNat 31 16 < 2 * s.dev.qLen q.val ∧
          s.dev.qFill q.val + (bitsN v.toNat 31 16 + 2 * s.dev.qLen q.val - s.dev.qPut q.val) % (2 * s.dev.qLen q.val) ≤ s.dev.qLen q.val then
        t.dev.qPut q.val = bitsN v.toNat 31 16 ∧ s.dev.regsBut t.dev [Reg.Q_PTR q.val]
      else t.dev.fld (Reg.Q_STAT q.val) Fld.Q_STAT_PTR_REF = 1 ∧ s.dev.regsBut t.dev [Reg.Q_STAT q.val]) ∧
  (∀ (s : State) (q : Fin 64) (v : W), s.ready → s.dev.hostConsumes q.val = true → 2 ≤ s.dev.qLog q.val →
    bitsN v.toNat 15 0 ≠ s.dev.qGet q.val →
    ∃ t, exec (.qPtrWrite q v) s = .next t ∧ s.sameStore t ∧ t.dev = { s.dev.quiet with regs := t.dev.regs } ∧
      t.dev.qPut q.val = s.dev.qPut q.val ∧
      if bitsN v.toNat 15 0 < 2 * s.dev.qLen q.val ∧
          (bitsN v.toNat 15 0 + 2 * s.dev.qLen q.val - s.dev.qGet q.val) % (2 * s.dev.qLen q.val) ≤ s.dev.qFill q.val then
        t.dev.qGet q.val = bitsN v.toNat 15 0 ∧ s.dev.regsBut t.dev [Reg.Q_PTR q.val]
      else t.dev.fld (Reg.Q_STAT q.val) Fld.Q_STAT_PTR_REF = 1 ∧ s.dev.regsBut t.dev [Reg.Q_STAT q.val])

/-! ### The Ghefin engine's instructions (spec/08_engine_isa.md) -/

/-- Part of R158, R178, R179, R181, R182: the vector instructions give element j of the destination from element j of their sources as
these stood before, and change no other register: MOV copies, VADD, VSUB, VNEG and VABS saturate the exact result, VMUL and VMAC
round the accumulator once. -/
def Obligations.VectorInstructionsActElementwise : Prop :=
  (∀ (s : State) (sc : Sec) (e : EngSel) (a : BitVec 26) (r : EngRun), s.issues sc e 0x08 a r (vecClk (fN a.toNat)) →
    vecFits a.toNat →
    ∃ t, exec (.mov sc e a) s = .next t ∧ s.ranOnly t sc e ∧
      r.gave ((t.dev.sc sc).runOf e) (fD a.toNat) (fN a.toNat) (vecClk (fN a.toNat)) (fun j => (r.srcAt (fA a.toNat) j, false))) ∧
  (∀ (s : State) (sc : Sec) (e : EngSel) (a : BitVec 26) (r : EngRun), s.issues sc e 0x10 a r (vecClk (fN a.toNat)) →
    vecFitsB a.toNat →
    ∃ t, exec (.vadd sc e a) s = .next t ∧ s.ranOnly t sc e ∧
      r.gave ((t.dev.sc sc).runOf e) (fD a.toNat) (fN a.toNat) (vecClk (fN a.toNat))
        (fun j => wsat (r.srcAt (fA a.toNat) j + r.srcBAt a.toNat j))) ∧
  (∀ (s : State) (sc : Sec) (e : EngSel) (a : BitVec 26) (r : EngRun), s.issues sc e 0x11 a r (vecClk (fN a.toNat)) →
    vecFitsB a.toNat →
    ∃ t, exec (.vsub sc e a) s = .next t ∧ s.ranOnly t sc e ∧
      r.gave ((t.dev.sc sc).runOf e) (fD a.toNat) (fN a.toNat) (vecClk (fN a.toNat))
        (fun j => wsat (r.srcAt (fA a.toNat) j - r.srcBAt a.toNat j))) ∧
  (∀ (s : State) (sc : Sec) (e : EngSel) (a : BitVec 26) (r : EngRun), s.issues sc e 0x12 a r (vecClk (fN a.toNat)) →
    vecFitsB a.toNat →
    ∃ t, exec (.vmul sc e a) s = .next t ∧ s.ranOnly t sc e ∧
      r.gave ((t.dev.sc sc).runOf e) (fD a.toNat) (fN a.toNat) (vecClk (fN a.toNat))
        (fun j => accOut (r.srcAt (fA a.toNat) j * r.srcBAt a.toNat j))) ∧
  (∀ (s : State) (sc : Sec) (e : EngSel) (a : BitVec 26) (r : EngRun), s.issues sc e 0x13 a r (vecClk (fN a.toNat)) →
    vecFitsB a.toNat →
    ∃ t, exec (.vmac sc e a) s = .next t ∧ s.ranOnly t sc e ∧
      r.gave ((t.dev.sc sc).runOf e) (fD a.toNat) (fN a.toNat) (vecClk (fN a.toNat))
        (fun j => accOut (r.srcAt (fD a.toNat) j * 2 ^ 27 + r.srcAt (fA a.toNat) j * r.srcBAt a.toNat j))) ∧
  (∀ (s : State) (sc : Sec) (e : EngSel) (a : BitVec 26) (r : EngRun), s.issues sc e 0x14 a r (vecClk (fN a.toNat)) →
    vecFits a.toNat →
    ∃ t, exec (.vneg sc e a) s = .next t ∧ s.ranOnly t sc e ∧
      r.gave ((t.dev.sc sc).runOf e) (fD a.toNat) (fN a.toNat) (vecClk (fN a.toNat)) (fun j => wsat (-r.srcAt (fA a.toNat) j))) ∧
  (∀ (s : State) (sc : Sec) (e : EngSel) (a : BitVec 26) (r : EngRun), s.issues sc e 0x15 a r (vecClk (fN a.toNat)) →
    vecFits a.toNat →
    ∃ t, exec (.vabs sc e a) s = .next t ∧ s.ranOnly t sc e ∧
      r.gave ((t.dev.sc sc).runOf e) (fD a.toNat) (fN a.toNat) (vecClk (fN a.toNat))
        (fun j => wsat (r.srcAt (fA a.toNat) j).natAbs))

/-- Part of R181, R188: the limiting and rotating instructions. LIM and VLIM hold each element between two bounds and set L where one was
held; VLIM2 scales a pair to the length bound and ROT turns a pair by an angle, each result rounded once. -/
def Obligations.LimitsAndRotations : Prop :=
  (∀ (s : State) (sc : Sec) (e : EngSel) (a : BitVec 26) (r : EngRun), s.issues sc e 0x19 a r 1 → fK a.toNat ≤ 4094 →
    ∃ t, exec (.lim sc e a) s = .next t ∧ s.ranOnly t sc e ∧
      let x := r.srcAt (fA a.toNat) 0
      let y := min (max x (((s.dev.sc sc).imgOf e).coefI (fK a.toNat))) (((s.dev.sc sc).imgOf e).coefI (fK a.toNat + 1))
      r.gave ((t.dev.sc sc).runOf e) (fD a.toNat) 1 1 (fun _ => (y, false)) ∧ ((t.dev.sc sc).runOf e).l = decide (y ≠ x)) ∧
  (∀ (s : State) (sc : Sec) (e : EngSel) (a : BitVec 26) (r : EngRun), s.issues sc e 0x1A a r (vecClk (fN a.toNat)) →
    vecFits a.toNat → fB a.toNat % 64 ≤ 62 →
    ∃ t, exec (.vlim sc e a) s = .next t ∧ s.ranOnly t sc e ∧
      let y (j : Nat) : Int := min (max (r.srcAt (fA a.toNat) j) (r.srcAt (fB a.toNat) 0)) (r.srcAt (fB a.toNat) 1)
      r.gave ((t.dev.sc sc).runOf e) (fD a.toNat) (fN a.toNat) (vecClk (fN a.toNat)) (fun j => (y j, false)) ∧
      ((t.dev.sc sc).runOf e).l = (upTo (fN a.toNat)).any (fun j => decide (y j ≠ r.srcAt (fA a.toNat) j))) ∧
  (∀ (s : State) (sc : Sec) (e : EngSel) (a : BitVec 26) (r : EngRun), s.issues sc e 0x1B a r 6 → fD a.toNat ≤ 62 →
    fA a.toNat % 64 ≤ 62 →
    ∃ t, exec (.vlim2 sc e a) s = .next t ∧ s.ranOnly t sc e ∧
      let v := vlimit2 (r.srcAt (fA a.toNat) 0) (r.srcAt (fA a.toNat) 1) (r.srcAt (fB a.toNat) 0)
      r.gave ((t.dev.sc sc).runOf e) (fD a.toNat) 2 6 (fun j => if j = 0 then v.1 else v.2.1) ∧
      ((t.dev.sc sc).runOf e).l = v.2.2) ∧
  (∀ (s : State) (sc : Sec) (e : EngSel) (a : BitVec 26) (r : EngRun), s.issues sc e 0x1C a r 4 → fD a.toNat ≤ 62 →
    fA a.toNat % 64 ≤ 62 →
    ∃ t, exec (.rot sc e a) s = .next t ∧ s.ranOnly t sc e ∧
      let v := rotate (r.srcAt (fA a.toNat) 0) (r.srcAt (fA a.toNat) 1) (uns 32 (r.srcAt (fB a.toNat) 0)) (a.getLsbD 0)
      r.gave ((t.dev.sc sc).runOf e) (fD a.toNat) 2 4 (fun j => if j = 0 then v.1 else v.2))

/-- Part of R154, R165, R180, R181, R186: the instructions of one result register: a coefficient, an immediate, a conversion between
integer and word, a product or sum with a coefficient, a look-up, a profile's output, an item of the tick; an item from 0x40 on
is the value that its first read in the tick has fixed, or this read fixes; CMP sets Z and N, and NOP changes nothing. -/
def Obligations.ScalarInstructionsGiveTheirResult : Prop :=
  (∀ (s : State) (sc : Sec) (e : EngSel) (a : BitVec 26) (r : EngRun), s.issues sc e 0x09 a r 1 →
    ∃ t, exec (.ldk sc e a) s = .next t ∧ s.ranOnly t sc e ∧
      r.gave ((t.dev.sc sc).runOf e) (fD a.toNat) 1 1 (fun _ => (((s.dev.sc sc).imgOf e).coefI (fK a.toNat), false))) ∧
  (∀ (s : State) (sc : Sec) (e : EngSel) (a : BitVec 26) (r : EngRun), s.issues sc e 0x0A a r 1 →
    ∃ t, exec (.ldi sc e a) s = .next t ∧ s.ranOnly t sc e ∧
      r.gave ((t.dev.sc sc).runOf e) (fD a.toNat) 1 1 (fun _ => (sgn 20 (bitsN a.toNat 19 0), false))) ∧
  (∀ (s : State) (sc : Sec) (e : EngSel) (a : BitVec 26) (r : EngRun), s.issues sc e 0x0B a r 1 →
    ∃ t, exec (.cvt sc e a) s = .next t ∧ s.ranOnly t sc e ∧
      r.gave ((t.dev.sc sc).runOf e) (fD a.toNat) 1 1 (fun _ =>
        if a.getLsbD 0 then (divEven (r.srcAt (fA a.toNat) 0) (2 ^ 27), false) else wsat (r.srcAt (fA a.toNat) 0 * 2 ^ 27))) ∧
  (∀ (s : State) (sc : Sec) (e : EngSel) (a : BitVec 26) (r : EngRun), s.issues sc e 0x16 a r 1 →
    ∃ t, exec (.kmul sc e a) s = .next t ∧ s.ranOnly t sc e ∧
      r.gave ((t.dev.sc sc).runOf e) (fD a.toNat) 1 1
        (fun _ => accOut (r.srcAt (fA a.toNat) 0 * ((s.dev.sc sc).imgOf e).coefI (fK a.toNat)))) ∧
  (∀ (s : State) (sc : Sec) (e : EngSel) (a : BitVec 26) (r : EngRun), s.issues sc e 0x17 a r 1 →
    ∃ t, exec (.kadd sc e a) s = .next t ∧ s.ranOnly t sc e ∧
      r.gave ((t.dev.sc sc).runOf e) (fD a.toNat) 1 1
        (fun _ => wsat (r.srcAt (fA a.toNat) 0 + ((s.dev.sc sc).imgOf e).coefI (fK a.toNat)))) ∧
  (∀ (s : State) (sc : Sec) (e : EngSel) (a : BitVec 26) (r : EngRun), s.issues sc e 0x18 a r 1 →
    ∃ t, exec (.cmp sc e a) s = .next t ∧ s.ranOnly t sc e ∧
      (t.dev.sc sc).runOf e = { r with
        clk := r.clk + 1, exe := r.exe + 1, pc := r.pc + 1
        z := decide (r.srcAt (fA a.toNat) 0 = r.srcAt (fB a.toNat) 0), n := decide (r.srcAt (fA a.toNat) 0 < r.srcAt (fB a.toNat) 0) }) ∧
  (∀ (s : State) (sc : Sec) (e : EngSel) (a : BitVec 26) (r : EngRun), s.issues sc e 0x01 a r 1 →
    ∃ t, exec (.nop sc e a) s = .next t ∧ s.ranOnly t sc e ∧
      (t.dev.sc sc).runOf e = { r with clk := r.clk + 1, exe := r.exe + 1, pc := r.pc + 1 }) ∧
  (∀ (s : State) (sc : Sec) (e : EngSel) (a : BitVec 26) (r : EngRun), s.issues sc e 0x21 a r 3 →
    ∃ t, exec (.lut sc e a) s = .next t ∧ s.ranOnly t sc e ∧
      let img := (s.dev.sc sc).imgOf e
      let kh := bitsN a.toNat 10 0
      let tab := selOf (r.st.sel.get ⟨r.ctx % 4, by omega⟩) (bitsN a.toNat 13 11)
      let v := lookup (r.srcAt (bitsN a.toNat 19 14) 0) (img.coefI (2 * kh)) (Tbl.get (fun _ => (0 : W)) img.coef (2 * kh + 1)).toNat
        (fun i => (Tbl.get (fun _ => (0 : W)) img.lut (512 * tab + i)).toInt)
      r.gave ((t.dev.sc sc).runOf e) (fD a.toNat) 1 3 (fun _ => (v.1, v.2.2))) ∧
  (∀ (s : State) (sc : Sec) (e : EngSel) (a : BitVec 26) (r : EngRun), s.issues sc e 0x27 a r 1 →
    ∃ t, exec (.py sc e a) s = .next t ∧ s.ranOnly t sc e ∧
      r.gave ((t.dev.sc sc).runOf e) (fD a.toNat) 1 1 (fun _ => ((r.st.ch (4 * r.ctx + bitsN a.toNat 19 18)).y, false))) ∧
  (∀ (s : State) (sc : Sec) (e : EngSel) (a : BitVec 26) (r : EngRun), s.issues sc e 0x2A a r 1 → a.toNat % 256 < 0x40 →
    ∃ t, exec (.rdi sc e a) s = .next t ∧ s.ranOnly t sc e ∧
      let x := rdiValue ((s.dev.sc sc).envOf e (fun _ => 0) none 0) r.ctx (a.toNat % 256)
      r.gave ((t.dev.sc sc).runOf e) (fD a.toNat) 1 1 (fun _ => if a.getLsbD 19 then wsat (x * 2 ^ 27) else ((intW x).toInt, false))) ∧
  (∀ (s : State) (sc : Sec) (e : EngSel) (a : BitVec 26) (r : EngRun), s.issues sc e 0x2A a r 1 → 0x40 ≤ a.toNat % 256 →
    (s.dev.sc sc).eng.tin.assist = true →
    ∃ t, exec (.rdi sc e a) s = .next t ∧ s.sameStore t ∧ s.dev.secsBut t.dev [sc] ∧
      let key := itemKey r.ctx (a.toNat % 256)
      let v := (Tbl.get (fun _ => none) (s.dev.sc sc).eng.tin.items key).getD (s.dev.engItem sc r.ctx (a.toNat % 256))
      r.gave ((t.dev.sc sc).runOf e) (fD a.toNat) 1 1 (fun _ => if a.getLsbD 19 then wsat (v.toInt * 2 ^ 27) else (v.toInt, false)) ∧
      Tbl.get (fun _ => none) (t.dev.sc sc).eng.tin.items key = some v ∧ (t.dev.sc sc).regs = (s.dev.sc sc).regs)

/-- Part of R158, R183: a matrix instruction whose descriptor is defined and lies in the memories gives row i the accumulated products of its
coefficients with the gathered registers, and the bias where it has one, rounded once; that writeback is within half a unit of the
exact value, goes to the even word at a tie, and saturates outside the word's range. -/
def Obligations.MatrixAccumulatesAndRoundsOnce : Prop :=
  (∀ (s : State) (sc : Sec) (e : EngSel) (a : BitVec 26) (r : EngRun) (rows cols mb bb : Nat) (bias : Bool) (gs : List Nat),
      let cu (k : Nat) : Nat := (Tbl.get (fun _ => (0 : W)) ((s.dev.sc sc).imgOf e).coef k).toNat
      let kd := fK a.toNat
      rows = bitsN (cu kd) 31 28 + 1 → cols = bitsN (cu kd) 25 20 + 1 → mb = cu kd % 4096 → bb = cu (kd + 1) % 4096 →
      bias = Nat.testBit (cu kd) 16 → cu kd &&& 0x0C0EF000 = 0 → cu (kd + 1) &&& 0xFFFFF000 = 0 → cols ≤ 36 →
      kd + 2 + (cols + 3) / 4 ≤ 4096 →
      gs = (upTo ((cols + 3) / 4)).flatMap (fun i =>
        [bitsN (cu (kd + 2 + i)) 7 0, bitsN (cu (kd + 2 + i)) 15 8, bitsN (cu (kd + 2 + i)) 23 16, bitsN (cu (kd + 2 + i)) 31 24]) →
      gatherOk gs cols = true → mb + rows * cols ≤ 4096 → (bias = true → bb + rows ≤ 4096) → fD a.toNat + rows ≤ 64 →
      s.issues sc e 0x20 a r (4 + (rows * cols + 7) / 8) →
      ∃ t, exec (.mvm sc e a) s = .next t ∧ s.ranOnly t sc e ∧
        let co := ((s.dev.sc sc).imgOf e).coefI
        r.gave ((t.dev.sc sc).runOf e) (fD a.toNat) rows (4 + (rows * cols + 7) / 8) (fun i =>
          accOut ((if bias then co (bb + i) * 2 ^ 27 else 0) +
            ((upTo cols).map (fun j => co (mb + i * cols + j) * r.srcAt (gs.getD j 0) 0)).sum))) ∧
  (∀ a : Int, -(2 ^ 71) ≤ a → a < 2 ^ 71 →
      (2 * a < -(2 ^ 32 + 1) * 2 ^ 27 → accOut a = (-(2 ^ 31), true)) ∧
      ((2 ^ 32 - 1) * 2 ^ 27 ≤ 2 * a → accOut a = (2 ^ 31 - 1, true)) ∧
      (-(2 ^ 32 + 1) * 2 ^ 27 ≤ 2 * a → 2 * a < (2 ^ 32 - 1) * 2 ^ 27 →
        (accOut a).2 = false ∧ 2 * ((accOut a).1 * 2 ^ 27 - a).natAbs ≤ 2 ^ 27 ∧
        (2 * ((accOut a).1 * 2 ^ 27 - a).natAbs = 2 ^ 27 → (accOut a).1 % 2 = 0)))


/-- Part of R165, R166, R167, R182: PSTEP steps its channel once with the run's periods and marks it stepped; PTGT gives it a target and
PSET its output, at rest; LSEL changes one selector of the running context. -/
def Obligations.ProfileAndSelectorInstructions : Prop :=
  (∀ (s : State) (sc : Sec) (e : EngSel) (a : BitVec 26) (r : EngRun) (ch : Nat), s.issues sc e 0x24 a r 6 →
    ch = 4 * r.ctx + bitsN a.toNat 25 24 → fK a.toNat ≤ 4092 → r.stepped.getLsbD ch = false →
    ∃ t, exec (.pstep sc e a) s = .next t ∧ s.ranOnly t sc e ∧
      let cu (k : Nat) : Nat := (Tbl.get (fun _ => (0 : W)) ((s.dev.sc sc).imgOf e).coef k).toNat
      let n := if a.getLsbD 23 then (clampI 1 255 (r.srcAt (bitsN a.toNat 19 14) 0)).toNat else (s.dev.sc sc).eng.tin.delta
      let p := (profStep (r.st.ch ch) n (cu (fK a.toNat)) (cu (fK a.toNat + 1)) (cu (fK a.toNat + 2)) (cu (fK a.toNat + 3))).1
      let r' := (t.dev.sc sc).runOf e
      r' = { r with
        clk := r.clk + 6, exe := r.exe + 6, pc := r.pc + 1, satf := r'.satf, marks := r'.marks
        stepped := r.stepped ||| BitVec.ofNat 16 (2 ^ ch)
        st := { r.st.setCh ch p with plim := Tbl.set (fun _ => none) r.st.plim ch (some (fK a.toNat)) } }) ∧
  (∀ (s : State) (sc : Sec) (e : EngSel) (a : BitVec 26) (r : EngRun) (ch : Nat), s.issues sc e 0x25 a r 1 →
    ch = 4 * r.ctx + bitsN a.toNat 25 24 →
    ∃ t, exec (.ptgt sc e a) s = .next t ∧ s.ranOnly t sc e ∧
      (t.dev.sc sc).runOf e = { r with
        clk := r.clk + 1, exe := r.exe + 1, pc := r.pc + 1
        st := r.st.setCh ch { r.st.ch ch with tgt := r.srcAt (fA a.toNat) 0 } }) ∧
  (∀ (s : State) (sc : Sec) (e : EngSel) (a : BitVec 26) (r : EngRun) (ch : Nat), s.issues sc e 0x26 a r 1 →
    ch = 4 * r.ctx + bitsN a.toNat 25 24 →
    ∃ t, exec (.pset sc e a) s = .next t ∧ s.ranOnly t sc e ∧
      (t.dev.sc sc).runOf e = { r with
        clk := r.clk + 1, exe := r.exe + 1, pc := r.pc + 1
        st := r.st.setCh ch { r.st.ch ch with x := r.srcAt (fA a.toNat) 0 * 2 ^ 32, v := 0, a := 0 } }) ∧
  (∀ (s : State) (sc : Sec) (e : EngSel) (a : BitVec 26) (r : EngRun), s.issues sc e 0x22 a r 1 →
    ∃ t, exec (.lsel sc e a) s = .next t ∧ s.ranOnly t sc e ∧
      let r' := (t.dev.sc sc).runOf e
      r' = { r with clk := r.clk + 1, exe := r.exe + 1, pc := r.pc + 1, st := { r.st with sel := r'.st.sel } } ∧
      (∀ c : Fin 4, ∀ tab, tab < 8 → selOf (r'.st.sel.get c) tab =
        if c.val = r.ctx % 4 ∧ tab = bitsN a.toNat 25 23 then bitsN a.toNat 22 20 else selOf (r.st.sel.get c) tab))

/-- Part of R160, R187, R189: the instructions that gather a commit's results in the run: DUTY and DSET replace the words of one leg's
buffer that they name, OUT one published word, REQ one request bit, and SEND appends a message for a ring. -/
def Obligations.ResultInstructionsFillTheRun : Prop :=
  (∀ (s : State) (sc : Sec) (e : EngSel) (a : BitVec 26) (r : EngRun) (leg : Fin 4), s.issues sc e 0x2C a r 1 →
    leg.val = bitsN a.toNat 25 24 →
    ∃ t, exec (.duty sc e a) s = .next t ∧ s.ranOnly t sc e ∧
      let cfg := (s.dev.sc sc).eng.tin.cfg.get leg
      let v := dutyWord (r.srcAt (fA a.toNat) 0) (fbit Fld.CAR_CFG_RATIO cfg) (presc cfg) (((r.buf.get leg).getD 0 0).toNat % 65536)
      let r' := (t.dev.sc sc).runOf e
      r' = { r with clk := r.clk + 1, exe := r.exe + 1, pc := r.pc + 1, satf := r'.satf, marks := r'.marks, buf := r'.buf } ∧
      (∀ i, i < (r.buf.get leg).length → (r'.buf.get leg).getD i 0 =
        if i ∈ cselWords (bitsN a.toNat 23 20) then v.1 else (r.buf.get leg).getD i 0) ∧
      (∀ l, l ≠ leg → r'.buf.get l = r.buf.get l) ∧ r'.satf = (r.satf || v.2)) ∧
  (∀ (s : State) (sc : Sec) (e : EngSel) (a : BitVec 26) (r : EngRun) (leg : Fin 4) (i : Nat) (m : W), s.issues sc e 0x2D a r 1 →
    leg.val = bitsN a.toNat 25 24 → dsetWord (bitsN a.toNat 23 20) = some (i, m) → i < (r.buf.get leg).length →
    ∃ t, exec (.dset sc e a) s = .next t ∧ s.ranOnly t sc e ∧
      let r' := (t.dev.sc sc).runOf e
      r' = { r with clk := r.clk + 1, exe := r.exe + 1, pc := r.pc + 1, buf := r'.buf } ∧
      (r'.buf.get leg).getD i 0 = intW (r.srcAt (fA a.toNat) 0) &&& m ∧
      (∀ j, j ≠ i → j < (r.buf.get leg).length → (r'.buf.get leg).getD j 0 = (r.buf.get leg).getD j 0) ∧
      (∀ l, l ≠ leg → r'.buf.get l = r.buf.get l)) ∧
  (∀ (s : State) (sc : Sec) (e : EngSel) (a : BitVec 26) (r : EngRun), s.issues sc e 0x2E a r 1 →
    ∃ t, exec (.out sc e a) s = .next t ∧ s.ranOnly t sc e ∧
      let v := accOut (r.srcAt (fA a.toNat) 0 * ((s.dev.sc sc).imgOf e).coefI (fK a.toNat))
      let r' := (t.dev.sc sc).runOf e
      r' = { r with clk := r.clk + 1, exe := r.exe + 1, pc := r.pc + 1, satf := r.satf || v.2, marks := r'.marks, outs := r'.outs } ∧
      (∀ i, Tbl.get (fun _ => none) r'.outs i =
        if i = bitsN a.toNat 25 21 then some (intW v.1) else Tbl.get (fun _ => none) r.outs i)) ∧
  (∀ (s : State) (sc : Sec) (e : EngSel) (a : BitVec 26) (r : EngRun), s.issues sc e 0x2F a r 1 →
    ∃ t, exec (.req sc e a) s = .next t ∧ s.ranOnly t sc e ∧
      (t.dev.sc sc).runOf e = { r with
        clk := r.clk + 1, exe := r.exe + 1, pc := r.pc + 1, reqs := r.reqs ||| BitVec.ofNat 16 (2 ^ (a.toNat % 16)) }) ∧
  (∀ (s : State) (sc : Sec) (e : EngSel) (a : BitVec 26) (r : EngRun) (n : Nat), n = a.toNat % 16 + 1 →
    s.issues sc e 0x30 a r (vecClk n) → fA a.toNat % 64 + n ≤ 64 →
    ((r.sends.filter (fun m => m.1 = bitsN a.toNat 25 25)).map (fun m => m.2.length)).sum + n ≤ 64 →
    ∃ t, exec (.send sc e a) s = .next t ∧ s.ranOnly t sc e ∧
      (t.dev.sc sc).runOf e = { r with
        clk := r.clk + vecClk n, exe := r.exe + vecClk n, pc := r.pc + 1
        sends := r.sends ++ [(bitsN a.toNat 25 25, (upTo n).map (fun j => intW (r.srcAt (fA a.toNat) j)))] })

/-- Part of R152, R190, R191: a branch goes to its target in two clocks where its condition holds, else on in one, and clears W where it
asked for it; CALL and RET keep the return address on the stack; WAIT holds the run to its clock, which WAIT_COMPLETE ends; NEXT
goes on in the next running context with an empty stack. -/
def Obligations.ControlInstructionsMoveTheRun : Prop :=
  (∀ (s : State) (sc : Sec) (e : EngSel) (a : BitVec 26) (r : EngRun),
    s.issues sc e 0x02 a r (if r.cond ((s.dev.sc sc).envOf e (fun _ => 0) none 0).first (bitsN a.toNat 25 22) then 2 else 1) →
    bitsN a.toNat 10 0 < ((s.dev.sc sc).imgOf e).count →
    ∃ t, exec (.br sc e a) s = .next t ∧ s.ranOnly t sc e ∧
      let hold := r.cond ((s.dev.sc sc).envOf e (fun _ => 0) none 0).first (bitsN a.toNat 25 22)
      (t.dev.sc sc).runOf e = { r with
        clk := r.clk + (if hold then 2 else 1), exe := r.exe + (if hold then 2 else 1)
        pc := if hold then bitsN a.toNat 10 0 else r.pc + 1
        w := r.w && decide (bitsN a.toNat 25 22 ≠ 11 ∧ bitsN a.toNat 25 22 ≠ 12) }) ∧
  (∀ (s : State) (sc : Sec) (e : EngSel) (a : BitVec 26) (r : EngRun), s.issues sc e 0x03 a r 2 →
    bitsN a.toNat 10 0 < ((s.dev.sc sc).imgOf e).count → r.stack.length < 8 →
    ∃ t, exec (.call sc e a) s = .next t ∧ s.ranOnly t sc e ∧
      (t.dev.sc sc).runOf e = { r with
        clk := r.clk + 2, exe := r.exe + 2, pc := bitsN a.toNat 10 0, stack := (r.pc + 1) :: r.stack }) ∧
  (∀ (s : State) (sc : Sec) (e : EngSel) (a : BitVec 26) (r : EngRun) (p : Nat) (rest : List Nat), s.issues sc e 0x04 a r 2 →
    r.stack = p :: rest →
    ∃ t, exec (.ret sc e a) s = .next t ∧ s.ranOnly t sc e ∧
      (t.dev.sc sc).runOf e = { r with clk := r.clk + 2, exe := r.exe + 2, pc := p, stack := rest }) ∧
  (∀ (s : State) (sc : Sec) (e : EngSel) (a : BitVec 26) (r : EngRun), s.issues sc e 0x05 a r 1 →
    ∃ t, exec (.wait sc e a) s = .next t ∧ s.ranOnly t sc e ∧
      (t.dev.sc sc).runOf e = { r with
        clk := r.clk + 1, exe := r.exe + 1, pc := r.pc + 1
        wait := if r.clk + 1 < bitsN a.toNat 19 0 then some (bitsN a.toNat 19 0) else r.wait }) ∧
  (∀ (s : State) (sc : Sec) (e : EngSel) (r : EngRun) (c : Nat), s.awake → (s.dev.sc sc).engRun e = some r → r.wait = some c →
    c ≤ (s.dev.sc sc).deadlineOf e →
    ∃ t, exec (.waitComplete sc e) s = .next t ∧ s.sameStore t ∧ s.dev.secsBut t.dev [sc] ∧
      t.dev.sc sc = (s.dev.sc sc).setRun e (some { r with wait := none, clk := max r.clk c }) ∧
      t.dev = { s.dev with sec := t.dev.sec }) ∧
  (∀ (s : State) (sc : Sec) (e : EngSel) (a : BitVec 26) (r : EngRun) (c : Nat), s.issues sc e 0x06 a r 2 →
    (s.dev.sc sc).nextCtx r.ctx = some c →
    ∃ t, exec (.next sc e a) s = .next t ∧ s.ranOnly t sc e ∧
      (t.dev.sc sc).runOf e = { r with
        clk := r.clk + 2, exe := r.exe + 2, ctx := c, pc := ((s.dev.sc sc).imgOf e).entry.get ⟨c % 4, by omega⟩, stack := [] })

/-- Part of R90, R180, R185: a window read of a slot whose result has arrived gives the field it names, RDW raw and WAVG scaled by the
count, and sets W for a suspect result; the result stays fixed for the tick. A slot that the input map leaves out reads 0 with W
set, and a pending accumulator stalls the run. -/
def Obligations.WindowReadsGiveTheResult : Prop :=
  (∀ (s : State) (sc : Sec) (e : EngSel) (a : BitVec 26) (r : EngRun) (m : W) (k : Nat), s.issues sc e 0x28 a r 1 →
    m = Tbl.get (fun _ => (0xFFFFFFFF : W)) ((s.dev.sc sc).imgOf e).imap (bitsN a.toNat 4 0) → m ≠ 0xFFFFFFFF →
    k = 4 * bitsN m.toNat 5 2 + bitsN m.toNat 1 0 → ((s.dev.sc sc).acc k).fixed = none → ((s.dev.sc sc).acc k).pend = false →
    ∃ t, exec (.rdw sc e a) s = .next t ∧ s.sameStore t ∧ s.dev.secsBut t.dev [sc] ∧
      let q := ((s.dev.sc sc).acc k).got
      r.gave ((t.dev.sc sc).runOf e) (fD a.toNat) 1 1 (fun _ => ((intW (accField q (bitsN m.toNat 18 16))).toInt, false)) ∧
      ((t.dev.sc sc).runOf e).w = (r.w || accSuspect q) ∧ ((t.dev.sc sc).acc k).fixed = some q ∧
      (t.dev.sc sc).regs = (s.dev.sc sc).regs ∧ t.dev = { s.dev.quiet with sec := t.dev.sec }) ∧
  (∀ (s : State) (sc : Sec) (e : EngSel) (a : BitVec 26) (r : EngRun) (m : W) (k : Nat) (q : AccRes), s.issues sc e 0x29 a r 4 →
    m = Tbl.get (fun _ => (0xFFFFFFFF : W)) ((s.dev.sc sc).imgOf e).imap (bitsN a.toNat 16 12) → m ≠ 0xFFFFFFFF →
    k = 4 * bitsN m.toNat 5 2 + bitsN m.toNat 1 0 → ((s.dev.sc sc).acc k).fixed = some q → q.stat.toNat % 65536 ≠ 0 →
    ∃ t, exec (.wavg sc e a) s = .next t ∧ s.ranOnly t sc e ∧
      r.gave ((t.dev.sc sc).runOf e) (fD a.toNat) 1 4 (fun _ =>
        wsat (divEven (q.sum.toInt * ((s.dev.sc sc).imgOf e).coefI (fK a.toNat)) (q.stat.toNat % 65536))) ∧
      ((t.dev.sc sc).runOf e).w = (r.w || accSuspect q)) ∧
  (∀ (s : State) (sc : Sec) (e : EngSel) (a : BitVec 26) (r : EngRun), s.issues sc e 0x28 a r 1 →
    Tbl.get (fun _ => (0xFFFFFFFF : W)) ((s.dev.sc sc).imgOf e).imap (bitsN a.toNat 4 0) = 0xFFFFFFFF →
    ∃ t, exec (.rdw sc e a) s = .next t ∧ s.ranOnly t sc e ∧
      r.gave ((t.dev.sc sc).runOf e) (fD a.toNat) 1 1 (fun _ => (0, false)) ∧ ((t.dev.sc sc).runOf e).w = true) ∧
  (∀ (s : State) (sc : Sec) (e : EngSel) (a : BitVec 26) (r : EngRun) (m : W) (k : Nat), s.issues sc e 0x28 a r 1 →
    m = Tbl.get (fun _ => (0xFFFFFFFF : W)) ((s.dev.sc sc).imgOf e).imap (bitsN a.toNat 4 0) → m ≠ 0xFFFFFFFF →
    k = 4 * bitsN m.toNat 5 2 + bitsN m.toNat 1 0 → ((s.dev.sc sc).acc k).fixed = none → ((s.dev.sc sc).acc k).pend = true →
    (s.dev.sc sc).armed k = true → (s.dev.sc sc).accMode k = 0 →
    ∃ t, exec (.rdw sc e a) s = .next t ∧ s.ranOnly t sc e ∧ (t.dev.sc sc).runOf e = { r with stall := true })

/-! ### Ticks (spec/01_architecture.md, spec/07_engine.md) -/

/-- Part of R12, R13, R152: an accepted trigger, the one that TICK_CFG selects, counts in TRIG_CNT and starts a run at the entry of
context 0 from the committed state, with the time of the tick fixed; one inside 500 clocks of the last, or while a run goes on, is
an overrun and starts nothing; what TICK_CFG does not select, or comes in a state without ticks, changes nothing. -/
def Obligations.TriggersStartTicks : Prop :=
  (∀ (s : State) (sc : Sec) (clk : Nat), s.awake → (s.dev.sc sc).ticks = true → (s.dev.sc sc).selects clk →
    500 ≤ clk → (s.dev.sc sc).eng.run = none →
    ∃ t, exec (.tickTrigger sc clk) s = .next t ∧ t.pending = s.pending ∧
      (t.dev.sc sc).rd Reg.TRIG_CNT = (s.dev.sc sc).rd Reg.TRIG_CNT + 1 ∧ (t.dev.sc sc).eng.run.isSome = true ∧
      let r := (t.dev.sc sc).runOf .run
      r.pc = ((t.dev.sc sc).imgOf .run).entry.q0 ∧ r.st = (t.dev.sc sc).eng.st ∧ r.ctx = 0 ∧ r.again = false ∧
      (t.dev.sc sc).eng.tin.time = s.dev.stamp ∧ (t.dev.sc sc).trig = none ∧
      (∀ k, k ≠ sc → t.dev.sc k = { s.dev.sc k with fc := (t.dev.sc k).fc })) ∧
  (∀ (s : State) (sc : Sec) (clk : Nat), s.awake → (s.dev.sc sc).ticks = true → (s.dev.sc sc).selects clk →
    clk < 500 ∨ (s.dev.sc sc).eng.run.isSome = true →
    ∃ t, exec (.tickTrigger sc clk) s = .next t ∧ s.sameStore t ∧
      (t.dev.sc sc).fld Reg.TICK_STAT Fld.TICK_STAT_OVERRUN = min 255 ((s.dev.sc sc).fld Reg.TICK_STAT Fld.TICK_STAT_OVERRUN + 1) ∧
      (t.dev.sc sc).fc.raised 4 ∧ (t.dev.sc sc).eng = (s.dev.sc sc).eng ∧ (s.dev.sc sc).regsBut (t.dev.sc sc) [Reg.TICK_STAT] ∧
      s.dev.secsBut t.dev [sc] ∧ t.dev = { s.dev.quiet with sec := t.dev.sec }) ∧
  (∀ (s : State) (sc : Sec) (clk : Nat), s.awake → (s.dev.sc sc).ticks = false ∨ ¬(s.dev.sc sc).selects clk →
    ∃ t, exec (.tickTrigger sc clk) s = .next t ∧ s.sameStore t ∧ t.dev = s.dev.quiet)

/-- Part of R15, R156, R157, R171: a COMMIT in the last context, with both engines in agreement, ends the run: the run's state becomes the
committed one, its published words and requests go out, COMMIT_CNT counts, and the stale count starts again. B's COMMIT in a
proof tick only records its mask (R350). -/
def Obligations.CommitPublishesTheRun : Prop :=
  (∀ (s : State) (sc : Sec) (a : BitVec 26) (agree : Bool) (r : EngRun), s.issues sc .run 0x07 a r 1 →
    (s.dev.sc sc).nextCtx r.ctx = none → (s.dev.sc sc).eng.mode ≠ 0 ∨ (agree = true ∧ (s.dev.sc sc).eng.injMis = false) →
    ∃ t, exec (.commit sc .run a agree) s = .next t ∧ t.pending = s.pending ∧ (t.dev.sc sc).eng.run = none ∧
      (t.dev.sc sc).eng.st = r.st ∧ (t.dev.sc sc).eng.first = false ∧ (t.dev.sc sc).eng.stale = 0 ∧
      (t.dev.sc sc).rd Reg.COMMIT_CNT = (s.dev.sc sc).rd Reg.COMMIT_CNT + 1 ∧
      (t.dev.sc sc).fld Reg.TICK_LAST Fld.TICK_LAST_COMMIT_CLK = r.clk ∧
      (t.dev.sc sc).fld Reg.ENG_STAT Fld.ENG_STAT_STALE_RUN = 0 ∧
      (∀ i, i < 32 → Tbl.get (fun _ => (0 : W)) (t.dev.sc sc).eng.outs i =
        (Tbl.get (fun _ => none) r.outs i).getD (Tbl.get (fun _ => (0 : W)) (s.dev.sc sc).eng.outs i)) ∧
      (∀ i, i < 16 → r.reqs.getLsbD i = true → (t.dev.sc sc).fc.raised (48 + i)) ∧
      t.dev.secSt sc = s.dev.secSt sc ∧ (∀ k, k ≠ sc → t.dev.sc k = { s.dev.sc k with fc := (t.dev.sc k).fc })) ∧
  (∀ (s : State) (sc : Sec) (a : BitVec 26) (agree : Bool) (r : EngRun), s.issues sc .proof 0x07 a r 1 →
    (s.dev.sc sc).nextCtx r.ctx = none → (s.dev.sc sc).couch.aDone = false →
    ∃ t, exec (.commit sc .proof a agree) s = .next t ∧ s.sameStore t ∧
      (t.dev.sc sc).couch.done = some (a.toNat % 16) ∧ (t.dev.sc sc).eng.st = (s.dev.sc sc).eng.st ∧
      (t.dev.sc sc).regs = (s.dev.sc sc).regs ∧ s.dev.secsBut t.dev [sc] ∧ t.dev.regs = s.dev.regs)

/-- Part of R16, R168, R169, R171, R173: the first disagreement of the pair in a tick, in the results of a COMMIT after 4 clocks or at any
instruction in the next clock, rolls the run back by 32 clocks, the recompute then starts from the committed state, and a second
one, the deadline, or a program fault leaves the tick stale: no run goes on, the stale count rises, and nothing is committed. -/
def Obligations.FailedTicksLeaveTheCommittedState : Prop :=
  (∀ (s : State) (sc : Sec) (a : BitVec 26) (r : EngRun), s.issues sc .run 0x07 a r 1 → (s.dev.sc sc).nextCtx r.ctx = none →
    (s.dev.sc sc).eng.mode = 0 → r.again = false →
    ∃ t, exec (.commit sc .run a false) s = .next t ∧ s.sameStore t ∧ ((t.dev.sc sc).runOf .run).roll = some (r.clk + 36) ∧
      (t.dev.sc sc).eng.run.isSome = true ∧ (t.dev.sc sc).fc.raised 40 ∧ (t.dev.sc sc).eng.st = (s.dev.sc sc).eng.st ∧
      (s.dev.sc sc).regsBut (t.dev.sc sc) [Reg.ENG_EVCNT, Reg.TICK_STAT] ∧ s.dev.secsBut t.dev [sc]) ∧
  (∀ (s : State) (sc : Sec) (a : BitVec 26) (r : EngRun), s.issues sc .run 0x07 a r 1 → (s.dev.sc sc).nextCtx r.ctx = none →
    (s.dev.sc sc).eng.mode = 0 → r.again = true →
    ∃ t, exec (.commit sc .run a false) s = .next t ∧ s.sameStore t ∧ (t.dev.sc sc).eng.run = none ∧
      (t.dev.sc sc).eng.stale = (s.dev.sc sc).eng.stale + 1 ∧ (t.dev.sc sc).eng.st = (s.dev.sc sc).eng.st ∧
      (s.dev.sc sc).regsBut (t.dev.sc sc) [Reg.ENG_EVCNT, Reg.TICK_STAT, Reg.ENG_STAT] ∧ s.dev.secsBut t.dev [sc]) ∧
  (∀ (s : State) (c : Instr) (sc : Sec) (op : Nat) (a : BitVec 26) (r : EngRun), s.awake → engineOp c = some (sc, .split, op, a) →
    (s.dev.sc sc).issue .split op a = .go r → (s.dev.sc sc).eng.mode = 0 →
    ∃ t, exec c s = .next t ∧ s.sameStore t ∧ (t.dev.sc sc).fc.raised 40 ∧ (t.dev.sc sc).eng.st = (s.dev.sc sc).eng.st ∧
      (r.again = false → (t.dev.sc sc).eng.run = some { r with stall := false, wait := none, roll := some (r.clk + 33) }) ∧
      (r.again = true → (t.dev.sc sc).eng.run = none ∧ (t.dev.sc sc).eng.stale = (s.dev.sc sc).eng.stale + 1) ∧
      (s.dev.sc sc).regsBut (t.dev.sc sc) [Reg.ENG_EVCNT, Reg.TICK_STAT, Reg.ENG_STAT] ∧ s.dev.secsBut t.dev [sc]) ∧
  (∀ (s : State) (sc : Sec) (r : EngRun) (c : Nat), s.awake → (s.dev.sc sc).eng.run = some r → r.roll = some c →
    c ≤ (s.dev.sc sc).deadlineOf .run →
    ∃ t, exec (.recomputeStart sc) s = .next t ∧ s.sameStore t ∧
      (t.dev.sc sc).runOf .run = freshRun ((s.dev.sc sc).imgOf .run) (s.dev.sc sc).eng.st (s.dev.sc sc).eng.tin.buf c true ∧
      t.dev.sc sc = { s.dev.sc sc with eng := { (s.dev.sc sc).eng with run := (t.dev.sc sc).eng.run } } ∧
      s.dev.secsBut t.dev [sc] ∧ t.dev = { s.dev with sec := t.dev.sec }) ∧
  (∀ (s : State) (sc : Sec), s.awake → (s.dev.sc sc).eng.run.isSome = true →
    ∃ t, exec (.tickDeadlineExpiry sc) s = .next t ∧ s.sameStore t ∧ (t.dev.sc sc).eng.run = none ∧
      (t.dev.sc sc).eng.stale = (s.dev.sc sc).eng.stale + 1 ∧ (t.dev.sc sc).fc.raised 41 ∧
      (t.dev.sc sc).eng.st = (s.dev.sc sc).eng.st ∧ (t.dev.sc sc).eng.outs = (s.dev.sc sc).eng.outs ∧
      (s.dev.sc sc).regsBut (t.dev.sc sc) [Reg.TICK_STAT, Reg.ENG_STAT] ∧ s.dev.secsBut t.dev [sc]) ∧
  (∀ (s : State) (sc : Sec) (a : BitVec 26) (r : EngRun), s.issues sc .run 0x04 a r 2 → r.stack = [] →
    (s.dev.sc sc).flag Reg.PROG_FAULT Fld.PROG_FAULT_VALID = false → r.ctx < 4 →
    ∃ t, exec (.ret sc .run a) s = .next t ∧ s.sameStore t ∧ (t.dev.sc sc).eng.run = none ∧ (t.dev.sc sc).fc.raised 43 ∧
      (t.dev.sc sc).fld Reg.PROG_FAULT Fld.PROG_FAULT_CAUSE = 6 ∧ (t.dev.sc sc).fld Reg.PROG_FAULT Fld.PROG_FAULT_CTX = r.ctx ∧
      (t.dev.sc sc).eng.st = (s.dev.sc sc).eng.st ∧ s.dev.secsBut t.dev [sc])

/-- Part of R22, R89, R90, R155, R157, R163, R318, R358: the results of the oldest FIFO entry reach the section, clear the pending mark of an
accumulator with the last result that waited, and let a run stalled on a window read go on; PARAM_COMMIT makes the staging words
live; a read of ENG_OUT_SEQ takes the port's snapshot of the published words; a ring message goes to the staging words of its
section, which become live, and a section that does not answer or is claimed takes none of it, each write being a bus error;
a corrected or uncorrectable memory word is counted and remembered. -/
def Obligations.EngineInputsOutputsAndScrubs : Prop :=
  (∀ (s : State) (sc : Sec) (clk : Nat) (es : List (Nat × AccRes)) (rest : List (List (Nat × AccRes))),
    s.awake → (s.dev.sc sc).fifo = es :: rest → (es.map (·.1)).Nodup →
    ∃ t, exec (.windowResultArrival sc clk) s = .next t ∧ s.sameStore t ∧ (t.dev.sc sc).fifo = rest ∧
      (∀ k q, (k, q) ∈ es → (t.dev.sc sc).acc k = { (s.dev.sc sc).acc k with
        got := q
        pend := ((s.dev.sc sc).acc k).pend && rest.any (fun l => l.any (fun e => decide (e.1 = k) && !e.2.forced)) }) ∧
      (∀ j, j ∉ es.map (·.1) → (t.dev.sc sc).acc j = (s.dev.sc sc).acc j) ∧
      (∀ r, (s.dev.sc sc).eng.run = some r → r.stall = true → (t.dev.sc sc).eng.run =
        some (if (s.dev.sc sc).atItem .run r then r else { r with stall := false, clk := max r.clk clk })) ∧
      (t.dev.sc sc).regs = (s.dev.sc sc).regs ∧ s.dev.secsBut t.dev [sc]) ∧
  (∀ (s : State) (sc : Sec), s.reach sc →
    ∃ t, exec (.paramCommit sc) s = .next t ∧ s.sameStore t ∧
      (∀ i, i < 32 → Tbl.get (fun _ => (0 : W)) (t.dev.sc sc).eng.live i = (s.dev.sc sc).rd (Reg.HOST_PARAM i)) ∧
      t.dev.sc sc = { s.dev.sc sc with eng := { (s.dev.sc sc).eng with live := (t.dev.sc sc).eng.live } } ∧
      s.dev.secsBut t.dev [sc] ∧ t.dev = { s.dev.quiet with sec := t.dev.sec }) ∧
  (∀ (s : State) (k : Port) (sc : Sec), s.ready → s.dev.secDead sc = false →
    ∃ t, exec (.engOutSeqRead k sc) s = .next t ∧ s.sameStore t ∧
      (∀ i, i < 32 → t.dev.snapRd k (secBase sc + Reg.ENG_OUT i) = Tbl.get (fun _ => (0 : W)) (s.dev.sc sc).eng.outs i) ∧
      t.dev.snapRd k (secBase sc + Reg.ENG_OUT_SEQ) = natW ((s.dev.sc sc).eng.seq.toNat % 65536) ∧
      (∀ j, j ≠ k → t.dev.snap.get j = s.dev.snap.get j) ∧ t.dev = { s.dev.quiet with snap := t.dev.snap }) ∧
  (∀ (s : State) (sc rcv : Sec) (r : Fin 2), s.awake → s.dev.fld (Reg.Q_CFG (ringQ sc r.val)) Fld.Q_CFG_DEST = 8 + rcv.val →
    s.dev.qHas (ringQ sc r.val) = true → (bytesWords (s.dev.qPayload (ringQ sc r.val))).length ≤ 32 →
    s.dev.secDead rcv = false → s.dev.claimed rcv = false →
    ∃ t, exec (.ringDelivery sc r) s = .next t ∧ s.sameStore t ∧
      t.dev.qGet (ringQ sc r.val) = (s.dev.qGet (ringQ sc r.val) + 1) % (2 * s.dev.qLen (ringQ sc r.val)) ∧
      (∀ i, i < (bytesWords (s.dev.qPayload (ringQ sc r.val))).length →
        (t.dev.sc rcv).rd (Reg.HOST_PARAM (s.dev.fld (Reg.Q_CFG (ringQ sc r.val)) Fld.Q_CFG_OFF + i)) =
          (bytesWords (s.dev.qPayload (ringQ sc r.val))).getD i 0) ∧
      (∀ i, i < 32 → Tbl.get (fun _ => (0 : W)) (t.dev.sc rcv).eng.live i = (t.dev.sc rcv).rd (Reg.HOST_PARAM i)) ∧
      s.dev.secsBut t.dev [rcv]) ∧
  (∀ (s : State) (sc rcv : Sec) (r : Fin 2), s.awake → s.dev.fld (Reg.Q_CFG (ringQ sc r.val)) Fld.Q_CFG_DEST = 8 + rcv.val →
    s.dev.qHas (ringQ sc r.val) = true → s.dev.secDead rcv = true ∨ s.dev.claimed rcv = true →
    ∃ t, exec (.ringDelivery sc r) s = .next t ∧ s.sameStore t ∧ t.dev.fc.raised 40 ∧ t.dev.sec = s.dev.sec ∧
      t.dev.qGet (ringQ sc r.val) = (s.dev.qGet (ringQ sc r.val) + 1) % (2 * s.dev.qLen (ringQ sc r.val)) ∧
      (s.dev.flag Reg.BUS_ERR_STAT Fld.BUS_ERR_STAT_VALID = false →
        t.dev.fld Reg.BUS_ERR_STAT Fld.BUS_ERR_STAT_CAUSE = if s.dev.secDead rcv then 1 else 3)) ∧
  (∀ (s : State) (sc : Sec) (b : Bool) (mem : Fin 4) (addr : Fin 4096) (ok : Bool), s.awake →
    b = false ∨ s.dev.injAt sc.val mem.val addr.val = none →
    ∃ t, exec (.scrubRead sc b mem addr .corrected ok) s = .next t ∧ s.sameStore t ∧ (t.dev.sc sc).fc.raised 44 ∧
      (t.dev.sc sc).fld Reg.ENG_EVCNT Fld.ENG_EVCNT_ECC_CE = min 255 ((s.dev.sc sc).fld Reg.ENG_EVCNT Fld.ENG_EVCNT_ECC_CE + 1) ∧
      (t.dev.sc sc).eng = (s.dev.sc sc).eng ∧ (s.dev.sc sc).regsBut (t.dev.sc sc) [Reg.ENG_EVCNT] ∧
      s.dev.secsBut t.dev [sc] ∧ t.dev = { s.dev.quiet with sec := t.dev.sec }) ∧
  (∀ (s : State) (sc : Sec) (mem : Fin 4) (addr : Fin 4096), s.awake → mem.val ≠ 0 →
    ∃ t, exec (.scrubRead sc false mem addr .uncorrectable true) s = .next t ∧ s.sameStore t ∧ (t.dev.sc sc).fc.raised 45 ∧
      (mem.val, addr.val) ∈ (t.dev.sc sc).eng.imgA.bad ∧ (t.dev.sc sc).eng.imgB.bad = (s.dev.sc sc).eng.imgB.bad ∧
      (t.dev.sc sc).fld Reg.ECC_STAT Fld.ECC_STAT_MEM = mem.val ∧ (t.dev.sc sc).fld Reg.ECC_STAT Fld.ECC_STAT_ADDR = addr.val ∧
      (s.dev.sc sc).regsBut (t.dev.sc sc) [Reg.ECC_STAT] ∧ s.dev.secsBut t.dev [sc])

/-! ### Measurement (spec/04_measurement.md) -/

/-- Part of R79, R83 to R86, R88, R92, R93: a saturated code sets its channel's mark, and its pair, which goes with the window that
holds it or with no accumulator armed; arming clears the results and starts SEQ again; the code that completes a COUNT window, the
boundary of a TIME window and the 65,535th code close the window with its sum, count and extremes and open the next; 64 codes at
full rate give one stream word, which stands for 24.0 µs earlier; a read of ACC_STAT takes the port's snapshot of the other results. -/
def Obligations.MeasurementWindowsCloseAndReport : Prop :=
  (∀ (s : State) (sc : Sec) (c : Fin 12) (codes : List (BitVec 14)), s.awake → (s.dev.sc sc).delivers c.val = true →
    (∃ w, w ∈ codes ∧ (correct ((s.dev.sc sc).cal c.val) w).2 = true) →
    ∃ t, exec (.adcSaturation sc c codes) s = .next t ∧ s.fed t sc (chanRegs c.val) ∧
      (t.dev.sc sc).rd Reg.ADC_SAT = (s.dev.sc sc).rd Reg.ADC_SAT ||| natW (2 ^ c.val) ∧
      ((∀ a, a < 4 → (s.dev.sc sc).armed (4 * c.val + a) = false) → (t.dev.sc sc).accs = (s.dev.sc sc).accs ∧
        (t.dev.sc sc).satPair = (s.dev.sc sc).satPair ||| BitVec.ofNat 12 (2 ^ c.val) ∧
        ((s.dev.sc sc).satPair = 0 → (t.dev.sc sc).fc.raised 5))) ∧
  (∀ (s : State) (sc : Sec) (c : Fin 12), s.awake → (∀ a, a < 4 → (s.dev.sc sc).armed (4 * c.val + a) = false) →
    ∃ t, exec (.saturationRelease sc c) s = .next t ∧ s.sameStore t ∧
      (t.dev.sc sc).satPair = (s.dev.sc sc).satPair &&& ~~~(BitVec.ofNat 12 (2 ^ c.val)) ∧
      (t.dev.sc sc).regs = (s.dev.sc sc).regs ∧ s.dev.secsBut t.dev [sc] ∧ t.dev = { s.dev with sec := t.dev.sec }) ∧
  (∀ (s : State) (sc : Sec) (k : Fin 48) (v : W), s.reach sc → s.dev.rwpOpen (secBase sc + Reg.ACC_CFG k.val) = true →
    (s.dev.sc sc).armed k.val = false → wbit v 31 = true → (s.dev.sc sc).armOk k.val (v &&& 0x7F0F0F00) = true →
    ∃ t, exec (.accCfgWrite sc k v) s = .next t ∧ s.wroteSec t sc (Reg.ACC_CFG k.val :: accRegs k.val) ∧
      (t.dev.sc sc).rd (Reg.ACC_CFG k.val) = v &&& 0x7F0F0F00 ||| 0x80000000 ∧
      (∀ a, a ∈ accRegs k.val → (t.dev.sc sc).rd a = 0) ∧ ((t.dev.sc sc).acc k.val).seq = 0 ∧
      (((t.dev.sc sc).acc k.val).isOpen = true ↔ fget Fld.ACC_CFG_MODE v = 1) ∧
      ((t.dev.sc sc).acc k.val).pend = ((s.dev.sc sc).acc k.val).pend) ∧
  (∀ (s : State) (sc : Sec) (k : Fin 48) (v : W), s.reach sc → (s.dev.sc sc).armed k.val = true → wbit v 31 = false →
    (s.dev.sc sc).rd (Reg.ACC_CFG k.val) &&& 0x7F0F0F00 = v &&& 0x7F0F0F00 →
    ∃ t, exec (.accCfgWrite sc k v) s = .next t ∧ s.wroteSec t sc (Reg.ACC_CFG k.val :: accRegs k.val) ∧
      (t.dev.sc sc).armed k.val = false ∧ ((t.dev.sc sc).acc k.val).isOpen = false ∧
      (((s.dev.sc sc).acc k.val).isOpen = false ∨ ((s.dev.sc sc).acc k.val).cnt < 65535 →
        (s.dev.sc sc).gateRegsBut (t.dev.sc sc) [Reg.ACC_CFG k.val])) ∧
  (∀ (s : State) (sc : Sec) (hi : Bool) (v : W), s.reach sc →
    ∃ t, exec (.accArm sc hi v) s = .next t ∧ s.sameStore t ∧ Dev.SectionOnly sc s.dev.quiet t.dev ∧
      (∀ j, j < (if hi then 16 else 32) →
        (t.dev.sc sc).armed (j + if hi then 32 else 0) = ((s.dev.sc sc).armed (j + if hi then 32 else 0) ||
          (wbit v j && (s.dev.sc sc).armOk (j + if hi then 32 else 0) ((s.dev.sc sc).rd (Reg.ACC_CFG (j + if hi then 32 else 0))))) ∧
        ((t.dev.sc sc).armed (j + if hi then 32 else 0) = true → (s.dev.sc sc).armed (j + if hi then 32 else 0) = false →
          (t.dev.sc sc).rd (Reg.ACC_STAT (j + if hi then 32 else 0)) = 0) ∧
        (wbit v j = true → (t.dev.sc sc).armed (j + if hi then 32 else 0) = false →
          (t.dev.sc sc).flag Reg.ADC_STAT Fld.ADC_STAT_CFG_REF = true))) ∧
  (∀ (s : State) (sc : Sec) (k : Fin 48) (c : Fin 12) (codes : List (BitVec 14)) (ys : List (Int × Bool)) (a : Acc), s.awake →
    c.val = k.val / 4 → (s.dev.sc sc).delivers c.val = true → (s.dev.sc sc).armed k.val = true → (s.dev.sc sc).accMode k.val = 1 →
    a = (s.dev.sc sc).acc k.val → a.isOpen = true → ys = codes.map (correct ((s.dev.sc sc).cal c.val)) → codes ≠ [] →
    a.cnt + codes.length = ((s.dev.sc sc).rd (Reg.ACC_PARAM k.val)).toNat % 65536 →
    ∃ t, exec (.countWindowClose sc [(c, codes)]) s = .next t ∧ s.fed t sc (chanRegs c.val) ∧
      (t.dev.sc sc).rd (Reg.ACC_SUM k.val) = intW (a.sum + (ys.map (·.1)).sum) ∧
      (t.dev.sc sc).rd (Reg.ACC_MINMAX k.val) =
        natW (uns 14 ((ys.map (·.1)).foldl min a.mn) * 0x10000 + uns 14 ((ys.map (·.1)).foldl max a.mx)) ∧
      (t.dev.sc sc).fld (Reg.ACC_STAT k.val) Fld.ACC_STAT_VALID = 1 ∧ (t.dev.sc sc).fld (Reg.ACC_STAT k.val) Fld.ACC_STAT_EMPTY = 0 ∧
      (t.dev.sc sc).fld (Reg.ACC_STAT k.val) Fld.ACC_STAT_FORCED = 0 ∧
      (t.dev.sc sc).fld (Reg.ACC_STAT k.val) Fld.ACC_STAT_SAT = b2n (a.sat || ys.any (·.2)) ∧
      (t.dev.sc sc).fld (Reg.ACC_STAT k.val) Fld.ACC_STAT_SEQ = (a.seq + 1) % 256 ∧
      (t.dev.sc sc).fld (Reg.ACC_STAT k.val) Fld.ACC_STAT_COUNT = a.cnt + codes.length ∧
      ((t.dev.sc sc).acc k.val).isOpen = true ∧ ((t.dev.sc sc).acc k.val).cnt = 0 ∧ ((t.dev.sc sc).acc k.val).sum = 0 ∧
      ((s.dev.sc sc).lowestArmed c.val = some k.val → a.sat || ys.any (·.2) → (t.dev.sc sc).satPair.getLsbD c.val = false) ∧
      ∃ es q, (t.dev.sc sc).fifo.getLast? = some es ∧ (k.val, q) ∈ es ∧ q.sum = (t.dev.sc sc).rd (Reg.ACC_SUM k.val)) ∧
  (∀ (s : State) (sc : Sec) (smp : Samples), s.awake →
    ∃ t, exec (.countWindowClose sc smp) s = .next t ∧ s.fed t sc (smp.flatMap (fun e => chanRegs e.1.val)) ∧
      (∀ k, (∀ e, e ∈ smp → e.1.val ≠ k / 4) → (t.dev.sc sc).acc k = (s.dev.sc sc).acc k) ∧
      (∀ e, e ∈ smp → (s.dev.sc sc).running e.1.val = false → e.2 ≠ [] → (t.dev.sc sc).drain.getLsbD e.1.val = false)) ∧
  (∀ (s : State) (sc : Sec) (c : Fin 12) (codes : List (BitVec 14)), s.awake → (s.dev.sc sc).delivers c.val = true →
    (s.dev.sc sc).lowPower c.val = false → ((s.dev.sc sc).decim c.val).cnt = 0 → ((s.dev.sc sc).decim c.val).half = false →
    codes.length = 64 →
    ∃ t, exec (.countWindowClose sc [(c, codes)]) s = .next t ∧ s.fed t sc (chanRegs c.val) ∧
      ((t.dev.sc sc).decim c.val).outs = ((s.dev.sc sc).decim c.val).outs + 1 ∧ ((t.dev.sc sc).decim c.val).cnt = 0 ∧
      ((t.dev.sc sc).decim c.val).half = false ∧
      ∃ w, -8388608 ≤ w ∧ w ≤ 8388607 ∧
        ((t.dev.sc sc).decim c.val).out = (((s.dev.time8 : Int) - 24000 * 256, w) :: ((s.dev.sc sc).decim c.val).out).take 32768) ∧
  (∀ (s : State) (sc : Sec) (smp : Samples) (k : Fin 48) (b : Nat) (a : Acc), s.awake → s.dev.timeInv = false →
    (s.dev.sc sc).armed k.val = true → (s.dev.sc sc).accMode k.val = 2 → (∀ e, e ∈ smp → e.1.val ≠ k.val / 4) →
    a = (s.dev.sc sc).acc k.val → a.due = some b → b ≤ s.dev.timeNs → a.isOpen = true → a.cnt < 65536 →
    ∃ t, exec (.timeWindowBoundary sc smp) s = .next t ∧ s.sameStore t ∧ s.dev.secsBut t.dev [sc] ∧
      (t.dev.sc sc).rd (Reg.ACC_SUM k.val) = intW a.sum ∧
      (t.dev.sc sc).fld (Reg.ACC_STAT k.val) Fld.ACC_STAT_COUNT = a.cnt ∧
      (t.dev.sc sc).fld (Reg.ACC_STAT k.val) Fld.ACC_STAT_EMPTY = b2n (decide (a.cnt = 0)) ∧
      (∃ e : Int, -4 ≤ e ∧ e ≤ 4 ∧ (t.dev.sc sc).rd (Reg.ACC_TSTAMP k.val) = intW ((s.dev.timeNs : Int) + e)) ∧
      ((t.dev.sc sc).acc k.val).isOpen = true ∧ ((t.dev.sc sc).acc k.val).cnt = 0 ∧
      ((t.dev.sc sc).acc k.val).due = boundaryAfter b ((s.dev.sc sc).rd (Reg.ACC_PARAM k.val)).toNat s.dev.timeNs) ∧
  (∀ (s : State) (sc : Sec) (k : Fin 48) (b : Nat), s.awake → s.dev.timeInv = false → (s.dev.sc sc).armed k.val = true →
    (s.dev.sc sc).accMode k.val = 2 → ((s.dev.sc sc).acc k.val).due = some b → b ≤ s.dev.timeNs →
    ((s.dev.sc sc).acc k.val).isOpen = false →
    ∃ t, exec (.timeWindowBoundary sc []) s = .next t ∧ s.sameStore t ∧ ((t.dev.sc sc).acc k.val).isOpen = true ∧
      (∀ a, a ∈ accRegs k.val → (t.dev.sc sc).rd a = (s.dev.sc sc).rd a) ∧ s.dev.secsBut t.dev [sc] ∧
      (∀ j, j < 48 → ¬(s.dev.sc sc).timeDue j s.dev.timeNs → (t.dev.sc sc).acc j = (s.dev.sc sc).acc j ∧
        ∀ a, a ∈ accRegs j → (t.dev.sc sc).rd a = (s.dev.sc sc).rd a)) ∧
  (∀ (s : State) (sc : Sec) (smp : Samples), s.awake → s.dev.timeInv = true →
    ∃ t, exec (.timeWindowBoundary sc smp) s = .next t ∧ s.sameStore t ∧ t.dev = s.dev) ∧
  (∀ (s : State) (sc : Sec) (k : Fin 48) (c : Fin 12) (codes : List (BitVec 14)) (ys : List (Int × Bool)) (a : Acc), s.awake →
    c.val = k.val / 4 → (s.dev.sc sc).delivers c.val = true → (s.dev.sc sc).armed k.val = true → (s.dev.sc sc).accMode k.val ≠ 1 →
    a = (s.dev.sc sc).acc k.val → a.isOpen = true → ys = codes.map (correct ((s.dev.sc sc).cal c.val)) → codes ≠ [] →
    a.cnt + codes.length = 65535 →
    ∃ t, exec (.forcedClose sc k [(c, codes)]) s = .next t ∧ s.fed t sc (chanRegs c.val) ∧
      (t.dev.sc sc).rd (Reg.ACC_SUM k.val) = intW (a.sum + (ys.map (·.1)).sum) ∧
      (t.dev.sc sc).fld (Reg.ACC_STAT k.val) Fld.ACC_STAT_FORCED = 1 ∧
      (t.dev.sc sc).fld (Reg.ACC_STAT k.val) Fld.ACC_STAT_COUNT = 65535 ∧
      ((t.dev.sc sc).acc k.val).isOpen = true ∧ ((t.dev.sc sc).acc k.val).cnt = 0) ∧
  (∀ (s : State) (p : Port) (sc : Sec) (k : Fin 48), s.ready → s.dev.secDead sc = false →
    ∃ t, exec (.accStatRead p sc k) s = .next t ∧ s.sameStore t ∧
      (∀ a, a ∈ accRegs k.val → t.dev.snapRd p (secBase sc + a) = (s.dev.sc sc).rd a) ∧
      (∀ j, j ≠ p → t.dev.snap.get j = s.dev.snap.get j) ∧ t.dev = { s.dev.quiet with snap := t.dev.snap })

/-! ### Pulse-width modulation (spec/05_pwm.md) -/

/-- Part of R97, R98, R106, R436: at its PEAK a triangle turns to counting down, the next VALLEY one full ramp later; at a RELOAD the
period count rises and the configuration registers take effect, a pending set at least 2 PWM clocks old becomes active whole, and
a younger one sets DEFERRED and waits. -/
def Obligations.PeaksValleysAndReloads : Prop :=
  (∀ (s : State) (l : Leg) (t : Nat) (smp : Samples) (old : BitVec 4) (L : LegState), s.awake →
    (s.dev.sc l.sec).lg l.loc = L → L.run = true → L.next = some (t : Int) → L.nextPeak = true → carMode L.cfg = 0 → isReload L.cfg true = false →
    ∃ u, exec (.peak l t smp old) s = .next u ∧ s.sameStore u ∧
      ((u.dev.sc l.sec).lg l.loc).up = false ∧ ((u.dev.sc l.sec).lg l.loc).nextPeak = false ∧
      ((u.dev.sc l.sec).lg l.loc).next = some ((t + 16 * presc L.cfg * (s.dev.sc l.sec).prd l.loc : Nat) : Int) ∧
      ((u.dev.sc l.sec).lg l.loc).tEv = t ∧ ((u.dev.sc l.sec).lg l.loc).cfg = L.cfg ∧
      (u.dev.sc l.sec).rd (Reg.LEG_PERIOD l.loc.val) = (s.dev.sc l.sec).rd (Reg.LEG_PERIOD l.loc.val) ∧
      (u.dev.sc l.sec).rd (Reg.ACT_PRD l.loc.val) = (s.dev.sc l.sec).rd (Reg.ACT_PRD l.loc.val) ∧
      s.dev.secsBut u.dev [l.sec]) ∧
  (∀ (s : State) (l : Leg) (t : Nat) (smp : Samples) (old : BitVec 4) (L : LegState) (w : List W), s.awake →
    (s.dev.sc l.sec).lg l.loc = L →
    L.run = true → L.next = some (t : Int) → L.nextPeak = false → isReload L.cfg false = true → L.pend = some w →
    old.getLsbD l.loc.val = true →
    ∃ u, exec (.valley l t smp old) s = .next u ∧ s.sameStore u ∧ ((u.dev.sc l.sec).lg l.loc).pend = none ∧
      ((u.dev.sc l.sec).lg l.loc).cfg = (s.dev.sc l.sec).rd (Reg.CAR_CFG l.loc.val) ∧
      (u.dev.sc l.sec).rd (Reg.ACT_PRD l.loc.val) = w.getD 0 0 ∧
      (∀ j, j < 6 → (u.dev.sc l.sec).rd (Reg.ACT_CMP l.loc.val j) = w.getD (1 + j) 0) ∧
      (u.dev.sc l.sec).rd (Reg.ACT_FORCE l.loc.val) =
        (if fbit Fld.CAR_CFG_DIRECT_EN ((s.dev.sc l.sec).rd (Reg.CAR_CFG l.loc.val)) then w.getD 7 0
         else fput Fld.SH_FORCE_DIRECT (w.getD 7 0) 0) ∧
      (∀ j, j < 3 → (u.dev.sc l.sec).rd (Reg.ACT_DT l.loc.val j) = w.getD (8 + j) 0) ∧
      (u.dev.sc l.sec).fld (Reg.LEG_PERIOD l.loc.val) Fld.LEG_PERIOD_PERIOD_CNT =
        ((s.dev.sc l.sec).fld (Reg.LEG_PERIOD l.loc.val) Fld.LEG_PERIOD_PERIOD_CNT + 1) % 65536 ∧
      (u.dev.sc l.sec).fld (Reg.LEG_PERIOD l.loc.val) Fld.LEG_PERIOD_COMMIT_PERIOD =
        (u.dev.sc l.sec).fld (Reg.LEG_PERIOD l.loc.val) Fld.LEG_PERIOD_PERIOD_CNT ∧
      s.dev.secsBut u.dev [l.sec]) ∧
  (∀ (s : State) (l : Leg) (t : Nat) (smp : Samples) (old : BitVec 4) (L : LegState), s.awake →
    (s.dev.sc l.sec).lg l.loc = L →
    L.run = true → L.next = some (t : Int) → L.nextPeak = false → isReload L.cfg false = true →
    L.pend = none ∨ old.getLsbD l.loc.val = false →
    ∃ u, exec (.valley l t smp old) s = .next u ∧ s.sameStore u ∧ ((u.dev.sc l.sec).lg l.loc).pend = L.pend ∧
      ((u.dev.sc l.sec).lg l.loc).cfg = (s.dev.sc l.sec).rd (Reg.CAR_CFG l.loc.val) ∧
      (u.dev.sc l.sec).rd (Reg.ACT_PRD l.loc.val) = (s.dev.sc l.sec).rd (Reg.ACT_PRD l.loc.val) ∧
      (∀ j, j < 6 → (u.dev.sc l.sec).rd (Reg.ACT_CMP l.loc.val j) = (s.dev.sc l.sec).rd (Reg.ACT_CMP l.loc.val j)) ∧
      (u.dev.sc l.sec).fld (Reg.LEG_PERIOD l.loc.val) Fld.LEG_PERIOD_PERIOD_CNT =
        ((s.dev.sc l.sec).fld (Reg.LEG_PERIOD l.loc.val) Fld.LEG_PERIOD_PERIOD_CNT + 1) % 65536 ∧
      (L.pend.isSome = true → (u.dev.sc l.sec).flag (Reg.LEG_STAT l.loc.val) Fld.LEG_STAT_DEFERRED = true) ∧
      s.dev.secsBut u.dev [l.sec])

/-- Part of R100, R102, R121: the edge of a compare gives its unit the level, a request that falls passes at once and one that rises
waits for its DT_ON; the end of a DT_ON passes the turn-on request; a turn-on that waited for its floor reaches the interlock's
output. -/
def Obligations.SwitchRequestsFollowTheCompares : Prop :=
  (∀ (s : State) (l : Leg) (u : Fin 3) (b : Bool) (t : Nat) (L : LegState), s.up l.sec → (s.dev.sc l.sec).lg l.loc = L →
    L.run = true → u.val < L.u.length → L.doneA.length = 3 → L.doneB.length = 3 →
    (if b then L.doneB else L.doneA).getD u.val false = false →
    levelOf ((s.dev.sc l.sec).forceNow l.loc) u.val = 0 → (s.dev.sc l.sec).direct l.loc = false →
    (s.dev.sc l.sec).edgeAt l.loc u.val b = some (t : Int) →
    ∃ v, exec (.compareEdge l u b t) s = .next v ∧ s.inSec v l.sec [Reg.LEG_EVCNT l.loc.val] ∧
      let M := (v.dev.sc l.sec).lg l.loc
      M.u.getD u.val false = b ∧ (if b then M.doneB else M.doneA).getD u.val false = true ∧
      (∀ n, n < 6 → ((v.dev.sc l.sec).rawReq l.loc n = false → M.req1.getLsbD n = false ∧ M.dt.any (fun e => e.1 == n) = false) ∧
        ((v.dev.sc l.sec).rawReq l.loc n = true → M.req1.getLsbD n = true ∨ M.dt.any (fun e => e.1 == n) = true)) ∧
      (s.dev.sc l.sec).carriersBut (v.dev.sc l.sec) l.loc) ∧
  (∀ (s : State) (l : Leg) (n : Fin 6) (t : Nat), s.up l.sec → (n.val, t) ∈ ((s.dev.sc l.sec).lg l.loc).dt →
    ∃ v, exec (.dtOnExpiry l n t) s = .next v ∧ s.inSec v l.sec [] ∧
      let L := (s.dev.sc l.sec).lg l.loc
      ({ L with req1 := L.req1 ||| bit6 n.val, dt := L.dt.filter (fun e => e.1 ≠ n.val) } : LegState).sameCarrier
        ((v.dev.sc l.sec).lg l.loc) ∧
      (s.dev.sc l.sec).carriersBut (v.dev.sc l.sec) l.loc) ∧
  (∀ (s : State) (l : Leg) (n : Fin 6) (t : Nat), s.up l.sec → (s.dev.sc l.sec).calm →
    (n.val, t) ∈ ((s.dev.sc l.sec).lg l.loc).wait →
    ∃ v, exec (.floorExpiry l n t) s = .next v ∧ s.inSec v l.sec [] ∧
      ((v.dev.sc l.sec).lg l.loc).out = ((s.dev.sc l.sec).lg l.loc).out ||| bit6 n.val ∧
      ((v.dev.sc l.sec).lg l.loc).wait = ((s.dev.sc l.sec).lg l.loc).wait.filter (fun e => e.1 ≠ n.val) ∧
      ((v.dev.sc l.sec).lg l.loc).req = ((s.dev.sc l.sec).lg l.loc).req ∧
      (∀ k, k ≠ l.loc → (v.dev.sc l.sec).lg k = (s.dev.sc l.sec).lg k))

/-- Part of R104, R105, R106, R108, R113: PWM_COMMIT makes the shadow sets of the legs that the host owns pending, with IMMEDIATE where it
is allowed, and sets OWNER_IGN for another; an IMMEDIATE set that arrives gives the running period its compares and forces; an
event edge ends a variable period, not before T_MIN, and T_MAX ends it without one; an accepted ALIGN_CFG starts alignment anew
from ALIGN_T0, and one off the grid period is refused. -/
def Obligations.CommitsImmediateSetsAndVariablePeriods : Prop :=
  (∀ (s : State) (sc : Sec) (v : W), s.reach sc →
    ∃ t, exec (.pwmCommit sc v) s = .next t ∧
      s.wroteSec t sc [Reg.LEG_STAT 0, Reg.LEG_STAT 1, Reg.LEG_STAT 2, Reg.LEG_STAT 3] ∧
      ∀ l : Fin 4, let x := s.dev.sc sc
        let go := wbit v l.val && fbit Fld.CAR_CFG_OWNER (x.cfgNow l) && (x.lg l).run
        let imm := go && wbit v (4 + l.val) && fbit Fld.CAR_CFG_IMM_EN (x.lg l).cfg
        ({ x.lg l with
          pend := if go then some (x.shadow l) else (x.lg l).pend
          immWait := if imm then some (x.shadow l) else (x.lg l).immWait } : LegState).sameCarrier ((t.dev.sc sc).lg l) ∧
        ((go && (x.lg l).pend.isSome) = true → (t.dev.sc sc).flag (Reg.LEG_STAT l.val) Fld.LEG_STAT_SUPERSEDED = true) ∧
        ((go && wbit v (4 + l.val) && !imm) = true → (t.dev.sc sc).flag (Reg.LEG_STAT l.val) Fld.LEG_STAT_IMM_IGN = true) ∧
        ((wbit v l.val && !fbit Fld.CAR_CFG_OWNER (x.cfgNow l)) = true →
          (t.dev.sc sc).flag (Reg.LEG_STAT l.val) Fld.LEG_STAT_OWNER_IGN = true)) ∧
  (∀ (s : State) (l : Leg) (t : Nat) (w : List W), s.up l.sec → ((s.dev.sc l.sec).lg l.loc).immWait = some w →
    ∃ v, exec (.immediateArrival l t) s = .next v ∧
      s.inSec v l.sec [Reg.LEG_STAT l.loc.val, Reg.LEG_EVCNT l.loc.val] ∧
      ((v.dev.sc l.sec).lg l.loc).immWait = none ∧ ((v.dev.sc l.sec).lg l.loc).pend = ((s.dev.sc l.sec).lg l.loc).pend ∧
      (∀ j, j < 6 → (v.dev.sc l.sec).cmpNow l.loc j = w.getD (1 + j) 0) ∧ (v.dev.sc l.sec).forceNow l.loc =
        (if fbit Fld.CAR_CFG_DIRECT_EN ((s.dev.sc l.sec).lg l.loc).cfg then w.getD 7 0
         else fput Fld.SH_FORCE_DIRECT (w.getD 7 0) 0) ∧
      (∀ u, u < 3 → levelOf (w.getD 7 0) u ≠ 0 →
        ((v.dev.sc l.sec).lg l.loc).u.getD u false = decide (levelOf (w.getD 7 0) u = 2)) ∧
      (s.dev.sc l.sec).carriersBut (v.dev.sc l.sec) l.loc) ∧
  (∀ (s : State) (l : Leg) (t : Nat) (L : LegState) (lo : Int), s.up l.sec → (s.dev.sc l.sec).lg l.loc = L → L.run = true →
    fbit Fld.VP_SRC_EN L.vps = true → L.vpEdge = true → carMode L.cfg = 2 ∨ carMode L.cfg = 3 → L.next = none → L.tEv ≤ t →
    lo = L.tVal + (s.dev.sc l.sec).tMin l.loc - (if carMode L.cfg = 3 then ((s.dev.sc l.sec).tA l.loc : Int) else 0) →
    ∃ v, exec (.vpEventEdge l t) s = .next v ∧ s.inSec v l.sec [Reg.LEG_STAT l.loc.val] ∧
      ({ L with next := some (max (t : Int) lo), vpEdge := false } : LegState).sameCarrier ((v.dev.sc l.sec).lg l.loc) ∧
      (v.dev.sc l.sec).fld (Reg.LEG_STAT l.loc.val) Fld.LEG_STAT_VP_MIN =
        (if (t : Int) < lo then 1 else (s.dev.sc l.sec).fld (Reg.LEG_STAT l.loc.val) Fld.LEG_STAT_VP_MIN)) ∧
  (∀ (s : State) (l : Leg) (t : Nat) (L : LegState), s.up l.sec → (s.dev.sc l.sec).lg l.loc = L → L.run = true →
    carMode L.cfg = 2 ∨ carMode L.cfg = 3 → L.next = none →
    (t : Int) = L.tVal + (s.dev.sc l.sec).full l.loc - (if carMode L.cfg = 3 then ((s.dev.sc l.sec).tA l.loc : Int) else 0) →
    ∃ v, exec (.vpTimeout l t) s = .next v ∧ s.inSec v l.sec [Reg.LEG_STAT l.loc.val] ∧
      ({ L with next := some (t : Int) } : LegState).sameCarrier ((v.dev.sc l.sec).lg l.loc) ∧
      (v.dev.sc l.sec).fld (Reg.LEG_STAT l.loc.val) Fld.LEG_STAT_VP_MAX = 1) ∧
  (∀ (s : State) (sc : Sec) (v : W), s.reach sc → wbit v 31 = true → s.dev.gridOk sc = true → s.dev.alignAhead sc ≠ 0 →
    s.dev.alignAhead sc ≤ ((s.dev.sc sc).rd Reg.ALIGN_SPAN).toNat →
    ∃ t, exec (.alignEnable sc v) s = .next t ∧ s.sameStore t ∧ (t.dev.sc sc).rd Reg.ALIGN_CFG = v &&& 0xC0FF7FFF ∧
      (t.dev.sc sc).align.base = s.dev.timeNs + s.dev.alignAhead sc ∧ (t.dev.sc sc).align.errs = [] ∧
      (t.dev.sc sc).flag Reg.ALIGN_STAT Fld.ALIGN_STAT_LOCKED = false ∧
      (s.dev.sc sc).regsBut (t.dev.sc sc) [Reg.ALIGN_CFG, Reg.ALIGN_STAT] ∧ s.dev.secsBut t.dev [sc] ∧
      t.dev = { s.dev.quiet with sec := t.dev.sec }) ∧
  (∀ (s : State) (sc : Sec) (v : W), s.reach sc → wbit v 31 = true → s.dev.gridOk sc = false →
    ∃ t, exec (.alignEnable sc v) s = .next t ∧ s.sameStore t ∧ (t.dev.sc sc).flag Reg.ALIGN_STAT Fld.ALIGN_STAT_CFG_REF = true ∧
      (t.dev.sc sc).align = (s.dev.sc sc).align ∧ (s.dev.sc sc).regsBut (t.dev.sc sc) [Reg.ALIGN_STAT] ∧
      s.dev.secsBut t.dev [sc] ∧ t.dev = { s.dev.quiet with sec := t.dev.sec })

/-- Part of R110, R111, R112, R134: an active trip input and FORCE_CMD.SET set the forcing latch of the leg and BY_SCOPE in the rest of its
scope, raise LEG_FORCED, and start step 1 with the levels frozen; FORCE_CMD.CLR clears the causes and gives the leg back at its next
RELOAD, and is refused while a trip input is active. -/
def Obligations.TripsForceLegsUntilCleared : Prop :=
  (∀ (s : State) (l : Leg) (n : Fin 4) (L : LegState), s.up l.sec → (s.dev.sc l.sec).lg l.loc = L → L.run = true →
    (s.dev.sc l.sec).tripSource l.loc n.val = true → L.trip.getLsbD n.val = false →
    ∃ t, exec (.tripActive l n) s = .next t ∧ s.inSec t l.sec [] ∧
      ((t.dev.sc l.sec).lg l.loc).trip = L.trip ||| BitVec.ofNat 4 (2 ^ n.val) ∧
      wbit ((t.dev.sc l.sec).rd (Reg.FORCE_STAT l.loc.val)) n.val = true ∧
      (∀ k, k ∈ (s.dev.sc l.sec).scopeLegs l.loc → k ≠ l.loc → wbit ((t.dev.sc l.sec).rd (Reg.FORCE_STAT k.val)) 5 = true) ∧
      ((s.dev.sc l.sec).forced l.loc = false → (t.dev.sc l.sec).fc.raised (8 + 8 * l.loc.val + 7) ∧
        (L.step = 0 → ((t.dev.sc l.sec).lg l.loc).step = 1 ∧ ((t.dev.sc l.sec).lg l.loc).frozen = L.ball))) ∧
  (∀ (s : State) (l : Leg) (n : Fin 4), s.up l.sec → (s.dev.sc l.sec).tripSource l.loc n.val = false →
    ∃ t, exec (.tripInactive l n) s = .next t ∧ s.inSec t l.sec [] ∧
      ((t.dev.sc l.sec).lg l.loc).trip = ((s.dev.sc l.sec).lg l.loc).trip &&& ~~~(BitVec.ofNat 4 (2 ^ n.val))) ∧
  (∀ (s : State) (l : Leg), s.reach l.sec →
    ∃ t, exec (.forceSet l) s = .next t ∧ s.wroteSec t l.sec [] ∧
      wbit ((t.dev.sc l.sec).rd (Reg.FORCE_STAT l.loc.val)) 4 = true ∧
      (∀ k, k ∈ (s.dev.sc l.sec).scopeLegs l.loc → k ≠ l.loc → wbit ((t.dev.sc l.sec).rd (Reg.FORCE_STAT k.val)) 5 = true) ∧
      ((s.dev.sc l.sec).forced l.loc = false → (t.dev.sc l.sec).fc.raised (8 + 8 * l.loc.val + 7) ∧
        (((s.dev.sc l.sec).lg l.loc).step = 0 → ((t.dev.sc l.sec).lg l.loc).step = 1 ∧
          ((t.dev.sc l.sec).lg l.loc).frozen = ((s.dev.sc l.sec).lg l.loc).ball)) ∧
      (∀ k, ((s.dev.sc l.sec).lg k).sameCarrier ((t.dev.sc l.sec).lg k))) ∧
  (∀ (s : State) (l : Leg), s.reach l.sec → (s.dev.sc l.sec).calm → ((s.dev.sc l.sec).lg l.loc).trip = 0 →
    (s.dev.sc l.sec).forced l.loc = true →
    ∃ t, exec (.forceClr l) s = .next t ∧ s.wroteSec t l.sec [] ∧ (t.dev.sc l.sec).forced l.loc = false ∧
      ((s.dev.sc l.sec).latched l.loc = false → (s.dev.sc l.sec).stopping = false → ((s.dev.sc l.sec).lg l.loc).step = 3 →
        ((t.dev.sc l.sec).lg l.loc).step = 0 ∧ ((t.dev.sc l.sec).lg l.loc).holdReload = true ∧
        ((t.dev.sc l.sec).lg l.loc).frozen = ((s.dev.sc l.sec).lg l.loc).frozen) ∧
      (∀ k, k ≠ l.loc → (t.dev.sc l.sec).lg k = (s.dev.sc l.sec).lg k)) ∧
  (∀ (s : State) (l : Leg), s.reach l.sec → (s.dev.sc l.sec).calm → ((s.dev.sc l.sec).lg l.loc).trip ≠ 0 →
    ∃ t, exec (.forceClr l) s = .next t ∧ s.wroteSec t l.sec [] ∧
      (t.dev.sc l.sec).flag (Reg.FORCE_STAT l.loc.val) Fld.FORCE_STAT_CLR_REF = true ∧
      (t.dev.sc l.sec).fld (Reg.FORCE_STAT l.loc.val) Fld.FORCE_STAT_FORCED_BITS =
        (s.dev.sc l.sec).fld (Reg.FORCE_STAT l.loc.val) Fld.FORCE_STAT_FORCED_BITS ∧
      (t.dev.sc l.sec).legs = (s.dev.sc l.sec).legs)

/-! ### Gates, protection and monitors (spec/06_gate_protection.md) -/

/-- Part of R124, R125, R126: an idle bootstrap leg that may drive gates gets a low-side pulse, which counts in REFRESH; a pulse ends T_REF
after the low side turned on; a precharge train that is due begins with its first pulse at once or at its floor, each pulse but the
last is followed by the next after the gap, and the last one counts in TRAINS and ends with the low side just off. -/
def Obligations.BootstrapPulsesRefresh : Prop :=
  (∀ (s : State) (l : Leg) (t : Nat), s.up l.sec → (s.dev.sc l.sec).calm → (s.dev.sc l.sec).bsOn l.loc = true →
    bitsN ((s.dev.sc l.sec).legW l.loc 8) 31 16 ≠ 0 → (s.dev.sc l.sec).mayDrive l.loc = true →
    (s.dev.sc l.sec).heldOff l.loc = false → (s.dev.sc l.sec).stage1 l.loc = 0 →
    ((s.dev.sc l.sec).lg l.loc).bsPulse = false → ((s.dev.sc l.sec).lg l.loc).train = 0 →
    ∃ v, exec (.idleRefresh l t) s = .next v ∧ s.inSec v l.sec [Reg.BS_EVCNT l.loc.val] ∧
      ((v.dev.sc l.sec).lg l.loc).bsPulse = true ∧ ((v.dev.sc l.sec).lg l.loc).req = bit6 ((s.dev.sc l.sec).bsLo l.loc) ∧
      (v.dev.sc l.sec).fld (Reg.BS_EVCNT l.loc.val) Fld.BS_EVCNT_REFRESH =
        min 255 ((s.dev.sc l.sec).fld (Reg.BS_EVCNT l.loc.val) Fld.BS_EVCNT_REFRESH + 1) ∧
      (∀ k, k ≠ l.loc → (v.dev.sc l.sec).lg k = (s.dev.sc l.sec).lg k)) ∧
  (∀ (s : State) (l : Leg) (n : Fin 6) (t : Nat) (x : SecState), s.up l.sec → s.dev.sc l.sec = x → x.calm →
    (x.lg l.loc).bsPulse = true → n.val = x.bsLo l.loc → (n.val, t) ∈ (x.lg l.loc).wait →
    ∃ v, exec (.floorExpiry l n t) s = .next v ∧ s.inSec v l.sec [] ∧ ((v.dev.sc l.sec).lg l.loc).out.getLsbD n.val = true ∧
      ((v.dev.sc l.sec).lg l.loc).bsEnd = some (t + x.bsRef l.loc) ∧ (∀ k, k ≠ l.loc → (v.dev.sc l.sec).lg k = x.lg k)) ∧
  (∀ (s : State) (l : Leg) (t : Nat), s.up l.sec → (s.dev.sc l.sec).calm → ((s.dev.sc l.sec).lg l.loc).bsPulse = true →
    ((s.dev.sc l.sec).lg l.loc).bsEnd = some t → ((s.dev.sc l.sec).lg l.loc).train = 0 →
    ∃ v, exec (.refreshPulseEnd l t) s = .next v ∧ s.inSec v l.sec [] ∧ ((v.dev.sc l.sec).lg l.loc).bsPulse = false ∧
      ((v.dev.sc l.sec).lg l.loc).bsEnd = none ∧ (∀ k, k ≠ l.loc → (v.dev.sc l.sec).lg k = (s.dev.sc l.sec).lg k)) ∧
  (∀ (s : State) (l : Leg) (t : Nat) (x : SecState), s.up l.sec → s.dev.sc l.sec = x → x.calm →
    (x.stage1 l.loc).getLsbD (x.bsHi l.loc) = true → x.trainIsDue l.loc t = true → x.heldOff l.loc = false →
    (x.lg l.loc).bsPulse = false →
    ∃ v, exec (.prechargeTrain l t) s = .next v ∧ s.inSec v l.sec [] ∧
      let M := (v.dev.sc l.sec).lg l.loc
      let lo := x.bsLo l.loc
      M.train = x.bsTrain l.loc ∧ M.bsPulse = true ∧ M.trainDue = false ∧ M.req = bit6 lo ∧
      ((x.lg l.loc).out = 0 → (x.lg l.loc).wait = [] → (x.lg l.loc).req ≠ bit6 lo → x.shootMask l.loc (bit6 lo) = 0 →
        x.allowed l.loc (bit6 lo) = true →
        if t < x.floorOf l.loc lo then M.wait = [(lo, x.floorOf l.loc lo)] else M.out = bit6 lo ∧ M.bsEnd = some (t + x.bsRef l.loc)) ∧
      (∀ k, k ≠ l.loc → (v.dev.sc l.sec).lg k = x.lg k)) ∧
  (∀ (s : State) (l : Leg) (t : Nat) (x : SecState), s.up l.sec → s.dev.sc l.sec = x → x.calm → x.mayDrive l.loc = true →
    (x.lg l.loc).bsPulse = true → (x.lg l.loc).bsEnd = some t → 2 ≤ (x.lg l.loc).train →
    ∃ v, exec (.refreshPulseEnd l t) s = .next v ∧ s.inSec v l.sec [] ∧
      let M := (v.dev.sc l.sec).lg l.loc
      M.train = (x.lg l.loc).train - 1 ∧ M.bsPulse = true ∧ M.bsEnd = none ∧ M.out = 0 ∧
      M.wait = [(x.bsLo l.loc, t + x.trainGap l.loc)] ∧ (∀ k, k ≠ l.loc → (v.dev.sc l.sec).lg k = x.lg k)) ∧
  (∀ (s : State) (l : Leg) (t : Nat) (x : SecState), s.up l.sec → s.dev.sc l.sec = x → x.calm →
    (x.lg l.loc).bsPulse = true → (x.lg l.loc).bsEnd = some t → (x.lg l.loc).train = 1 →
    ∃ v, exec (.refreshPulseEnd l t) s = .next v ∧ s.inSec v l.sec [Reg.BS_EVCNT l.loc.val] ∧
      let M := (v.dev.sc l.sec).lg l.loc
      M.train = 0 ∧ M.bsPulse = false ∧ M.trainDue = false ∧ M.loLast = t ∧
      (v.dev.sc l.sec).fld (Reg.BS_EVCNT l.loc.val) Fld.BS_EVCNT_TRAINS =
        min 255 (x.fld (Reg.BS_EVCNT l.loc.val) Fld.BS_EVCNT_TRAINS + 1) ∧
      (∀ k, k ≠ l.loc → (v.dev.sc l.sec).lg k = x.lg k))

/-- Part of R128, R129, R130, R131, R133, R134, R135, R136: a driver fault outside blanking, OC1 outside blanking and OC2 at any time set the
leg's protection latch with their cause, BY_SCOPE in the rest of its scope, raise their source and start step 1 with the levels
frozen; the end of the plateau, or of the delay line with BACKUP, removes the gates, on NPC3 and ANPC3 legs with STEP2_INNER the outer
ones first. -/
def Obligations.ProtectionTurnsOffInTwoSteps : Prop :=
  (∀ (s : State) (l : Leg) (n : Fin 6), s.up l.sec →
    wbit ((s.dev.sc l.sec).rd (Reg.OC_CFG l.loc.val)) (Fld.OC_CFG_FLT_EN.lo + n.val) = true →
    ((s.dev.sc l.sec).legPos l.loc).getLsbD n.val = true → (s.dev.sc l.sec).blanked l.loc n.val = false →
    ∃ t, exec (.driverFault l n true) s = .next t ∧
      s.inSec t l.sec [Reg.OC_LIVE l.loc.val, Reg.PROT_STAT 0, Reg.PROT_STAT 1, Reg.PROT_STAT 2, Reg.PROT_STAT 3] ∧
      wbit ((t.dev.sc l.sec).rd (Reg.OC_LIVE l.loc.val)) (8 + n.val) = true ∧
      (∀ k : Fin 4, (t.dev.sc l.sec).rd (Reg.PROT_STAT k.val) = (s.dev.sc l.sec).rd (Reg.PROT_STAT k.val) |||
        (if k = l.loc then 0x80000000 ||| natW (2 ^ n.val) else if k ∈ (s.dev.sc l.sec).scopeLegs l.loc then 0x80000800 else 0)) ∧
      (t.dev.sc l.sec).fc.raised (8 + 8 * l.loc.val + 2) ∧
      (((s.dev.sc l.sec).lg l.loc).step = 0 → ((t.dev.sc l.sec).lg l.loc).step = 1 ∧
        ((t.dev.sc l.sec).lg l.loc).frozen = ((s.dev.sc l.sec).lg l.loc).ball)) ∧
  (∀ (s : State) (l : Leg) (n : Fin 6), s.up l.sec →
    ∃ t, exec (.driverFault l n false) s = .next t ∧ s.inSec t l.sec [Reg.OC_LIVE l.loc.val] ∧
      wbit ((t.dev.sc l.sec).rd (Reg.OC_LIVE l.loc.val)) (8 + n.val) = false ∧
      (∀ m : Fin 6, m ≠ n → wbit ((t.dev.sc l.sec).rd (Reg.OC_LIVE l.loc.val)) (8 + m.val) =
        wbit ((s.dev.sc l.sec).rd (Reg.OC_LIVE l.loc.val)) (8 + m.val))) ∧
  (∀ (s : State) (l : Leg), s.up l.sec → (s.dev.sc l.sec).testing l.loc = false →
    (s.dev.sc l.sec).flag (Reg.OC_LIVE l.loc.val) Fld.OC_LIVE_OC1 = false →
    ∃ t, exec (.oc1Crossing l) s = .next t ∧
      s.inSec t l.sec [Reg.OC_LIVE l.loc.val, Reg.PROT_STAT 0, Reg.PROT_STAT 1, Reg.PROT_STAT 2, Reg.PROT_STAT 3] ∧
      (t.dev.sc l.sec).fld (Reg.OC_LIVE l.loc.val) Fld.OC_LIVE_OC1 = 1 ∧
      (∀ k : Fin 4, (t.dev.sc l.sec).rd (Reg.PROT_STAT k.val) = (s.dev.sc l.sec).rd (Reg.PROT_STAT k.val) |||
        (if ((s.dev.sc l.sec).lg l.loc).blank ≠ [] then 0 else
          if k = l.loc then 0x80000100 else if k ∈ (s.dev.sc l.sec).scopeLegs l.loc then 0x80000800 else 0)) ∧
      (((s.dev.sc l.sec).lg l.loc).blank = [] → (t.dev.sc l.sec).fc.raised (8 + 8 * l.loc.val))) ∧
  (∀ (s : State) (l : Leg), s.up l.sec → (s.dev.sc l.sec).testing l.loc = false →
    (s.dev.sc l.sec).flag (Reg.OC_LIVE l.loc.val) Fld.OC_LIVE_OC2 = false →
    ∃ t, exec (.oc2Crossing l) s = .next t ∧
      s.inSec t l.sec [Reg.OC_LIVE l.loc.val, Reg.PROT_STAT 0, Reg.PROT_STAT 1, Reg.PROT_STAT 2, Reg.PROT_STAT 3] ∧
      (t.dev.sc l.sec).fld (Reg.OC_LIVE l.loc.val) Fld.OC_LIVE_OC2 = 1 ∧
      (∀ k : Fin 4, (t.dev.sc l.sec).rd (Reg.PROT_STAT k.val) = (s.dev.sc l.sec).rd (Reg.PROT_STAT k.val) |||
        (if k = l.loc then 0x80000200 else if k ∈ (s.dev.sc l.sec).scopeLegs l.loc then 0x80000800 else 0)) ∧
      (t.dev.sc l.sec).fc.raised (8 + 8 * l.loc.val + 1)) ∧
  (∀ (s : State) (l : Leg) (t : Nat) (L : LegState), s.up l.sec → (s.dev.sc l.sec).lg l.loc = L → L.step = 1 → L.clockDead = false →
    L.allOff = true → (s.dev.sc l.sec).latched l.loc = true →
    ∃ v, exec (.plateauEnd l t) s = .next v ∧ s.inSec v l.sec [] ∧
      (if ((s.dev.sc l.sec).legType l.loc = 2 ∨ (s.dev.sc l.sec).legType l.loc = 3) ∧
          (s.dev.sc l.sec).fld (Reg.OC_CFG l.loc.val) Fld.OC_CFG_STEP2_INNER ≠ 0 then
        ((v.dev.sc l.sec).lg l.loc).step = 2 ∧ ((v.dev.sc l.sec).lg l.loc).frozen = L.frozen &&& ~~~0x09
      else ((v.dev.sc l.sec).lg l.loc).step = 3 ∧ ((v.dev.sc l.sec).lg l.loc).ball = 0)) ∧
  (∀ (s : State) (l : Leg) (t : Nat) (L : LegState), s.up l.sec → (s.dev.sc l.sec).lg l.loc = L → L.step = 1 →
    L.allOff = true → (s.dev.sc l.sec).latched l.loc = true →
    ∃ v, exec (.delayLineEnd l t) s = .next v ∧ s.inSec v l.sec [Reg.PROT_STAT l.loc.val] ∧
      (v.dev.sc l.sec).flag (Reg.PROT_STAT l.loc.val) Fld.PROT_STAT_BACKUP = true ∧
      (v.dev.sc l.sec).fc.raised (8 + 8 * l.loc.val + 3) ∧
      (if ((s.dev.sc l.sec).legType l.loc = 2 ∨ (s.dev.sc l.sec).legType l.loc = 3) ∧
          (s.dev.sc l.sec).fld (Reg.OC_CFG l.loc.val) Fld.OC_CFG_STEP2_INNER ≠ 0 then
        ((v.dev.sc l.sec).lg l.loc).step = 2 ∧ ((v.dev.sc l.sec).lg l.loc).frozen = L.frozen &&& ~~~0x09
      else ((v.dev.sc l.sec).lg l.loc).step = 3 ∧ ((v.dev.sc l.sec).lg l.loc).ball = 0)) ∧
  (∀ (s : State) (l : Leg) (t : Nat) (L : LegState), s.up l.sec → (s.dev.sc l.sec).lg l.loc = L → L.step = 2 →
    L.allOff = true → (s.dev.sc l.sec).latched l.loc = true →
    ∃ v, exec (.step2InnerEnd l t) s = .next v ∧ s.inSec v l.sec [] ∧
      ((v.dev.sc l.sec).lg l.loc).step = 3 ∧ ((v.dev.sc l.sec).lg l.loc).ball = 0)

/-- Part of R104, R129, R131, R132, R139, R142, R143, R145, R146: a comparator on its good side ends its NOT_READY hold; at the end of a blanking a
return still low and a fault-side OC1 act; PROT_CLR clears the latch with no cause asserted and no sequence under way, and is refused
otherwise; a self-test holds the leg off from its start to a pass, and its start is refused while the interlock drives a switch; the
samples of a comparator pass the majority filter and move the monitor's output, a rise of the output latches, and a rise of the
filtered state is an event of the variable-period legs that take it. -/
def Obligations.HoldsEndSelfTestsAndMonitors : Prop :=
  (∀ (s : State) (l : Leg) (oc2 : Bool), s.up l.sec → (s.dev.sc l.sec).calm → (s.dev.sc l.sec).testing l.loc = false →
    ∃ t, exec (.comparatorGoodSide l oc2) s = .next t ∧ s.inSec t l.sec [Reg.OC_LIVE l.loc.val] ∧
      (t.dev.sc l.sec).fld (Reg.OC_LIVE l.loc.val) (if oc2 then Fld.OC_LIVE_OC2 else Fld.OC_LIVE_OC1) = 0 ∧
      ((t.dev.sc l.sec).lg l.loc).nr1 = (((s.dev.sc l.sec).lg l.loc).nr1 && oc2) ∧
      ((t.dev.sc l.sec).lg l.loc).nr2 = (((s.dev.sc l.sec).lg l.loc).nr2 && !oc2) ∧
      (∀ k, k ≠ l.loc → (t.dev.sc l.sec).lg k = (s.dev.sc l.sec).lg k)) ∧
  (∀ (s : State) (l : Leg) (n : Fin 6) (t : Nat), s.up l.sec → (s.dev.sc l.sec).calm →
    (n.val, t) ∈ ((s.dev.sc l.sec).lg l.loc).blank → (s.dev.sc l.sec).flag (Reg.OC_LIVE l.loc.val) Fld.OC_LIVE_OC1 = false →
    ∃ v, exec (.blankingEnd l n t false) s = .next v ∧ s.inSec v l.sec [Reg.OC_LIVE l.loc.val] ∧
      (n.val, t) ∉ ((v.dev.sc l.sec).lg l.loc).blank ∧
      wbit ((v.dev.sc l.sec).rd (Reg.OC_LIVE l.loc.val)) (8 + n.val) = false) ∧
  (∀ (s : State) (l : Leg) (n : Fin 6) (t : Nat), s.up l.sec → (n.val, t) ∈ ((s.dev.sc l.sec).lg l.loc).blank →
    wbit ((s.dev.sc l.sec).rd (Reg.OC_CFG l.loc.val)) (Fld.OC_CFG_FLT_EN.lo + n.val) = true →
    ((s.dev.sc l.sec).legPos l.loc).getLsbD n.val = true →
    ∃ v, exec (.blankingEnd l n t true) s = .next v ∧
      s.inSec v l.sec [Reg.OC_LIVE l.loc.val, Reg.PROT_STAT 0, Reg.PROT_STAT 1, Reg.PROT_STAT 2, Reg.PROT_STAT 3] ∧
      wbit ((v.dev.sc l.sec).rd (Reg.OC_LIVE l.loc.val)) (8 + n.val) = true ∧ (v.dev.sc l.sec).latched l.loc = true ∧
      wbit ((v.dev.sc l.sec).rd (Reg.PROT_STAT l.loc.val)) n.val = true ∧ (v.dev.sc l.sec).fc.raised (8 + 8 * l.loc.val + 2)) ∧
  (∀ (s : State) (l : Leg) (n : Fin 6) (t : Nat), s.up l.sec → ((s.dev.sc l.sec).lg l.loc).blank = [(n.val, t)] →
    (s.dev.sc l.sec).flag (Reg.OC_LIVE l.loc.val) Fld.OC_LIVE_OC1 = true → ((s.dev.sc l.sec).lg l.loc).nr1 = false →
    (s.dev.sc l.sec).testing l.loc = false →
    ∃ v, exec (.blankingEnd l n t false) s = .next v ∧
      s.inSec v l.sec [Reg.OC_LIVE l.loc.val, Reg.PROT_STAT 0, Reg.PROT_STAT 1, Reg.PROT_STAT 2, Reg.PROT_STAT 3] ∧
      (v.dev.sc l.sec).latched l.loc = true ∧ (v.dev.sc l.sec).flag (Reg.PROT_STAT l.loc.val) Fld.PROT_STAT_OC1 = true ∧
      (v.dev.sc l.sec).fc.raised (8 + 8 * l.loc.val)) ∧
  (∀ (s : State) (l : Leg) (flt : BitVec 6), s.reach l.sec → (s.dev.sc l.sec).calm →
    ((s.dev.sc l.sec).lg l.loc).step = 0 ∨ ((s.dev.sc l.sec).lg l.loc).step = 3 →
    (s.dev.sc l.sec).flag (Reg.OC_LIVE l.loc.val) Fld.OC_LIVE_OC1 = false →
    (s.dev.sc l.sec).flag (Reg.OC_LIVE l.loc.val) Fld.OC_LIVE_OC2 = false → flt = 0 → (s.dev.sc l.sec).testHold l.loc = false →
    (s.dev.sc l.sec).latched l.loc = true →
    ∃ t, exec (.protClr l flt) s = .next t ∧ s.wroteSec t l.sec [Reg.OC_LIVE l.loc.val, Reg.PROT_STAT l.loc.val] ∧
      (t.dev.sc l.sec).latched l.loc = false ∧ (t.dev.sc l.sec).fld (Reg.PROT_STAT l.loc.val) Fld.PROT_STAT_FLT = 0 ∧
      (t.dev.sc l.sec).flag (Reg.PROT_STAT l.loc.val) Fld.PROT_STAT_OC1 = false ∧
      (t.dev.sc l.sec).flag (Reg.PROT_STAT l.loc.val) Fld.PROT_STAT_OC2 = false ∧
      ((s.dev.sc l.sec).stopping = false → (s.dev.sc l.sec).forced l.loc = false →
        ((t.dev.sc l.sec).lg l.loc).step = 0 ∧ ((t.dev.sc l.sec).lg l.loc).holdReload = true ∧
        ((t.dev.sc l.sec).lg l.loc).frozen = 0) ∧
      ((s.dev.sc l.sec).stopping = false → (s.dev.sc l.sec).forced l.loc = true →
        (t.dev.sc l.sec).lg l.loc = { (s.dev.sc l.sec).lg l.loc with holdReload := true })) ∧
  (∀ (s : State) (l : Leg) (flt : BitVec 6), s.reach l.sec →
    ((s.dev.sc l.sec).lg l.loc).step = 1 ∨ ((s.dev.sc l.sec).lg l.loc).step = 2 ∨
      (s.dev.sc l.sec).flag (Reg.OC_LIVE l.loc.val) Fld.OC_LIVE_OC1 = true ∨
      (s.dev.sc l.sec).flag (Reg.OC_LIVE l.loc.val) Fld.OC_LIVE_OC2 = true ∨ (s.dev.sc l.sec).testHold l.loc = true ∨
      flt &&& BitVec.ofNat 6 ((s.dev.sc l.sec).fld (Reg.OC_CFG l.loc.val) Fld.OC_CFG_FLT_EN) &&& (s.dev.sc l.sec).legPos l.loc ≠ 0 →
    ∃ t, exec (.protClr l flt) s = .next t ∧ s.wroteSec t l.sec [Reg.OC_LIVE l.loc.val, Reg.PROT_STAT l.loc.val] ∧
      (t.dev.sc l.sec).flag (Reg.PROT_STAT l.loc.val) Fld.PROT_STAT_CLR_REF = true ∧
      (t.dev.sc l.sec).latched l.loc = (s.dev.sc l.sec).latched l.loc) ∧
  (∀ (s : State) (l : Leg), s.reach l.sec → (s.dev.sc l.sec).testing l.loc = false → ((s.dev.sc l.sec).lg l.loc).out = 0 →
    (s.dev.sc l.sec).state ≠ 4 ∨ ((s.dev.sc l.sec).lg l.loc).perm = false ∨ (s.dev.sc l.sec).latched l.loc = true ∨
      (s.dev.sc l.sec).forced l.loc = true →
    ∃ t, exec (.selftestStart l) s = .next t ∧ s.wroteSec t l.sec [Reg.SELFTEST l.loc.val, Reg.PROT_STAT l.loc.val] ∧
      (t.dev.sc l.sec).testing l.loc = true ∧ (t.dev.sc l.sec).fld (Reg.SELFTEST l.loc.val) Fld.SELFTEST_FAILMAP = 0 ∧
      (t.dev.sc l.sec).testHold l.loc = true ∧ ((t.dev.sc l.sec).lg l.loc).ball = 0) ∧
  (∀ (s : State) (l : Leg), s.reach l.sec → ((s.dev.sc l.sec).lg l.loc).out ≠ 0 →
    ∃ t, exec (.selftestStart l) s = .next t ∧ s.wroteSec t l.sec [Reg.SELFTEST l.loc.val] ∧
      (t.dev.sc l.sec).flag (Reg.SELFTEST l.loc.val) Fld.SELFTEST_REF = true ∧
      (t.dev.sc l.sec).testing l.loc = (s.dev.sc l.sec).testing l.loc) ∧
  (∀ (s : State) (l : Leg) (fail : BitVec 8), s.up l.sec → (s.dev.sc l.sec).testing l.loc = true →
    ∃ t, exec (.selftestDone l fail) s = .next t ∧
      s.inSec t l.sec [Reg.SELFTEST l.loc.val, Reg.PROT_STAT l.loc.val, Reg.OC_LIVE l.loc.val] ∧
      (t.dev.sc l.sec).testing l.loc = false ∧ (t.dev.sc l.sec).fld (Reg.SELFTEST l.loc.val) Fld.SELFTEST_DONE = 1 ∧
      (t.dev.sc l.sec).fld (Reg.SELFTEST l.loc.val) Fld.SELFTEST_FAILMAP = fail.toNat ∧
      (t.dev.sc l.sec).flag (Reg.SELFTEST l.loc.val) Fld.SELFTEST_PASS = decide (fail = 0) ∧
      (t.dev.sc l.sec).testHold l.loc = decide (fail ≠ 0) ∧ ((t.dev.sc l.sec).lg l.loc).nr1 = true ∧
      ((t.dev.sc l.sec).lg l.loc).nr2 = true ∧ (fail ≠ 0 → (t.dev.sc l.sec).fc.raised (8 + 8 * l.loc.val + 4))) ∧
  (∀ (s : State) (sc : Sec) (m : Fin 8) (hi : Bool) (smp : List Bool) (c : W) (h : List Bool) (f : Bool), s.up sc →
    hi = true ∨ (s.dev.sc sc).flag (Reg.WM_CFG m.val) Fld.WM_CFG_DIG = false → smp ≠ [] → c = (s.dev.sc sc).rd (Reg.WM_CFG m.val) →
    (h, f) = smp.foldl (fun q b => ((b :: q.1).take 15, majority (fget Fld.WM_CFG_N c) (fget Fld.WM_CFG_K c) ((b :: q.1).take 15) q.2))
      ((s.dev.sc sc).wmHist m.val hi, (s.dev.sc sc).filt m.val hi) →
    ∃ t, exec (.monitorFilterChange sc m hi smp) s = .next t ∧ s.sameStore t ∧ Dev.SectionOnly sc s.dev t.dev ∧
      let x := s.dev.sc sc
      let y := t.dev.sc sc
      x.gateRegsBut y [Reg.WM_LIVE m.val, Reg.WM_LATCH] ∧ y.filt m.val hi = f ∧ y.wmHist m.val hi = h ∧
      y.filt m.val (!hi) = x.filt m.val (!hi) ∧
      some (y.flag (Reg.WM_LIVE m.val) (if hi then Fld.WM_LIVE_CMP_HI else Fld.WM_LIVE_CMP_LO)) = smp.getLast? ∧
      wbit (y.rd Reg.WM_LATCH) (8 + m.val) = y.wmOut m.val ∧
      (wbit (x.rd Reg.WM_LATCH) m.val = true ∨ (y.wmOut m.val = true ∧ wbit (x.rd Reg.WM_LATCH) (8 + m.val) = false) →
        wbit (y.rd Reg.WM_LATCH) m.val = true) ∧
      (smp.length = 1 → y.wmOut m.val = false → wbit (y.rd Reg.WM_LATCH) m.val = wbit (x.rd Reg.WM_LATCH) m.val) ∧
      (∀ k : Fin 8, k ≠ m → wbit (y.rd Reg.WM_LATCH) k.val = wbit (x.rd Reg.WM_LATCH) k.val) ∧
      (∀ l, x.filt m.val hi = false → f = true → fbit Fld.VP_SRC_EN (x.lg l).vps = true → fget Fld.VP_SRC_MON (x.lg l).vps = m.val →
        fbit Fld.VP_SRC_CMP (x.lg l).vps = !hi → (y.lg l).vpEdge = true))

/-! ### Grid assist, bridges and islanding (spec/09_power_flow.md, spec/10_islanding.md) -/

/-- Part of R205, R206: a BR_CMD of a bridge waits for the next tick; CMD_IGN sets for a bridge that the sheet does not hold and
CMD_REJ in a claimed section; at the tick START takes OFF to PRECHARGE, STOP takes RUN and RIDE to STOPPING and the states before
them to OFF, RESET takes SAFE to OFF, and LOCK takes any state to LOCKOUT. -/
def Obligations.BridgeCommandsTakeEffectAtTicks : Prop :=
  (∀ (s : State) (sc : Sec) (b : Bridge), s.reach sc → ((s.dev.sc sc).bridges.get b).kind ≠ 0 →
    (∃ t, exec (.brCmdStart sc b) s = .next t ∧ s.brQueued t sc b 1) ∧
    (∃ t, exec (.brCmdStop sc b) s = .next t ∧ s.brQueued t sc b 2) ∧
    (∃ t, exec (.brCmdReset sc b) s = .next t ∧ s.brQueued t sc b 4) ∧
    (∃ t, exec (.brCmdLock sc b) s = .next t ∧ s.brQueued t sc b 8)) ∧
  (∀ (s : State) (sc : Sec) (b : Bridge) (f : Field), s.ready → s.dev.secDead sc = false →
    (s.dev.claimed sc = true ∧ f = Fld.BR_STAT_CMD_REJ) ∨
      (s.dev.claimed sc = false ∧ ((s.dev.sc sc).bridges.get b).kind = 0 ∧ f = Fld.BR_STAT_CMD_IGN) →
    (∃ t, exec (.brCmdStart sc b) s = .next t ∧ s.brTurned t sc b f) ∧
    (∃ t, exec (.brCmdStop sc b) s = .next t ∧ s.brTurned t sc b f) ∧
    (∃ t, exec (.brCmdReset sc b) s = .next t ∧ s.brTurned t sc b f) ∧
    (∃ t, exec (.brCmdLock sc b) s = .next t ∧ s.brTurned t sc b f)) ∧
  (∀ (s : State) (sc : Sec) (clk : Nat) (b : Bridge) (n st st' : Nat), s.awake →
    (s.dev.sc sc).state = 3 ∨ (s.dev.sc sc).state = 4 → (s.dev.sc sc).couch.due = false → (s.dev.sc sc).eng.prun = none →
    (s.dev.sc sc).selects clk → 500 ≤ clk → (s.dev.sc sc).eng.run = none → (s.dev.sc sc).calm →
    (s.dev.sc sc).brLatch b = 0 → ((s.dev.sc sc).bridges.get b).kind ≠ 0 → ((s.dev.sc sc).ast.seq.get b).cmds = [n] →
    (∀ k, k ≠ b → ((s.dev.sc sc).ast.seq.get k).cmds = []) → (s.dev.sc sc).brState b.val = st →
    (n = 1 ∧ st = 0 ∧ st' = 1) ∨ (n = 2 ∧ (st = 4 ∨ st = 5) ∧ st' = 6) ∨ (n = 2 ∧ 1 ≤ st ∧ st ≤ 3 ∧ st' = 0) ∨
      (n = 4 ∧ st = 7 ∧ st' = 0) ∨ (n = 8 ∧ st ≠ 8 ∧ st' = 8) →
    ∃ t, exec (.tickTrigger sc clk) s = .next t ∧ (t.dev.sc sc).brState b.val = st' ∧
      (t.dev.sc sc).fld (Reg.BR_STAT b.val) Fld.BR_STAT_PREV = st ∧ ((t.dev.sc sc).ast.seq.get b).cmds = [] ∧
      (∀ k, k ≠ b → (t.dev.sc sc).brState k.val = (s.dev.sc sc).brState k.val) ∧
      (∀ k, k ≠ sc → t.dev.sc k = { s.dev.sc k with fc := (t.dev.sc k).fc }))

/-- Part of R205, R214, R216: PRE_T takes PRECHARGE to LOCKOUT, CONN_T and STOP_T take CONNECT and STOPPING to SAFE with every leg of the
bridge forced, each with its source; qualified synchronisation leads to CONNECT or RUN and the end of RIDE_HOLD back to RUN; a
ride-through limit and a lost temperature raise their sources. -/
def Obligations.BridgeTimersMoveTheSequencers : Prop :=
  (∀ (s : State) (sc : Sec) (b : Bridge), s.up sc → (s.dev.sc sc).brState b.val = 1 →
    ∃ t, exec (.preTimeout sc b) s = .next t ∧ s.inSec t sc [] ∧ (t.dev.sc sc).brState b.val = 8 ∧
      (t.dev.sc sc).fld (Reg.BR_STAT b.val) Fld.BR_STAT_REASON = 7 ∧ (t.dev.sc sc).fc.raised (82 + 10 * b.val)) ∧
  (∀ (s : State) (sc : Sec) (b : Bridge), s.up sc → (s.dev.sc sc).brState b.val = 3 →
    ∃ t, exec (.connTimeout sc b) s = .next t ∧ s.inSec t sc [] ∧ (t.dev.sc sc).brState b.val = 7 ∧
      (t.dev.sc sc).fld (Reg.BR_STAT b.val) Fld.BR_STAT_REASON = 4 ∧ (t.dev.sc sc).fc.raised (83 + 10 * b.val) ∧
      (t.dev.sc sc).fc.raised (85 + 10 * b.val) ∧
      (∀ l, l ∈ (s.dev.sc sc).brLegs b → wbit ((t.dev.sc sc).rd (Reg.FORCE_STAT l.val)) 4 = true)) ∧
  (∀ (s : State) (sc : Sec) (b : Bridge), s.up sc → (s.dev.sc sc).brState b.val = 6 →
    ∃ t, exec (.stopTimeout sc b) s = .next t ∧ s.inSec t sc [] ∧ (t.dev.sc sc).brState b.val = 7 ∧
      (t.dev.sc sc).fld (Reg.BR_STAT b.val) Fld.BR_STAT_REASON = 5 ∧ (t.dev.sc sc).fc.raised (84 + 10 * b.val) ∧
      (t.dev.sc sc).fc.raised (85 + 10 * b.val) ∧
      (∀ l, l ∈ (s.dev.sc sc).brLegs b → wbit ((t.dev.sc sc).rd (Reg.FORCE_STAT l.val)) 4 = true)) ∧
  (∀ (s : State) (sc : Sec) (b : Bridge), s.up sc → (s.dev.sc sc).calm → (s.dev.sc sc).brState b.val = 2 →
    ((s.dev.sc sc).ast.seq.get b).syncOk = true →
    ∃ t, exec (.syncQualified sc b) s = .next t ∧ s.inSec t sc [] ∧
      (if (s.dev.sc sc).enabled = true then (t.dev.sc sc).brState b.val =
        (if (s.dev.sc sc).flag (Reg.BR_CFG b.val) Fld.BR_CFG_USE_MAIN = true ∧ s.dev.soConfirmed.getLsbD 1 = false then 3 else 4)
       else (t.dev.sc sc).brState b.val = 2 ∧ ((t.dev.sc sc).ast.seq.get b).syncDone = true)) ∧
  (∀ (s : State) (sc : Sec) (b : Bridge), s.up sc → (s.dev.sc sc).calm → (s.dev.sc sc).brState b.val = 5 →
    ((s.dev.sc sc).ast.seq.get b).rideOk = true →
    ∃ t, exec (.rideHoldExpiry sc b) s = .next t ∧ s.inSec t sc [] ∧ (t.dev.sc sc).brState b.val = 4 ∧
      (t.dev.sc sc).fld (Reg.BR_STAT b.val) Fld.BR_STAT_PREV = 5) ∧
  (∀ (s : State) (sc : Sec) (b : Bridge), s.up sc → (s.dev.sc sc).brState b.val = 5 → ((s.dev.sc sc).ast.seq.get b).segs ≠ 0 →
    ∃ t, exec (.rideLimit sc b) s = .next t ∧ s.inSec t sc [] ∧ (t.dev.sc sc).fc.raised (81 + 10 * b.val)) ∧
  (∀ (s : State) (sc : Sec) (b : Bridge), s.up sc → ((s.dev.sc sc).bridges.get b).kind ≠ 0 →
    ∃ t, exec (.thermLost sc b) s = .next t ∧ s.inSec t sc [] ∧ (t.dev.sc sc).fc.raised (89 + 10 * b.val) ∧
      (t.dev.sc sc).flag (Reg.BR_STAT b.val) Fld.BR_STAT_THERM_OK = false)

/-- Part of R186, R195, R200, R211, R224, R228: the tick's assist update is there once every window it uses has arrived, and an item RDI reads
first is fixed for the tick; HOLD_MAX ends HOLD as LOST; an MPPT interval moves VREF by one step or none inside its limits, the
first after a hold only recording; a passive check whose time has run trips; a chip closes into the next, in ALIGNED mode into
the one whose span T has reached, at an accepted T0 into chip 0, and waits for the records of runs that still use it. -/
def Obligations.AssistAndIslandingUnits : Prop :=
  (∀ (s : State) (sc : Sec) (clk : Nat) (r : EngRun), s.awake → (s.dev.sc sc).eng.run = some r →
    (s.dev.sc sc).eng.tin.assist = false → (∀ k, k ∈ (s.dev.sc sc).assistAccs → (s.dev.sc sc).awaited k = false) →
    ∃ t, exec (.assistUpdateComplete sc clk) s = .next t ∧ s.sameStore t ∧ (t.dev.sc sc).eng.tin.assist = true ∧
      (t.dev.sc sc).ast.pend.isSome = true ∧ (t.dev.sc sc).ast.st = (s.dev.sc sc).ast.st ∧
      (t.dev.sc sc).eng.run = some (if r.stall && (s.dev.sc sc).atItem .run r then
        { r with stall := false, clk := max r.clk clk } else r) ∧
      (t.dev.sc sc).regs = (s.dev.sc sc).regs ∧ s.dev.secsBut t.dev [sc] ∧ t.dev.regs = s.dev.regs) ∧
  (∀ (s : State) (sc : Sec) (e : EngSel) (a : BitVec 26) (r : EngRun), s.issues sc e 0x2A a r 1 → 0x60 ≤ a.toNat % 256 →
    (a.toNat % 256 = 0x65 → (s.dev.sc sc).eng.tin.assist = true ∨ (s.dev.sc sc).gridOn = false) →
    Tbl.get (fun _ => none) (s.dev.sc sc).eng.tin.items (itemKey r.ctx (a.toNat % 256)) = none → a.getLsbD 19 = false →
    ∃ t, exec (.rdi sc e a) s = .next t ∧ s.sameStore t ∧ s.dev.secsBut t.dev [sc] ∧
      r.gave ((t.dev.sc sc).runOf e) (fD a.toNat) 1 1 (fun _ => ((s.dev.engItem sc r.ctx (a.toNat % 256)).toInt, false)) ∧
      Tbl.get (fun _ => none) (t.dev.sc sc).eng.tin.items (itemKey r.ctx (a.toNat % 256)) =
        some (s.dev.engItem sc r.ctx (a.toNat % 256)) ∧
      (t.dev.sc sc).regs = (s.dev.sc sc).regs) ∧
  (∀ (s : State) (sc : Sec), s.up sc → (s.dev.sc sc).ast.st.obs.mode = 1 →
    ∃ t, exec (.observerHoldTimeout sc) s = .next t ∧ s.inSec t sc [Reg.GRID_STAT, Reg.GRID_EVCNT] ∧
      (t.dev.sc sc).ast.st.obs.mode = 2 ∧ (t.dev.sc sc).ast.st.obs.valid = false ∧
      (t.dev.sc sc).fld Reg.GRID_STAT Fld.GRID_STAT_MODE = 2 ∧ (t.dev.sc sc).flag Reg.GRID_STAT Fld.GRID_STAT_VALID = false ∧
      (t.dev.sc sc).fld Reg.GRID_EVCNT Fld.GRID_EVCNT_LOST_CNT =
        min 255 ((s.dev.sc sc).fld Reg.GRID_EVCNT Fld.GRID_EVCNT_LOST_CNT + 1)) ∧
  (∀ (s : State) (sc : Sec) (b : Bridge) (a : BrAst), s.up sc → (s.dev.sc sc).ast.st.br.get b = a →
    (s.dev.sc sc).mpptHeld b.val = false → a.mn ≠ 0 → (s.dev.sc sc).fld (Reg.BR_MPPT2 b.val) Fld.BR_MPPT2_PER ≤ a.mt →
    ∃ t, exec (.mpptInterval sc b) s = .next t ∧ s.sameStore t ∧ s.dev.secsBut t.dev [sc] ∧
      (s.dev.sc sc).gateRegsBut (t.dev.sc sc) [Reg.BR_MPPT_V b.val] ∧
      let a' := (t.dev.sc sc).ast.st.br.get b
      let st : Int := (s.dev.sc sc).fld (Reg.BR_MPPT1 b.val) Fld.BR_MPPT1_STEP * 2 ^ 12
      a'.mn = 0 ∧ a'.mt = 0 ∧ a'.mvPrev = a.mv / a.mn ∧ a'.miPrev = a.mi / a.mn ∧ a'.mrec = false ∧
        (a.mrec = true → a'.vref = a.vref) ∧
        (a.mrec = false → ∃ d : Int, (d = 0 ∨ d = st ∨ d = -st) ∧
          a'.vref = clampI ((s.dev.sc sc).fld (Reg.BR_MPPT1 b.val) Fld.BR_MPPT1_VMIN * 2 ^ 12)
            ((s.dev.sc sc).fld (Reg.BR_MPPT0 b.val) Fld.BR_MPPT0_VMAX * 2 ^ 12) (a.vref + d)) ∧
        (t.dev.sc sc).rd (Reg.BR_MPPT_V b.val) = intW a'.vref) ∧
  (∀ (s : State) (sc : Sec) (n : Fin 6) (i : Nat), s.up sc → (s.dev.sc sc).flag Reg.ISL_PSTAT Fld.ISL_PSTAT_ARMED = true →
    n.val < 5 → i < 9 → stageCheck i = n.val → (s.dev.sc sc).ast.pasRun.getLsbD i = true →
    ∃ t, exec (.passiveTrip sc n) s = .next t ∧ s.inSec t sc [Reg.ISL_PSTAT] ∧ (t.dev.sc sc).fc.raised (66 + n.val) ∧
      (t.dev.sc sc).rd Reg.ISL_PSTAT = (s.dev.sc sc).rd Reg.ISL_PSTAT ||| natW (2 ^ (8 + n.val))) ∧
  (∀ (s : State) (sc : Sec) (v : W), s.reach sc → s.dev.islOn = true →
    ∃ t, exec (.islT0Write sc v) s = .next t ∧ s.sameStore t ∧ t.dev = { s.dev.quiet with isl := t.dev.isl } ∧
      (if (v - s.dev.stamp).toNat ≤ (if (s.dev.sc s.dev.islSec).fNom = 60 then 1050000000 else 1260000000) then
        t.dev.islRd Reg.ISL_T0 = v ∧ t.dev.isl.toAligned = true ∧
          t.dev.isl.toBase = s.dev.timeNs + (v - s.dev.stamp).toNat ∧ t.dev.isl.base = s.dev.isl.base
      else t.dev.islFld Reg.ISL_STAT Fld.ISL_STAT_T0_REF = 1 ∧ t.dev.islRd Reg.ISL_T0 = s.dev.islRd Reg.ISL_T0 ∧
        t.dev.isl.toAligned = s.dev.isl.toAligned)) ∧
  (∀ (s : State) (k : Nat), s.awake → s.dev.islOn = true → s.dev.islDue = false → s.dev.islTimed = false →
    k = s.dev.islFld Reg.ISL_CHIP Fld.ISL_CHIP_K →
    ∃ t, exec .chipClose s = .next t ∧ s.sameStore t ∧
      t.dev.islRd Reg.ISL_CHIP = natW (2 * ((k + 1) % 63) + b2n (codeBit (s.dev.islFld Reg.ISL_INFO Fld.ISL_INFO_CODE) ((k + 1) % 63))) ∧
      t.dev.isl.closing = (if s.dev.islBusy k then some k else none) ∧
      (∀ r, r ∈ t.dev.isl.recs → r ∈ s.dev.isl.recs ∧ (s.dev.islBusy k = false → r.chip ≠ k)) ∧
      (s.dev.isl.toFree = true ∨ s.dev.timeInv = true → t.dev.islFld Reg.ISL_STAT Fld.ISL_STAT_FREE = 1 ∧
        t.dev.islFld Reg.ISL_STAT Fld.ISL_STAT_ALIGNED = 0) ∧
      (∀ j, (t.dev.sc j).regs = (s.dev.sc j).regs)) ∧
  (∀ (s : State) (n : Nat), s.awake → s.dev.islOn = true → s.dev.islDue = false → s.dev.islTimed = true →
    n = s.dev.islNow s.dev.isl.base → s.dev.isl.n < n →
    ∃ t, exec .chipClose s = .next t ∧ s.sameStore t ∧ t.dev.isl.n = n ∧
      t.dev.islRd Reg.ISL_CHIP = natW (2 * (n % 63) + b2n (codeBit (s.dev.islFld Reg.ISL_INFO Fld.ISL_INFO_CODE) (n % 63))) ∧
      t.dev.islFld Reg.ISL_STAT Fld.ISL_STAT_ALIGNED = 1 ∧ (∀ j, (t.dev.sc j).regs = (s.dev.sc j).regs)) ∧
  (∀ (s : State), s.awake → s.dev.islOn = true → s.dev.islDue = true →
    ∃ t, exec .chipClose s = .next t ∧ s.sameStore t ∧ t.dev.islFld Reg.ISL_CHIP Fld.ISL_CHIP_K = 0 ∧
      t.dev.islFld Reg.ISL_STAT Fld.ISL_STAT_ALIGNED = 1 ∧ t.dev.islFld Reg.ISL_STAT Fld.ISL_STAT_FREE = 0 ∧
      t.dev.islFld Reg.ISL_STAT Fld.ISL_STAT_FILL = 0 ∧ t.dev.isl.win = [] ∧ t.dev.isl.toAligned = false ∧
      t.dev.isl.base = s.dev.isl.toBase ∧ t.dev.isl.n = 0) ∧
  (∀ (s : State), s.awake → s.dev.islOn = true → s.dev.islDue = false → s.dev.islTimed = true →
    s.dev.islNow s.dev.isl.base ≤ s.dev.isl.n →
    ∃ t, exec .chipClose s = .next t ∧ s.sameStore t ∧ t.dev = s.dev)

/-! ### Metering (spec/11_metering.md) -/

/-- Part of R238 to R242, R247 to R254: a point measures from the 16th stream word of every channel on; an ended cycle adds its
classified energies to the totals, exactly and modulo 2^64 units, and counts towards the energy window, which the N-th cycle end
latches; no other point changes. A block of 3,125 stream words gives each channel its band powers. With no valid angle source the
point goes FREE, at w = 1. Writing MP_TSEL, reading MP_WSEQ and writing HARM_SEL copy a total, a latched window and a harmonic window
for one port. CLR_TOTALS is accepted in DEVELOPMENT only, and it, SAVE and the second save a record of the totals. A due pulse starts
on a free output and ends on its inactive level. The roundings inside cycleEnergies, the harmonic words and the displayed P, Q, S and
PF are free values (notes/assumptions/3.md), and the statement says nothing of them. -/
def Obligations.MeteringPointsTotalsAndPulses : Prop :=
  (∀ (s : State) (sc : Sec) (smp : Samples) (p : Fin 8), s.awake → s.dev.pointOn p.val = true →
    s.dev.flag (Reg.MP_STAT p.val) Fld.MP_STAT_RUN = false →
    ∃ t, exec (.countWindowClose sc smp) s = .next t ∧ s.fed t sc (smp.flatMap (fun e => chanRegs e.1.val)) ∧
      (t.dev.flag (Reg.MP_STAT p.val) Fld.MP_STAT_RUN = true ↔ ∀ ch, ch ∈ s.dev.pointChannels p.val → 16 ≤ (t.dev.stream ch).outs)) ∧
  (∀ (s : State) (p : Fin 8) (d : Dev) (c : Cycle) (rest : List Cycle) (es : List (Nat × Nat)), s.awake → s.dev.pointRun p.val = true →
    d = s.dev.pointNow p.val → (d.point p.val).done = c :: rest → d.cycleReady p.val c = true →
    es = d.cycleUnits p.val c →
    ∃ t, exec (.lineCycleEnd p) s = .next t ∧ s.sameStore t ∧ (t.dev.point p.val).done = rest ∧
      (∀ j, (t.dev.point p.val).total j % 2 ^ 96 = ((s.dev.point p.val).total j +
        (es.map (fun e => if e.1 = j then e.2 else 0)).sum) % 2 ^ 96) ∧
      (if s.dev.pointN p.val ≤ (s.dev.point p.val).cycles + 1 then
        (t.dev.point p.val).cycles = 0 ∧ t.dev.rd (Reg.MP_WSEQ p.val) = s.dev.rd (Reg.MP_WSEQ p.val) + 1 ∧
          (t.dev.point p.val).live = List.replicate 7 0 ∧ (t.dev.point p.val).wtime = intW (c.stop / 256) ∧
          t.dev.flag (Reg.MP_STAT p.val) Fld.MP_STAT_PARTIAL = (s.dev.point p.val).first ∧
          ((t.dev.point p.val).wrap ≠ 0 → t.dev.flag (Reg.MP_STAT p.val) Fld.MP_STAT_WINDOW_WRAP = true ∧ t.dev.fc.raised 21)
      else (t.dev.point p.val).cycles = (s.dev.point p.val).cycles + 1 ∧
        t.dev.rd (Reg.MP_WSEQ p.val) = s.dev.rd (Reg.MP_WSEQ p.val) ∧
        (t.dev.point p.val).latched = (s.dev.point p.val).latched) ∧
      (∀ q, q ≠ p.val → t.dev.point q = s.dev.point q) ∧ t.dev.sec = s.dev.sec ∧ s.dev.fc.pairsBut t.dev.fc [21, 23, 26] ∧
      s.dev.regsBut t.dev ([Reg.MP_STAT p.val, Reg.MET_STAT, Reg.MP_P p.val, Reg.MP_Q p.val, Reg.MP_S p.val, Reg.MP_PF p.val,
        Reg.MP_WSEQ p.val] ++ (upTo 8).map Reg.PLS_STAT)) ∧
  (∀ (s : State) (p : Fin 8) (w : HarmWin), s.awake → s.dev.pointOn p.val = true → w = (s.dev.point p.val).win → w.on = true →
    w.next.length = 7 → w.blks.length = 7 →
    ∃ t, exec (.supraBlock p) s = .next t ∧ s.sameStore t ∧
      (∀ j, j < 7 →
        match (s.dev.stream ((s.dev.pointChannels p.val).getD j 0)).block (w.next.getD j 0) with
        | some (smp, stop) =>
          if j = 6 ∧ s.dev.pointNeutral p.val = false then (t.dev.point p.val).win.blks.getD j [] = w.blks.getD j []
          else (t.dev.point p.val).win.next.getD j 0 = stop + 1 ∧ (t.dev.point p.val).win.blks.getD j [] =
            w.blks.getD j [] ++ [(stop, (upTo 74).map (fun b => bandPower smp b))]
        | none => (t.dev.point p.val).win.next.getD j 0 = w.next.getD j 0 ∧
            (t.dev.point p.val).win.blks.getD j [] = w.blks.getD j []) ∧
      (∀ q, q ≠ p.val → t.dev.point q = s.dev.point q) ∧ t.dev = { s.dev with points := t.dev.points }) ∧
  (∀ (s : State) (p : Fin 8), s.awake → s.dev.pointRun p.val = true → s.dev.flag (Reg.MP_STAT p.val) Fld.MP_STAT_FREE = false →
    s.dev.sourceFor p.val = none →
    ∃ t, exec (.pointFreeEntry p) s = .next t ∧ s.sameStore t ∧ t.dev.flag (Reg.MP_STAT p.val) Fld.MP_STAT_FREE = true ∧
      t.dev.fc.raised 23 ∧ (∃ b, (t.dev.point p.val).ang = some b ∧ b.w = 2 ^ 27) ∧
      (∀ q, q ≠ p.val → t.dev.point q = s.dev.point q) ∧
      t.dev = { s.dev with regs := t.dev.regs, fc := t.dev.fc, points := t.dev.points } ∧
      s.dev.regsBut t.dev [Reg.MP_STAT p.val] ∧ s.dev.fc.pairsBut t.dev.fc [23]) ∧
  (∀ (s : State) (k : Port) (p : Fin 8) (v : W) (j : Nat), s.ready → qselIndex (v.toNat % 128) = some j →
    ∃ t, exec (.mpTselWrite k p v) s = .next t ∧ s.sameStore t ∧ t.dev.rd (Reg.MP_TSEL p.val) = v &&& 0x7F ∧
      t.dev.snapRd k (Reg.MP_TOT_LO p.val) = natW ((s.dev.point p.val).total j / 2 ^ 32) ∧
      t.dev.snapRd k (Reg.MP_TOT_HI p.val) = natW ((s.dev.point p.val).total j / 2 ^ 64) ∧
      (∀ i, i ≠ k → t.dev.snap.get i = s.dev.snap.get i) ∧ t.dev = { s.dev.quiet with regs := t.dev.regs, snap := t.dev.snap } ∧
      s.dev.regsBut t.dev [Reg.MP_TSEL p.val]) ∧
  (∀ (s : State) (k : Port) (p : Fin 8), s.ready →
    ∃ t, exec (.mpWseqRead k p) s = .next t ∧ s.sameStore t ∧
      (∀ q, q < 7 → t.dev.snapRd k (Reg.MP_WIN p.val q) = (s.dev.point p.val).latched.getD q 0) ∧
      t.dev.snapRd k (Reg.MP_WRAP p.val) = (s.dev.point p.val).wrap ∧
      t.dev.snapRd k (Reg.MP_WTIME p.val) = (s.dev.point p.val).wtime ∧
      (∀ i, i ≠ k → t.dev.snap.get i = s.dev.snap.get i) ∧ t.dev = { s.dev.quiet with snap := t.dev.snap }) ∧
  (∀ (s : State) (k : Port) (v : W), s.ready → (s.dev.point (v.toNat % 8)).hseq < 65536 →
    ∃ t, exec (.harmSelWrite k v) s = .next t ∧ s.sameStore t ∧ t.dev.fld Reg.HARM_SEL Fld.HARM_SEL_POINT = v.toNat % 8 ∧
      wbit (t.dev.snapRd k Reg.HARM_STAT) 31 = true ∧
      (wbit (t.dev.snapRd k Reg.HARM_STAT) 30 = true ↔ (s.dev.point (v.toNat % 8)).res.isSome = true) ∧
      (∀ i, i ≠ k → t.dev.snap.get i = s.dev.snap.get i) ∧ t.dev = { s.dev.quiet with regs := t.dev.regs, snap := t.dev.snap } ∧
      s.dev.regsBut t.dev [Reg.HARM_SEL]) ∧
  (∀ (s : State) (k : Port), s.awake →
    ∃ t, exec (.harmCopyDone k) s = .next t ∧ s.sameStore t ∧
      t.dev.snapRd k Reg.HARM_STAT = s.dev.snapRd k Reg.HARM_STAT &&& 0x7FFFFFFF ∧
      (∀ a, a ≠ Reg.HARM_STAT → t.dev.snapRd k a = s.dev.snapRd k a) ∧ (∀ i, i ≠ k → t.dev.snap.get i = s.dev.snap.get i) ∧
      t.dev = { s.dev with snap := t.dev.snap }) ∧
  (∀ (s : State) (v : W), s.ready → keyIs v 0x6E3B = true → wbit v 0 = true → wbit v 1 = false →
    ∃ t, exec (.clrTotals v) s = .next t ∧ s.sameStore t ∧
      (if s.nv.fuses.lcs = 0 then
        (∀ p j, p < 8 → (t.dev.point p).total j = 0) ∧
          (∃ b, b ∈ t.dev.keep.waiting ∧ b.kind = 4 ∧ b.payload = t.dev.meterRecord false) ∧ t.dev.regs = s.dev.regs
      else t.dev.flag Reg.MET_STAT Fld.MET_STAT_CMD_REF = true ∧ t.dev = { s.dev.quiet with regs := t.dev.regs } ∧
        s.dev.regsBut t.dev [Reg.MET_STAT])) ∧
  (∀ (s : State) (v : W), s.ready → keyIs v 0x6E3B = true → wbit v 0 = false → wbit v 1 = true →
    ∃ t, exec (.metCmdSave v) s = .next t ∧ s.sameStore t ∧
      (∃ b, b ∈ t.dev.keep.waiting ∧ b.kind = 4 ∧ b.payload = s.dev.meterRecord false) ∧
      t.dev = { s.dev.quiet with keep := { s.dev.keep with waiting := t.dev.keep.waiting } } ∧
      (∀ b, b.kind ≠ 4 → (b ∈ t.dev.keep.waiting ↔ b ∈ s.dev.keep.waiting))) ∧
  (∀ (s : State), s.awake → s.dev.fld Reg.MET_STAT Fld.MET_STAT_RESTORE ≠ 3 →
    ∃ t, exec .meterRecordSave s = .next t ∧ s.sameStore t ∧
      (∃ b, b ∈ t.dev.keep.waiting ∧ b.kind = 4 ∧ b.payload = s.dev.meterRecord false) ∧
      t.dev = { s.dev with keep := { s.dev.keep with waiting := t.dev.keep.waiting } }) ∧
  (∀ (s : State) (n : Fin 8), s.awake → s.dev.flag (Reg.PLS_CFG n.val) Fld.PLS_CFG_EN = true →
    (Tbl.get pulseReset s.dev.pulses n.val).on = false → s.dev.fld (Reg.PLS_STAT n.val) Fld.PLS_STAT_PENDING ≠ 0 →
    ∃ t, exec (.pulseStart n) s = .next t ∧ s.sameStore t ∧
      t.dev.pulseBall n.val = !s.dev.flag (Reg.PLS_CFG n.val) Fld.PLS_CFG_POL ∧
      t.dev.fld (Reg.PLS_STAT n.val) Fld.PLS_STAT_PENDING + 1 = s.dev.fld (Reg.PLS_STAT n.val) Fld.PLS_STAT_PENDING ∧
      t.dev.fld (Reg.PLS_STAT n.val) Fld.PLS_STAT_COUNT = (s.dev.fld (Reg.PLS_STAT n.val) Fld.PLS_STAT_COUNT + 1) % 65536 ∧
      t.dev = { s.dev with regs := t.dev.regs, pulses := t.dev.pulses } ∧ s.dev.regsBut t.dev [Reg.PLS_STAT n.val]) ∧
  (∀ (s : State) (n : Fin 8), s.awake →
    ∃ t, exec (.pulseEnd n) s = .next t ∧ s.sameStore t ∧
      t.dev.pulseBall n.val = s.dev.flag (Reg.PLS_CFG n.val) Fld.PLS_CFG_POL ∧ t.dev = { s.dev with pulses := t.dev.pulses } ∧
      (∀ m, m < 8 → m ≠ n.val → t.dev.pulseBall m = s.dev.pulseBall m))

/-! ### Fault collection and injection (spec/12_faults.md, spec/20_startup_test.md) -/

/-- Part of R259 to R277, R401 to R406: an event is applied at the severity of its map word, or at the escalated one once its window has
counted N: it sets PEND from severity 2, counts and is logged with its stamp from 1, and the first from CAP_MIN is captured in
FC_FIRST. A device event of severity 3 derates, 4 raises DEV_FAULT in every section in scope, 5 takes the device to SAFE and 6
to LOCKOUT; a section event of 4 stops the section, 5 and 6 raise the section's source at the device. A window's end clears its
count; a broken pair counts as asserted, is recorded and raises RAIL_BROKEN; a restored one follows its rails again; POP takes
the oldest entry; a corrected collector word is counted, an uncorrectable one enters SAFE or stops the section. FIRE holds its
detector with the INJ mark, STOP and the end of DUR let it go, after its one event where the pair has not arrived yet (DEDUCED,
log entry 69), and a FIRE that is not permitted or invalid sets INJ_REF. -/
def Obligations.FaultEventsAndInjections : Prop :=
  (∀ (s : State) (g : Fin 576) (sev : Nat), s.awake → g.val < 64 → (s.dev.fc.pair g.val).drive = true →
    (s.dev.fc.pair g.val).level = false → (s.dev.fc.pair g.val).broken = false → s.dev.fcIO.nextSev g.val = sev →
    ∃ t, exec (.sourceEvent g) s = .next t ∧ s.sameStore t ∧ t.dev.fcIO.appliedSev g.val = sev ∧
      (t.dev.fc.pair g.val).level = !(s.dev.fc.pair g.val).pulse ∧
      t.dev.fcIO.bit 0x40 g.val = (s.dev.fcIO.bit 0x40 g.val || decide (2 ≤ sev)) ∧
      t.dev.fld Reg.DFC_STAT Fld.FC_STAT_EVT_CNT = min 255 (s.dev.fld Reg.DFC_STAT Fld.FC_STAT_EVT_CNT + if 1 ≤ sev then 1 else 0) ∧
      t.dev.rd (Reg.DFC_ESC g.val) = (if bitsN (s.dev.rd (Reg.DFC_MAP g.val)).toNat 13 6 = 0 then s.dev.rd (Reg.DFC_ESC g.val)
        else natW (0x80000000 + s.dev.fcIO.escNext g.val)) ∧
      t.dev.fc.log = (if sev = 0 ∨ 32 ≤ s.dev.fc.log.length then s.dev.fc.log else s.dev.fc.log ++
        [⟨natW (0x80000000 + b2n (s.dev.fc.pair g.val).inj * 0x40000000 + b2n (s.dev.fcIO.escalates g.val) * 0x10000000 +
          sev * 0x2000000 + b2n s.dev.timeInv * 0x1000000 + g.val), s.dev.stamp⟩]) ∧
      (s.dev.flag Reg.DFC_FIRST Fld.FC_FIRST_VALID = false → max 1 (s.dev.fld Reg.DFC_CFG Fld.FC_CFG_CAP_MIN) ≤ sev →
        t.dev.fld Reg.DFC_FIRST Fld.FC_FIRST_SRC = g.val ∧ t.dev.fld Reg.DFC_FIRST Fld.FC_FIRST_SEV = sev ∧
          t.dev.flag Reg.DFC_FIRST Fld.FC_FIRST_VALID = true ∧ t.dev.rd Reg.DFC_FIRST_TIME = s.dev.stamp) ∧
      (s.dev.flag Reg.DFC_FIRST Fld.FC_FIRST_VALID = true →
        t.dev.fld Reg.DFC_FIRST Fld.FC_FIRST_SRC = s.dev.fld Reg.DFC_FIRST Fld.FC_FIRST_SRC ∧
          t.dev.rd Reg.DFC_FIRST_TIME = s.dev.rd Reg.DFC_FIRST_TIME) ∧
      (sev ≤ 2 → t.dev = { s.dev with regs := t.dev.regs, fc := t.dev.fc, pool := t.dev.pool } ∧
        s.dev.ringRegsBut t.dev [Reg.DFC_STAT, Reg.DFC_FIRST, Reg.DFC_FIRST_TIME, Reg.DFC_LOG_STAT, Reg.DFC_PEND (g.val / 32),
          Reg.DFC_ESC g.val] ∧ s.dev.fc.pairsBut t.dev.fc [g.val, 41]) ∧
      (sev = 3 → ∀ sc, devScope g.val sc = true → (t.dev.sc sc).fc.raised 3) ∧
      (sev = 4 → ∀ sc, devScope g.val sc = true → s.dev.secUp sc = true → (t.dev.sc sc).fc.raised 2) ∧
      (sev = 5 → s.dev.devState ≠ 5 → s.dev.devState ≠ 6 → t.dev.devState = 5 ∧
        t.dev.rd Reg.FC_LAST_SAFE = natW (0x40000000 + g.val) ∧ (∀ sc, t.dev.secSt sc ≠ 3 ∧ t.dev.secSt sc ≠ 4 ∧ t.dev.secSt sc ≠ 7)) ∧
      (6 ≤ sev → s.dev.devState ≠ 6 → t.dev.devState = 6 ∧
        t.dev.rd Reg.FC_LAST_SAFE = natW (0x40000000 + g.val) ∧ (∀ sc, t.dev.secSt sc ≠ 3 ∧ t.dev.secSt sc ≠ 4 ∧ t.dev.secSt sc ≠ 7))) ∧
  (∀ (s : State) (g : Fin 576) (sc : Sec) (n sev : Nat), s.up sc → n < 128 → g.val = 64 + 128 * sc.val + n →
    ((s.dev.sc sc).fc.pair n).drive = true → ((s.dev.sc sc).fc.pair n).level = false →
    ((s.dev.sc sc).fc.pair n).broken = false → ((s.dev.sc sc).fcIO sc).nextSev n = sev →
    ∃ t, exec (.sourceEvent g) s = .next t ∧ s.sameStore t ∧ ((t.dev.sc sc).fcIO sc).appliedSev n = sev ∧
      ((t.dev.sc sc).fcIO sc).bit 0x40 n = (((s.dev.sc sc).fcIO sc).bit 0x40 n ||
        ((s.dev.sc sc).flag Reg.FC_CFG Fld.FC_CFG_STICKY || decide (2 ≤ sev))) ∧
      (t.dev.sc sc).fc.log = (if (s.dev.sc sc).flag Reg.FC_CFG Fld.FC_CFG_STICKY = true ∨ sev = 0 ∨ 32 ≤ (s.dev.sc sc).fc.log.length then
        (s.dev.sc sc).fc.log else (s.dev.sc sc).fc.log ++
          [⟨natW (0x80000000 + b2n ((s.dev.sc sc).fc.pair n).inj * 0x40000000 +
            b2n (((s.dev.sc sc).fcIO sc).escalates n) * 0x10000000 + sev * 0x2000000 + b2n s.dev.timeInv * 0x1000000 + g.val),
            s.dev.stamp⟩]) ∧
      (sev ≤ 3 → Dev.SectionOnly sc s.dev t.dev ∧ (s.dev.sc sc).regsBut (t.dev.sc sc)
        [Reg.FC_STAT, Reg.FC_FIRST, Reg.FC_FIRST_TIME, Reg.FC_LOG_STAT, Reg.FC_PEND (n / 32), Reg.FC_ESC n]) ∧
      (sev = 4 → (s.dev.secSt sc = 3 ∨ s.dev.secSt sc = 4 ∨ s.dev.secSt sc = 7) →
        t.dev.secSt sc = 5 ∧ t.dev.fc.raised (44 + sc.val) ∧ (t.dev.sc sc).eng.run = none ∧ s.dev.secsBut t.dev [sc]) ∧
      (sev = 5 → t.dev.fc.raised (48 + sc.val) ∧ t.dev.secSt sc = s.dev.secSt sc) ∧
      (6 ≤ sev → t.dev.fc.raised (52 + sc.val) ∧ t.dev.secSt sc = s.dev.secSt sc)) ∧
  (∀ (s : State) (g : Fin 576), s.awake → s.dev.fcUp g.val = true →
    fbit Fld.FC_ESC_OPEN ((s.dev.ioOf g.val).rd (0x400 + 4 * locOf g.val)) = true →
    ∃ t, exec (.escWindowExpiry g) s = .next t ∧ s.sameStore t ∧ (t.dev.ioOf g.val).rd (0x400 + 4 * locOf g.val) = 0 ∧
      s.dev.fcOnly g.val t.dev ∧ (t.dev.ioOf g.val).fc = (s.dev.ioOf g.val).fc) ∧
  (∀ (s : State) (g : Fin 576) (both1 : Bool), s.awake → s.dev.fcUp g.val = true →
    ((s.dev.ioOf g.val).fc.pair (locOf g.val)).broken = false → ((s.dev.ioOf g.val).fc.pair (locOf g.val)).level = true →
    ∃ t, exec (.pairBroken g both1) s = .next t ∧ s.sameStore t ∧ s.dev.fcOnly g.val t.dev ∧
      (t.dev.ioOf g.val).bit 0x80 (locOf g.val) = true ∧ (t.dev.ioOf g.val).asserted (locOf g.val) = true ∧
      (t.dev.ioOf g.val).fc.raised 0 ∧ (t.dev.ioOf g.val).fc.log = (s.dev.ioOf g.val).fc.log ∧
      (fbit Fld.FC_RAIL_VALID ((s.dev.ioOf g.val).rd 0x20) = false →
        (t.dev.ioOf g.val).rd 0x20 = natW (0x80000000 + b2n both1 * 0x40000000 + g.val))) ∧
  (∀ (s : State) (g : Fin 576) (both1 : Bool), s.awake → s.dev.fcUp g.val = true →
    ((s.dev.ioOf g.val).fc.pair (locOf g.val)).broken = false → ((s.dev.ioOf g.val).fc.pair (locOf g.val)).level = false →
    ∃ t, exec (.pairBroken g both1) s = .next t ∧ s.sameStore t ∧ (t.dev.ioOf g.val).bit 0x80 (locOf g.val) = true ∧
      (t.dev.ioOf g.val).asserted (locOf g.val) = true ∧ (t.dev.ioOf g.val).fc.raised 0 ∧
      (t.dev.ioOf g.val).appliedSev (locOf g.val) = (s.dev.ioOf g.val).nextSev (locOf g.val)) ∧
  (∀ (s : State) (g : Fin 576), s.awake → s.dev.fcUp g.val = true →
    ((s.dev.ioOf g.val).fc.pair (locOf g.val)).broken = true →
    ∃ t, exec (.pairRestored g) s = .next t ∧ s.sameStore t ∧
      ((t.dev.ioOf g.val).fc.pair (locOf g.val)).broken = false ∧
      (g.val < 64 ∨ locOf g.val ≠ 3 → ((t.dev.ioOf g.val).fc.pair (locOf g.val)).drive =
        (((s.dev.ioOf g.val).fc.pair (locOf g.val)).drive && !((s.dev.ioOf g.val).fc.pair (locOf g.val)).pulse)) ∧
      t.dev = { s.dev with fc := t.dev.fc, sec := t.dev.sec } ∧ (∀ sc, (t.dev.sc sc).regs = (s.dev.sc sc).regs)) ∧
  (∀ (s : State), s.ready → ∃ t, exec (.fcLogPop none) s = .next t ∧ s.sameStore t ∧ t.dev.fc.log = s.dev.fc.log.tail ∧
      t.dev.fc.pairs = s.dev.fc.pairs ∧ t.dev.regs = s.dev.regs ∧ (∀ sc, (t.dev.sc sc).regs = (s.dev.sc sc).regs) ∧
      (∀ sc, (s.dev.sc sc).fc.pairsBut (t.dev.sc sc).fc [3])) ∧
  (∀ (s : State) (sc : Sec), s.reach sc →
    ∃ t, exec (.fcLogPop (some sc)) s = .next t ∧ s.sameStore t ∧ (t.dev.sc sc).fc.log = (s.dev.sc sc).fc.log.tail ∧
      t.dev.fc = s.dev.fc ∧ t.dev.regs = s.dev.regs ∧ (∀ k, (t.dev.sc k).regs = (s.dev.sc k).regs) ∧
      (∀ k, (s.dev.sc k).fc.pairsBut (t.dev.sc k).fc [3])) ∧
  (∀ (s : State) (ecc : EccResult), s.awake → s.dev.inj.pend = [] →
    ∃ t, exec (.collectorScrub none ecc) s = .next t ∧ s.sameStore t ∧
      (ecc = .clean → t.dev = s.dev) ∧
      (ecc = .corrected → t.dev.fc.raised 1 ∧ t.dev.fld Reg.DFC_ECC Fld.FC_ECC_CE_CNT = min 255 (s.dev.fld Reg.DFC_ECC Fld.FC_ECC_CE_CNT + 1) ∧
        t.dev = { s.dev with regs := t.dev.regs, fc := t.dev.fc } ∧ s.dev.regsBut t.dev [Reg.DFC_ECC]) ∧
      (ecc = .uncorrectable → s.dev.devState ≠ 5 → s.dev.devState ≠ 6 → t.dev.devState = 5 ∧
        t.dev.rd Reg.FC_LAST_SAFE = 0x80000000)) ∧
  (∀ (s : State) (sc : Sec) (ecc : EccResult), s.up sc → s.dev.inj.pend = [] →
    ∃ t, exec (.collectorScrub (some sc) ecc) s = .next t ∧ s.sameStore t ∧
      (ecc = .clean → t.dev = s.dev) ∧
      (ecc = .corrected → (t.dev.sc sc).fc.raised 1 ∧ s.dev.secsBut t.dev [sc] ∧ t.dev.regs = s.dev.regs ∧
        (t.dev.sc sc).fld Reg.FC_ECC Fld.FC_ECC_CE_CNT = min 255 ((s.dev.sc sc).fld Reg.FC_ECC Fld.FC_ECC_CE_CNT + 1) ∧
        (s.dev.sc sc).regsBut (t.dev.sc sc) [Reg.FC_ECC]) ∧
      (ecc = .uncorrectable → t.dev.fc.raised (10 + sc.val) ∧
        (s.dev.secSt sc = 3 ∨ s.dev.secSt sc = 4 ∨ s.dev.secSt sc = 7 → t.dev.secSt sc = 5))) ∧
  (∀ (s : State) (v : W) (g : Nat), s.ready → keyIs v 0xB3C5 = true → wbit v 0 = true → wbit v 1 = false →
    s.dev.injOk s.nv.fuses.lcs = true → s.dev.inj.act = none → injKind (s.dev.rd Reg.INJ_CFG) = 0 →
    injTarget (s.dev.rd Reg.INJ_CFG) = g → g < 576 → (s.dev.pairOf g).drive = false →
    ∃ t, exec (.injFire v) s = .next t ∧ s.sameStore t ∧ (t.dev.pairOf g).drive = true ∧ (t.dev.pairOf g).inj = true ∧
      (t.dev.pairOf g).pulse = false ∧ t.dev.inj.act = some (s.dev.rd Reg.INJ_CFG) ∧
      t.dev.flag Reg.INJ_STAT Fld.INJ_STAT_ACTIVE = true ∧ t.dev.fld Reg.INJ_STAT Fld.INJ_STAT_SRC = g ∧
      t.dev.rd Reg.INJ_TIME = s.dev.stamp ∧ s.dev.regsBut t.dev [Reg.INJ_STAT, Reg.INJ_TIME] ∧
      (∀ sc, (t.dev.sc sc).regs = (s.dev.sc sc).regs)) ∧
  (∀ (s : State) (v : W), s.ready → keyIs v 0xB3C5 = true → wbit v 0 = true → wbit v 1 = false →
    s.dev.injOk s.nv.fuses.lcs = false ∨ s.dev.inj.act.isSome = true ∨ injValid (s.dev.rd Reg.INJ_CFG) = false →
    ∃ t, exec (.injFire v) s = .next t ∧ s.sameStore t ∧ t.dev.flag Reg.TEST_STAT Fld.TEST_STAT_INJ_REF = true ∧
      t.dev = { s.dev.quiet with regs := t.dev.regs } ∧ s.dev.regsBut t.dev [Reg.TEST_STAT]) ∧
  (∀ (s : State) (v w : W), s.ready → keyIs v 0xB3C5 = true → wbit v 0 = false → wbit v 1 = true →
    s.dev.inj.act = some w → s.dev.inj.noEff = false → injKind w = 0 → (s.dev.pairOf (injTarget w)).inj = true →
    ∃ t, exec (.injStop v) s = .next t ∧ s.sameStore t ∧ t.dev.inj.act = none ∧
      t.dev.flag Reg.INJ_STAT Fld.INJ_STAT_ACTIVE = false ∧
      ((s.dev.pairOf (injTarget w)).level = true → (t.dev.pairOf (injTarget w)).drive = false) ∧
      ((s.dev.pairOf (injTarget w)).drive = true → (s.dev.pairOf (injTarget w)).level = false →
        (t.dev.pairOf (injTarget w)).drive = true ∧ (t.dev.pairOf (injTarget w)).pulse = true) ∧
      s.dev.regsBut t.dev [Reg.INJ_STAT] ∧ (∀ sc, (t.dev.sc sc).regs = (s.dev.sc sc).regs)) ∧
  (∀ (s : State) (w : W), s.awake → s.dev.inj.act = some w → s.dev.inj.noEff = false → injKind w = 0 →
    (s.dev.pairOf (injTarget w)).inj = true →
    ∃ t, exec .injEnd s = .next t ∧ s.sameStore t ∧ t.dev.inj.act = none ∧
      t.dev.flag Reg.INJ_STAT Fld.INJ_STAT_ACTIVE = false ∧
      ((s.dev.pairOf (injTarget w)).level = true → (t.dev.pairOf (injTarget w)).drive = false) ∧
      ((s.dev.pairOf (injTarget w)).drive = true → (s.dev.pairOf (injTarget w)).level = false →
        (t.dev.pairOf (injTarget w)).drive = true ∧ (t.dev.pairOf (injTarget w)).pulse = true) ∧
      s.dev.regsBut t.dev [Reg.INJ_STAT] ∧ (∀ sc, (t.dev.sc sc).regs = (s.dev.sc sc).regs))

/-! ### The safety block (spec/13_safety.md) -/

/-- Part of R279 to R286, R290: INIT ends in TRIPPED with the seal adopted, or in LOCKOUT on a parity fault. An accepted level shows in
SAFE_IN; the change of an enabled input from healthy to tripped is a trip, recorded with its stamp: from READY category 0 removes
the gates and raises the input's source at once, category 1 enters RAMP, whose end does the same; in TRIPPED and LOCKOUT it is
recorded only. A discrepancy and a changed or even seal byte lock out; a failure of the SAFE domain itself locks out with the
outputs de-energised and takes the device to SAFE. A lost toggle removes every gate. -/
def Obligations.SafetyInputsSealAndTrips : Prop :=
  (∀ (s : State) (sv : BitVec 8), s.awake → s.dev.safeSt = 0 →
    ∃ t, exec (.safeInitDone sv) s = .next t ∧ s.sameStore t ∧ s.dev.safeOnly t.dev ∧
      t.dev.fld Reg.SAFE_SEAL Fld.SAFE_SEAL_ADOPTED = sv.toNat ∧ t.dev.fld Reg.SAFE_SEAL Fld.SAFE_SEAL_LIVE = sv.toNat ∧
      (if sealOk sv = true then t.dev.safeSt = 1 else t.dev.safeSt = 4 ∧ wbit (t.dev.rd Reg.SAFE_CAUSE) 9 = true ∧ t.dev.fc.raised 20) ∧
      t.dev.sec = s.dev.sec) ∧
  (∀ (s : State) (ch : Fin 8) (level : Bool), s.awake → s.dev.inj.act = none →
    ch.val = 7 ∨ s.dev.safeSt = 0 ∨ s.dev.safeEnabled (if ch.val < 6 then ch.val / 2 else 3) = false ∨
      s.dev.inputOk (if ch.val < 6 then ch.val / 2 else 3) = false ∨ s.dev.safeLevel ch.val = level →
    ∃ t, exec (.safeInputChange ch level) s = .next t ∧ s.sameStore t ∧ t.dev.safeLevel ch.val = level ∧
      (∀ c, c < 8 → c ≠ ch.val → t.dev.safeLevel c = s.dev.safeLevel c) ∧
      t.dev = { s.dev with regs := t.dev.regs } ∧ s.dev.regsBut t.dev [Reg.SAFE_IN]) ∧
  (∀ (s : State) (ch : Fin 8) (level : Bool) (n : Nat), s.awake → s.dev.inj.act = none → ch.val < 7 →
    n = (if ch.val < 6 then ch.val / 2 else 3) → s.dev.safeSt ≠ 0 → s.dev.safeEnabled n = true → s.dev.inputOk n = true →
    s.dev.safeLevel ch.val ≠ level →
    ∃ t, exec (.safeInputChange ch level) s = .next t ∧ s.sameStore t ∧ s.dev.safeOnly t.dev ∧ t.dev.safeLevel ch.val = level ∧
      wbit (t.dev.rd Reg.SAFE_CAUSE) n = true ∧ t.dev.rd Reg.SAFE_TRIP_TIME = s.dev.stamp ∧
      t.dev.fld Reg.SAFE_EVCNT Fld.SAFE_EVCNT_TRIPS = min 255 (s.dev.fld Reg.SAFE_EVCNT Fld.SAFE_EVCNT_TRIPS + 1) ∧
      (if s.dev.safeSt = 2 ∨ s.dev.safeSt = 3 then
        if (s.dev.seal 3 && (decide (n = 0) || (decide (n = 1) && s.dev.seal 4))) = true then
          t.dev.safeSt = 3 ∧ t.dev.safe.ramp.getLsbD n = true
        else t.dev.safeSt = 1 ∧ t.dev.fc.raised (14 + n) ∧ t.dev.removing
      else t.dev.safeSt = s.dev.safeSt ∧ t.dev.sec = s.dev.sec)) ∧
  (∀ (s : State), s.awake → s.dev.safeSt = 3 →
    ∃ t, exec .rampExpiry s = .next t ∧ s.sameStore t ∧ s.dev.safeOnly t.dev ∧ t.dev.safeSt = 1 ∧ t.dev.removing ∧
      (∀ n, n < 4 → s.dev.safe.ramp.getLsbD n = true → t.dev.fc.raised (14 + n)) ∧ t.dev.safe.ramp = 0) ∧
  (∀ (s : State) (n : Fin 3), s.awake → Nat.testBit (s.dev.fld Reg.SAFE_IN Fld.SAFE_IN_DISC) n.val = true →
    ∃ t, exec (.discrepancyTimeout n) s = .next t ∧ s.sameStore t ∧ s.dev.lockedOut t.dev 8) ∧
  (∀ (s : State) (sv : BitVec 8), s.awake → s.dev.safeSt ≠ 0 →
    sv.toNat ≠ s.dev.fld Reg.SAFE_SEAL Fld.SAFE_SEAL_ADOPTED ∨ sealOk sv = false → s.dev.safeSt ≠ 4 ∨ s.dev.sealBroken = false →
    ∃ t, exec (.sealRead sv) s = .next t ∧ s.sameStore t ∧ s.dev.lockedOut t.dev 9 ∧
      t.dev.fld Reg.SAFE_SEAL Fld.SAFE_SEAL_LIVE = sv.toNat ∧
      t.dev.fld Reg.SAFE_SEAL Fld.SAFE_SEAL_ADOPTED = s.dev.fld Reg.SAFE_SEAL Fld.SAFE_SEAL_ADOPTED) ∧
  (∀ (s : State) (sv : BitVec 8), s.awake → (sv.toNat = s.dev.fld Reg.SAFE_SEAL Fld.SAFE_SEAL_ADOPTED ∧ sealOk sv = true) ∨
      s.dev.safeSt = 0 ∨ (s.dev.safeSt = 4 ∧ s.dev.sealBroken = true) →
    ∃ t, exec (.sealRead sv) s = .next t ∧ s.sameStore t ∧ t.dev.fld Reg.SAFE_SEAL Fld.SAFE_SEAL_LIVE = sv.toNat ∧
      t.dev = { s.dev with regs := t.dev.regs } ∧ s.dev.regsBut t.dev [Reg.SAFE_SEAL]) ∧
  (∀ (s : State), s.awake → s.dev.devState ≠ 5 → s.dev.devState ≠ 6 →
    ∃ t, exec .safeSelfFail s = .next t ∧ s.sameStore t ∧ t.dev.safeSt = 4 ∧ wbit (t.dev.rd Reg.SAFE_CAUSE) 12 = true ∧
      t.dev.fld Reg.SAFE_OUT Fld.SAFE_OUT_GATE_EN = 0 ∧ t.dev.fld Reg.SAFE_OUT Fld.SAFE_OUT_SO = 0 ∧ t.dev.devState = 5 ∧
      t.dev.rd Reg.FC_LAST_SAFE = 0xC0000000) ∧
  (∀ (s : State), s.awake → s.dev.flag Reg.SAFE_OUT Fld.SAFE_OUT_GATE_EN = false →
    ∃ t, exec .gateEnLoss s = .next t ∧ s.sameStore t ∧ s.dev.safeOnly t.dev ∧ t.dev.safe.step5 = 2 ∧
      (∀ sc, (t.dev.sc sc).safe5 = 2) ∧ (∀ sc l, ((t.dev.sc sc).lg l).frozen5 = 0) ∧ t.dev.regs = s.dev.regs)

/-- Part of R207, R284, R286 to R289: the plateau's end and the end of the toggle take the gates from stage 1 to off; 5 ms after removal
started SO0 to SO2 are de-energised. A failed read-back locks out with OSSD, a contactor that does not follow its output, in its
100 ms or later, with FBK, and a welded main contactor owes a shunt pulse, which energises SO3 until its end. A contactor, or with
FBK_MODE 1 a read-back, confirms its output for the sequencers. A pulse of SRESET of 100 ms to 3 s with every enabled input
healthy, the contactors open and the outputs off, and with RESET_MODE 1 the automatic reset, enter READY, with GATE_EN toggling,
stage 5 released and the outputs following their requests; any other pulse is counted. -/
def Obligations.SafetyOutputsAndResets : Prop :=
  (∀ (s : State), s.awake → s.dev.safe.step5 = 1 →
    ∃ t, exec .safePlateauEnd s = .next t ∧ s.sameStore t ∧ s.dev.safeOnly t.dev ∧ t.dev.safe.step5 = 2 ∧
      (∀ sc, (t.dev.sc sc).safe5 = 2) ∧ t.dev.regs = s.dev.regs) ∧
  (∀ (s : State), s.awake → s.dev.safe.step5 = 2 →
    ∃ t, exec .gateEnStop s = .next t ∧ s.sameStore t ∧ s.dev.safeOnly t.dev ∧ t.dev.fld Reg.SAFE_OUT Fld.SAFE_OUT_GATE_EN = 0 ∧
      (∀ sc, (t.dev.sc sc).safe5 = 2) ∧ (∀ sc l, ((t.dev.sc sc).lg l).frozen5 = 0) ∧ s.dev.regsBut t.dev [Reg.SAFE_OUT]) ∧
  (∀ (s : State), s.awake → s.dev.safe.offPend = true → s.dev.safeSt ≠ 2 →
    ∃ t, exec .soDeenergise s = .next t ∧ s.sameStore t ∧ t.dev.fld Reg.SAFE_OUT Fld.SAFE_OUT_SO % 8 = 0 ∧
      t.dev.fld Reg.SAFE_OUT Fld.SAFE_OUT_SO / 8 = s.dev.fld Reg.SAFE_OUT Fld.SAFE_OUT_SO / 8 ∧ t.dev.safe.offPend = false ∧
      t.dev = { s.dev with regs := t.dev.regs, safe := t.dev.safe } ∧ s.dev.regsBut t.dev [Reg.SAFE_OUT]) ∧
  (∀ (s : State) (n : Fin 4), s.awake → s.dev.safeSt ≠ 0 →
    ∃ t, exec (.offPulseTest n true) s = .next t ∧ s.sameStore t ∧
      Nat.testBit (t.dev.fld Reg.SAFE_OUT Fld.SAFE_OUT_SOMON) n.val = Nat.testBit (s.dev.fld Reg.SAFE_OUT Fld.SAFE_OUT_SO) n.val ∧
      t.dev = { s.dev with regs := t.dev.regs } ∧ s.dev.regsBut t.dev [Reg.SAFE_OUT]) ∧
  (∀ (s : State) (n : Fin 4), s.awake → s.dev.safeSt ≠ 0 →
    ∃ t, exec (.offPulseTest n false) s = .next t ∧ s.sameStore t ∧ s.dev.lockedOut t.dev 11 ∧ t.dev.fc.raised 19 ∧
      Nat.testBit (t.dev.fld Reg.SAFE_OUT Fld.SAFE_OUT_SOMON) n.val = true) ∧
  (∀ (s : State) (n : Fin 4) (closed : Bool), s.awake → s.dev.fbkMode = true →
    ∃ t, exec (.contactorConfirm n closed) s = .next t ∧ s.sameStore t ∧ t.dev.soClosed.getLsbD n.val = closed ∧
      (∀ m, m < 4 → m ≠ n.val → t.dev.soClosed.getLsbD m = s.dev.soClosed.getLsbD m) ∧
      t.dev = { s.dev with regs := t.dev.regs } ∧ s.dev.regsBut t.dev [Reg.SAFE_OUT]) ∧
  (∀ (s : State) (n : Fin 4) (closed : Bool), s.awake → s.dev.fbkMode = false → s.dev.safeSt ≠ 0 →
    ∃ t, exec (.contactorConfirm n closed) s = .next t ∧ s.sameStore t ∧ s.dev.safeOnly t.dev ∧
      t.dev.soClosed.getLsbD n.val = closed ∧
      (n.val < 3 → s.dev.safe.win.getLsbD n.val = false →
        closed ≠ Nat.testBit (s.dev.fld Reg.SAFE_OUT Fld.SAFE_OUT_SO) n.val →
        t.dev.safeSt = 4 ∧ wbit (t.dev.rd Reg.SAFE_CAUSE) 10 = true ∧ t.dev.fc.raised 18)) ∧
  (∀ (s : State) (n : Fin 4), s.awake → s.dev.fbkMode = true → n.val < 3 →
    Nat.testBit (s.dev.fld Reg.SAFE_OUT Fld.SAFE_OUT_SO) n.val = true →
    ∃ t, exec (.readBackConfirmed n) s = .next t ∧ s.sameStore t ∧ s.dev.safeOnly t.dev ∧
      t.dev.soConfirmed.getLsbD n.val = Nat.testBit (t.dev.fld Reg.SAFE_OUT Fld.SAFE_OUT_SO) n.val ∧
      (s.dev.safeSt ≠ 2 → t.dev.soConfirmed.getLsbD n.val = true) ∧ t.dev.safeSt = s.dev.safeSt) ∧
  (∀ (s : State) (n : Fin 4), s.awake → n.val < 3 → s.dev.safe.win.getLsbD n.val = true → s.dev.fbkMode = false →
    s.dev.soClosed.getLsbD n.val ≠ Nat.testBit (s.dev.fld Reg.SAFE_OUT Fld.SAFE_OUT_SO) n.val →
    ∃ t, exec (.mirrorTimeout n) s = .next t ∧ s.sameStore t ∧ s.dev.lockedOut t.dev 10 ∧ t.dev.fc.raised 18 ∧
      t.dev.safe.win.getLsbD n.val = false ∧
      (n.val = 1 → s.dev.safe.weld = true → s.dev.soClosed.getLsbD 1 = true → t.dev.safe.shunt = true)) ∧
  (∀ (s : State) (n : Fin 4), s.awake → n.val < 3 → s.dev.safe.win.getLsbD n.val = true →
    s.dev.soClosed.getLsbD n.val = Nat.testBit (s.dev.fld Reg.SAFE_OUT Fld.SAFE_OUT_SO) n.val → s.dev.safe.weld = false →
    ∃ t, exec (.mirrorTimeout n) s = .next t ∧ s.sameStore t ∧ t.dev.safe.win.getLsbD n.val = false ∧
      t.dev = { s.dev with safe := { s.dev.safe with win := t.dev.safe.win } }) ∧
  (∀ (s : State), s.awake → s.dev.safe.shunt = true →
    ∃ t, exec .shuntTripPulse s = .next t ∧ s.sameStore t ∧ Nat.testBit (t.dev.fld Reg.SAFE_OUT Fld.SAFE_OUT_SO) 3 = true ∧
      t.dev.fld Reg.SAFE_OUT Fld.SAFE_OUT_SO % 8 = s.dev.fld Reg.SAFE_OUT Fld.SAFE_OUT_SO % 8 ∧ t.dev.safe.shunt = false ∧
      t.dev.fld Reg.SAFE_EVCNT Fld.SAFE_EVCNT_SHUNT = min 255 (s.dev.fld Reg.SAFE_EVCNT Fld.SAFE_EVCNT_SHUNT + 1) ∧
      t.dev = { s.dev with regs := t.dev.regs, safe := t.dev.safe } ∧ s.dev.regsBut t.dev [Reg.SAFE_OUT, Reg.SAFE_EVCNT]) ∧
  (∀ (s : State) (opened : Bool), s.awake → Nat.testBit (s.dev.fld Reg.SAFE_OUT Fld.SAFE_OUT_SO) 3 = true →
    ∃ t, exec (.shuntPulseEnd opened) s = .next t ∧ s.sameStore t ∧
      Nat.testBit (t.dev.fld Reg.SAFE_OUT Fld.SAFE_OUT_SO) 3 = false ∧ t.dev.soClosed.getLsbD 3 = !opened ∧
      (opened = true → t.dev = { s.dev with regs := t.dev.regs, safe := t.dev.safe } ∧ s.dev.regsBut t.dev [Reg.SAFE_OUT]) ∧
      (opened = false → s.dev.lockedOut t.dev 10 ∧ t.dev.fc.raised 18)) ∧
  (∀ (s : State) (ms : Nat), s.awake → 100 ≤ ms → ms ≤ 3000 → s.dev.inputsOk = true →
    s.dev.fbkMode = true ∨ s.dev.soClosed &&& 7 = 0 → s.dev.fld Reg.SAFE_OUT Fld.SAFE_OUT_SOMON = 0 →
    s.dev.fld Reg.SAFE_OUT Fld.SAFE_OUT_SO < 8 →
    s.dev.safeSt = 1 ∨ (s.dev.safeSt = 4 ∧ s.dev.fld Reg.SAFE_SEAL Fld.SAFE_SEAL_LIVE = s.dev.fld Reg.SAFE_SEAL Fld.SAFE_SEAL_ADOPTED ∧
      sealOk (BitVec.ofNat 8 (s.dev.fld Reg.SAFE_SEAL Fld.SAFE_SEAL_LIVE)) = true) →
    ∃ t, exec (.sresetPulse ms) s = .next t ∧ s.sameStore t ∧ s.dev.safeOnly t.dev ∧ t.dev.safeSt = 2 ∧
      t.dev.fld Reg.SAFE_STATE Fld.SAFE_STATE_PREV = s.dev.safeSt ∧ t.dev.fld Reg.SAFE_OUT Fld.SAFE_OUT_GATE_EN = 1 ∧
      t.dev.safe.step5 = 0 ∧ (∀ sc, (t.dev.sc sc).safe5 = 0) ∧ t.dev.fld Reg.SAFE_OUT Fld.SAFE_OUT_SO = t.dev.soRequests.toNat) ∧
  (∀ (s : State) (ms : Nat), s.awake → s.dev.safeSt = 1 ∨ s.dev.safeSt = 4 →
    ms < 100 ∨ 3000 < ms ∨ s.dev.inputsOk = false ∨ (s.dev.fbkMode = false ∧ s.dev.soClosed &&& 7 ≠ 0) ∨
      s.dev.fld Reg.SAFE_OUT Fld.SAFE_OUT_SOMON ≠ 0 →
    ∃ t, exec (.sresetPulse ms) s = .next t ∧ s.sameStore t ∧
      t.dev.fld Reg.SAFE_EVCNT Fld.SAFE_EVCNT_RST_IGN = min 255 (s.dev.fld Reg.SAFE_EVCNT Fld.SAFE_EVCNT_RST_IGN + 1) ∧
      t.dev = { s.dev with regs := t.dev.regs } ∧ s.dev.regsBut t.dev [Reg.SAFE_EVCNT]) ∧
  (∀ (s : State), s.awake → s.dev.safeSt = 1 → s.dev.seal 6 = true → s.dev.inputsOk = true →
    s.dev.safe.since &&& 9 = 0 → s.dev.safe.fresh = true ∨ (s.dev.safe.since ≠ 0 ∧
      (∀ n, n < 4 → s.dev.safe.since.getLsbD n = true → s.dev.inputOk n = true)) →
    ∃ t, exec .safeAutoReset s = .next t ∧ s.sameStore t ∧ s.dev.safeOnly t.dev ∧ t.dev.safeSt = 2 ∧
      t.dev.fld Reg.SAFE_OUT Fld.SAFE_OUT_GATE_EN = 1 ∧ t.dev.safe.step5 = 0 ∧ (∀ sc, (t.dev.sc sc).safe5 = 0))

/-! ### Network time (spec/14_network_time.md) -/

/-- Part of R294, R297 to R301: a TIME_INCR write within ±1,000 ppm changes the rate and never T, any other sets ADJ_REF; a step within
JUMP_MAX, unset or forced adds its value to T, discards a slew and marks the jump, any other sets JUMP_REFUSED and raises
TIME_JUMP_REF; a slew of at most 1,000,000 ns starts while none runs, and its end has added its value and as many clocks; a read of
TIME_NS takes the port's fraction, WRAPS, STEPPED and TIMEINV and starts them anew, one of TIME_RAW_LO takes C[63:32]. With an empty
queue a step of the block is one TIME clock, the model's choice (notes/assumptions/1.md); a halted counter holds. -/
def Obligations.TheTimeCounterFollowsItsCommands : Prop :=
  (∀ (s : State) (v : W), s.ready → 0x3FEF9DB3 ≤ v.toNat → v.toNat ≤ 0x4010624D →
    ∃ t, exec (.timeIncrWrite v) s = .next t ∧ s.sameStore t ∧ t.dev.rd Reg.TIME_INCR = v ∧ t.dev.time28 = s.dev.time28 ∧
      t.dev.time.c = s.dev.time.c ∧ t.dev = { s.dev.quiet with regs := t.dev.regs, time := t.dev.time } ∧
      s.dev.regsBut t.dev [Reg.TIME_INCR]) ∧
  (∀ (s : State) (v : W), s.ready → v.toNat < 0x3FEF9DB3 ∨ 0x4010624D < v.toNat →
    ∃ t, exec (.timeIncrWrite v) s = .next t ∧ s.sameStore t ∧ t.dev.flag Reg.TIME_STAT Fld.TIME_STAT_ADJ_REF = true ∧
      t.dev = { s.dev.quiet with regs := t.dev.regs } ∧ s.dev.regsBut t.dev [Reg.TIME_STAT]) ∧
  (∀ (s : State) (force : Bool), s.ready →
    force = true ∨ s.dev.flag Reg.TIME_STAT Fld.TIME_STAT_SET = false ∨
      s.dev.adjValue.natAbs ≤ 256 * (s.dev.rd Reg.JUMP_MAX).toNat →
    ∃ t, exec (.timeStep force) s = .next t ∧ s.sameStore t ∧
      (t.dev.time28 : Int) = ((s.dev.time28 : Int) + s.dev.adjValue * 2 ^ 20) % 2 ^ 92 ∧ t.dev.time.c = s.dev.time.c ∧
      t.dev.flag Reg.TIME_STAT Fld.TIME_STAT_SET = true ∧ t.dev.flag Reg.TIME_STAT Fld.TIME_STAT_JUMPED = true ∧
      (∀ k, t.dev.time.stepped.get k = true ∧ t.dev.time.wraps.get k = s.dev.time.wraps.get k) ∧
      t.dev.rd Reg.TIME_LAST_STEP = s.dev.rd Reg.TIME_ADJ ∧ t.dev.rd Reg.TIME_LAST_STEP_HI = s.dev.rd Reg.TIME_ADJ_HI ∧
      t.dev.rd Reg.TIME_SLEW_REM = 0 ∧ t.dev.flag Reg.TIME_STAT Fld.TIME_STAT_SLEW_BUSY = false ∧
      (∀ sc, (t.dev.sc sc).align.jump = (s.dev.sc sc).align.begun ∧ (t.dev.sc sc).align.t0New = false ∧
        (t.dev.sc sc).regs = (s.dev.sc sc).regs) ∧
      s.dev.regsBut t.dev [Reg.TIME_STAT, Reg.TIME_LAST_STEP, Reg.TIME_LAST_STEP_HI, Reg.TIME_SLEW_REM]) ∧
  (∀ (s : State), s.ready → s.dev.flag Reg.TIME_STAT Fld.TIME_STAT_SET = true →
    256 * (s.dev.rd Reg.JUMP_MAX).toNat < s.dev.adjValue.natAbs →
    ∃ t, exec (.timeStep false) s = .next t ∧ s.sameStore t ∧ t.dev.flag Reg.TIME_STAT Fld.TIME_STAT_JUMP_REFUSED = true ∧
      t.dev.fc.raised 28 ∧ t.dev = { s.dev.quiet with regs := t.dev.regs, fc := t.dev.fc } ∧ s.dev.regsBut t.dev [Reg.TIME_STAT] ∧
      s.dev.fc.pairsBut t.dev.fc [28]) ∧
  (∀ (s : State), s.ready → s.dev.flag Reg.TIME_STAT Fld.TIME_STAT_SLEW_BUSY = false → s.dev.adjValue ≠ 0 →
    s.dev.adjValue.natAbs ≤ 256000000 →
    ∃ t, exec .timeSlew s = .next t ∧ s.sameStore t ∧ wint (t.dev.rd Reg.TIME_SLEW_REM) = s.dev.adjValue ∧
      t.dev.flag Reg.TIME_STAT Fld.TIME_STAT_SLEW_BUSY = true ∧ t.dev = { s.dev.quiet with regs := t.dev.regs } ∧
      s.dev.regsBut t.dev [Reg.TIME_SLEW_REM, Reg.TIME_STAT]) ∧
  (∀ (s : State), s.ready → s.dev.flag Reg.TIME_STAT Fld.TIME_STAT_SLEW_BUSY = true ∨ 256000000 < s.dev.adjValue.natAbs →
    ∃ t, exec .timeSlew s = .next t ∧ s.sameStore t ∧ t.dev.flag Reg.TIME_STAT Fld.TIME_STAT_ADJ_REF = true ∧
      t.dev = { s.dev.quiet with regs := t.dev.regs } ∧ s.dev.regsBut t.dev [Reg.TIME_STAT]) ∧
  (∀ (s : State) (rem : Int), s.awake → s.dev.flag Reg.TIME_STAT Fld.TIME_STAT_SLEW_BUSY = true → s.dev.timeInv = false →
    wint (s.dev.rd Reg.TIME_SLEW_REM) = rem → 2 ^ 20 ≤ s.dev.incr →
    ∃ t, exec .slewDone s = .next t ∧ s.sameStore t ∧ t.dev.time.c = (s.dev.time.c + rem.natAbs) % 2 ^ 64 ∧
      (t.dev.time28 : Int) = ((s.dev.time28 : Int) + rem.natAbs * s.dev.incr + rem * 2 ^ 20) % 2 ^ 92 ∧
      t.dev.rd Reg.TIME_SLEW_REM = 0 ∧ t.dev.flag Reg.TIME_STAT Fld.TIME_STAT_SLEW_BUSY = false ∧
      t.dev.up = s.dev.up + rem.natAbs ∧ t.dev = { s.dev with regs := t.dev.regs, time := t.dev.time, up := t.dev.up } ∧
      s.dev.regsBut t.dev [Reg.TIME_SLEW_REM, Reg.TIME_STAT]) ∧
  (∀ (s : State) (k : Port), s.ready →
    ∃ t, exec (.timeNsRead k) s = .next t ∧ s.sameStore t ∧
      t.dev.snapRd k Reg.TIME_AUX = natW (b2n s.dev.timeInv * 2 ^ 31 + b2n (s.dev.time.stepped.get k) * 2 ^ 30 +
        s.dev.time.wraps.get k * 2 ^ 16 + s.dev.time8 % 256) ∧
      t.dev.time.wraps.get k = 0 ∧ t.dev.time.stepped.get k = false ∧
      (∀ j, j ≠ k → t.dev.time.wraps.get j = s.dev.time.wraps.get j ∧ t.dev.time.stepped.get j = s.dev.time.stepped.get j ∧
        t.dev.snap.get j = s.dev.snap.get j) ∧
      t.dev.time28 = s.dev.time28 ∧ t.dev = { s.dev.quiet with time := t.dev.time, snap := t.dev.snap }) ∧
  (∀ (s : State) (k : Port), s.ready →
    ∃ t, exec (.timeRawLoRead k) s = .next t ∧ s.sameStore t ∧
      t.dev.snapRd k Reg.TIME_RAW_HI = natW (s.dev.time.c / 2 ^ 32) ∧ (∀ j, j ≠ k → t.dev.snap.get j = s.dev.snap.get j) ∧
      t.dev = { s.dev.quiet with snap := t.dev.snap }) ∧
  (∀ (s : State), s.awake → s.pending = [] → s.dev.timeInv = false → s.dev.rd Reg.TIME_SLEW_REM = 0 →
    ∃ t, step s = .next t ∧ s.sameStore t ∧ t.dev.time.c = (s.dev.time.c + 1) % 2 ^ 64 ∧
      t.dev.time28 = (s.dev.time28 + s.dev.incr) % 2 ^ 92 ∧
      (∀ k, t.dev.time.wraps.get k =
        min 15 (s.dev.time.wraps.get k + ((s.dev.time28 + s.dev.incr) / 2 ^ 60 - s.dev.time28 / 2 ^ 60))) ∧
      t.dev = { s.dev with regs := t.dev.regs, time := t.dev.time, up := s.dev.up + 1 } ∧
      s.dev.regsBut t.dev [Reg.TIME_STAT, Reg.TIME_SLEW_REM]) ∧
  (∀ (s : State), s.awake → s.pending = [] → s.dev.timeInv = true →
    step s = .next { s with dev := { s.dev with up := s.dev.up + 1 } })

/-! ### Ethernet (spec/14_network_time.md, spec/15_host_links.md) -/

/-- Part of R291, R292, R303, R305 to R307, R315 to R317: an accepted frame goes without its check sequence to the receive queue of its
class (that it goes without is the model's reading, notes/assumptions/41.md), and one of a wrong length or check sequence is counted
alone. The lowest-numbered untimed head leaves with its check sequence and is completed; a timed head takes the lowest free launch
slot, and leaves at its launch time; one that cannot be launched is completed with MISSED, counted, and raises LAUNCH_MISSED. A lost
link is counted and raises ETH_LINK, its return takes the speed; a foreign master without Announces is freed. -/
def Obligations.EthernetFramesAndLaunches : Prop :=
  (∀ (s : State) (p : Port) (frame f : List Byte) (q : Nat), s.awake → s.dev.ethUp p = true → 64 ≤ frame.length →
    frame.length ≤ 1522 → f = frame.take (frame.length - 4) →
    bytesNat (frame.drop (frame.length - 4)) = crc32 f → ¬(beAt f 12 2 = 0x8100 ∧ beAt f 16 2 = 0x8100) →
    ¬(beAt f (frameType f) 2 = 0x8808 ∧ beAt f (frameType f + 2) 2 = 1) → s.dev.ethAccepts p (beAt f 0 6) = true →
    s.dev.ptpAt p f = none → q = 8 * p.val + 4 + s.dev.ethClass p f → 2 ≤ s.dev.qLog q → s.dev.qFill q ≠ s.dev.qLen q →
    f.length ≤ s.dev.qBuf q →
    ∃ t, exec (.ethFrameRx p frame) s = .next t ∧ s.sameStore t ∧ t.dev.qPut q = (s.dev.qPut q + 1) % (2 * s.dev.qLen q) ∧
      Memory.readBytes t.dev.pool (s.dev.qData q (s.dev.qPut q)) f.length = f ∧
      (t.dev.qWord q (s.dev.qPut q) 0).toNat % 65536 = f.length ∧ wbit (t.dev.qWord q (s.dev.qPut q) 0) 31 = true ∧
      wbit (t.dev.qWord q (s.dev.qPut q) 0) 25 = s.dev.timeInv ∧
      t.dev.qWord q (s.dev.qPut q) 2 = natW (s.dev.ethClass p f) ∧
      t.dev = { s.dev with regs := t.dev.regs, pool := t.dev.pool, freeCount := t.dev.freeCount } ∧ s.dev.ringRegsBut t.dev []) ∧
  (∀ (s : State) (p : Port) (frame : List Byte), s.awake → s.dev.ethUp p = true →
    frame.length < 64 ∨ 1522 < frame.length ∨
      bytesNat (frame.drop (frame.length - 4)) ≠ crc32 (frame.take (frame.length - 4)) →
    ∃ t, exec (.ethFrameRx p frame) s = .next t ∧ s.sameStore t ∧
      t.dev.fld (Reg.ETH_CNT p) Fld.ETH_CNT_RX_ERR = min 65535 (s.dev.fld (Reg.ETH_CNT p) Fld.ETH_CNT_RX_ERR + 1) ∧
      t.dev = { s.dev with regs := t.dev.regs } ∧ s.dev.regsBut t.dev [Reg.ETH_CNT p]) ∧
  (∀ (s : State) (p : Port) (q r : Nat), s.awake → s.dev.ethUp p = true → 8 * p.val ≤ q → q < 8 * p.val + 4 →
    (∀ j, j < q → 8 * p.val ≤ j → s.dev.ethHead p j = none) → s.dev.ethHead p q = some r → s.dev.ethTimed q r = false →
    s.dev.ethLenOk q r = true → wbit (s.dev.qWord q r 0) 27 = false → (s.dev.eth.get p).slots = [] →
    (s.dev.eth.get p).busy ≤ s.dev.up →
    ∃ t, exec (.ethFrameTx p) s = .next t ∧ s.sameStore t ∧
      (t.dev.eth.get p).lastTx = ethPad (s.dev.ethBytes q r) ++ natBytes 4 (crc32 (ethPad (s.dev.ethBytes q r))) ∧
      wbit (t.dev.qWord q r 0) 31 = true ∧ wbit (t.dev.qWord q r 0) 26 = true ∧
      t.dev = { s.dev with regs := t.dev.regs, pool := t.dev.pool, eth := t.dev.eth, freeCount := t.dev.freeCount } ∧
      s.dev.ringRegsBut t.dev [] ∧ (∀ k, k ≠ p → t.dev.eth.get k = s.dev.eth.get k)) ∧
  (∀ (s : State) (p : Port) (q r i : Nat), s.awake → s.dev.ethOn p = true → 8 * p.val ≤ q → q < 8 * p.val + 4 →
    (∀ j, j < q → 8 * p.val ≤ j → s.dev.ethHead p j = none) → s.dev.ethHead p q = some r → s.dev.ethTimed q r = true →
    s.dev.ethLenOk q r = true → s.dev.launchLost (s.dev.qWord q r 1) = false → i < 16 → (∀ e, e ∈ (s.dev.eth.get p).slots → e.slot ≠ i) →
    (∀ j, j < i → ∃ e, e ∈ (s.dev.eth.get p).slots ∧ e.slot = j) →
    ∃ t, exec (.launchSlotLoad p) s = .next t ∧ s.sameStore t ∧
      (t.dev.eth.get p).slots = (s.dev.eth.get p).slots ++ [⟨i, q, r, s.dev.qWord q r 1⟩] ∧
      t.dev = { s.dev with eth := t.dev.eth } ∧ (∀ k, k ≠ p → t.dev.eth.get k = s.dev.eth.get k)) ∧
  (∀ (s : State) (p : Port) (i : Fin 16) (e : LaunchSlot), s.awake → s.dev.timeInv = false → s.dev.ethUp p = true →
    (s.dev.eth.get p).slots = [e] → e.slot = i.val → wbit (s.dev.qWord e.queue e.ring 0) 27 = false →
    (e.l - s.dev.stamp).toNat < 2000 → (s.dev.eth.get p).busy ≤ s.dev.up →
    ∃ t, exec (.timedLaunch p i) s = .next t ∧ s.sameStore t ∧ (t.dev.eth.get p).slots = [] ∧
      (t.dev.eth.get p).lastTx = ethPad (s.dev.ethBytes e.queue e.ring) ++ natBytes 4 (crc32 (ethPad (s.dev.ethBytes e.queue e.ring))) ∧
      wbit (t.dev.qWord e.queue e.ring 0) 31 = true ∧ s.dev.ringRegsBut t.dev [] ∧
      t.dev = { s.dev with regs := t.dev.regs, pool := t.dev.pool, eth := t.dev.eth, freeCount := t.dev.freeCount }) ∧
  (∀ (s : State) (p : Port) (q : Fin 4) (i : Fin 16) (e : LaunchSlot), s.awake → (s.dev.eth.get p).slots = [e] →
    e.slot = i.val → e.queue = 8 * p.val + q.val → s.dev.launchPast e.l = true →
    ∃ t, exec (.launchMissed p q (some i)) s = .next t ∧ s.sameStore t ∧ (t.dev.eth.get p).slots = [] ∧
      wbit (t.dev.qWord e.queue e.ring 0) 31 = true ∧ wbit (t.dev.qWord e.queue e.ring 0) 29 = true ∧ t.dev.fc.raised 30 ∧
      t.dev.fld (Reg.LAUNCH_STAT p) Fld.LAUNCH_STAT_MISSED = min 255 (s.dev.fld (Reg.LAUNCH_STAT p) Fld.LAUNCH_STAT_MISSED + 1) ∧
      (t.dev.eth.get p).lastTx = (s.dev.eth.get p).lastTx ∧ s.dev.ringRegsBut t.dev [Reg.LAUNCH_STAT p] ∧
      t.dev = { s.dev with regs := t.dev.regs, pool := t.dev.pool, eth := t.dev.eth, fc := t.dev.fc }) ∧
  (∀ (s : State) (p : Port) (q r i : Nat), s.awake → s.dev.ethOn p = true → 8 * p.val ≤ q → q < 8 * p.val + 4 →
    (∀ j, j < q → 8 * p.val ≤ j → s.dev.ethHead p j = none) → s.dev.ethHead p q = some r → s.dev.ethTimed q r = true →
    s.dev.ethLenOk q r = true → s.dev.launchLost (s.dev.qWord q r 1) = true → i < 16 →
    (∀ e, e ∈ (s.dev.eth.get p).slots → e.slot ≠ i) →
    ∃ t, exec (.launchSlotLoad p) s = .next t ∧ s.sameStore t ∧ (t.dev.eth.get p).slots = (s.dev.eth.get p).slots ∧
      wbit (t.dev.qWord q r 0) 31 = true ∧ wbit (t.dev.qWord q r 0) 29 = true ∧ t.dev.fc.raised 30 ∧
      t.dev.fld (Reg.LAUNCH_STAT p) Fld.LAUNCH_STAT_MISSED = min 255 (s.dev.fld (Reg.LAUNCH_STAT p) Fld.LAUNCH_STAT_MISSED + 1) ∧
      (t.dev.eth.get p).lastTx = (s.dev.eth.get p).lastTx ∧ s.dev.ringRegsBut t.dev [Reg.LAUNCH_STAT p]) ∧
  (∀ (s : State) (p : Port), s.awake → s.dev.flag (Reg.ETH_STAT p) Fld.ETH_STAT_LINK = true →
    ∃ t, exec (.ethLinkDown p) s = .next t ∧ s.sameStore t ∧ t.dev.flag (Reg.ETH_STAT p) Fld.ETH_STAT_LINK = false ∧
      t.dev.fld (Reg.ETH_CNT p) Fld.ETH_CNT_LINK_DOWN = min 255 (s.dev.fld (Reg.ETH_CNT p) Fld.ETH_CNT_LINK_DOWN + 1) ∧
      t.dev.fc.raised 31 ∧ t.dev = { s.dev with regs := t.dev.regs, fc := t.dev.fc } ∧
      s.dev.regsBut t.dev [Reg.ETH_STAT p, Reg.ETH_CNT p] ∧ s.dev.fc.pairsBut t.dev.fc [31]) ∧
  (∀ (s : State) (p : Port) (speed : BitVec 2), s.awake → speed ≠ 3 →
    ∃ t, exec (.ethLinkUp p speed) s = .next t ∧ s.sameStore t ∧ t.dev.flag (Reg.ETH_STAT p) Fld.ETH_STAT_LINK = true ∧
      t.dev.fld (Reg.ETH_STAT p) Fld.ETH_STAT_SPEED = speed.toNat ∧ t.dev = { s.dev with regs := t.dev.regs } ∧
      s.dev.regsBut t.dev [Reg.ETH_STAT p]) ∧
  (∀ (s : State) (p : Port) (i : Fin 4), s.awake → s.dev.fmUsed p i = true →
    ∃ t, exec (.fmTimeout p i) s = .next t ∧ s.sameStore t ∧ t.dev.fmUsed p i = false ∧
      (∀ w, w < 8 → t.dev.rd (Reg.FM_W0 p i + 4 * w) = 0) ∧
      (∀ j, j < 4 → j ≠ i.val → t.dev.fmUsed p j = s.dev.fmUsed p j) ∧
      (t.dev.flag (Reg.FM_STAT p) Fld.FM_STAT_BEST_VALID = true →
        t.dev.fmUsed p (t.dev.fld (Reg.FM_STAT p) Fld.FM_STAT_BEST) = true) ∧
      t.dev = { s.dev with regs := t.dev.regs, eth := t.dev.eth } ∧
      s.dev.regsBut t.dev (Reg.FM_STAT p :: (upTo 8).map (fun w => Reg.FM_W0 p i + 4 * w)))

/-! ### Field links (spec/15_host_links.md) -/

/-- Part of R216, R315, R316, R320 to R325: a CAN frame that passes the filters enters the receive queue with the stamp of its start, the
head entry leaves unless arbitration was lost, or is completed with ERR where its LEN does not fit it, errors raise the error counters,
bus-off raises CAN_BUSOFF and ends with AUTO_REC or RECOVER; a UART entry leaves whole and received characters close into entries of at
most a buffer; I2C GO starts one transaction, with the packet error code that PEC asks for, refused while one runs, whose end gives its
bytes and one result bit; a valid Dorlin frame replaces DL_UP whole and gives the bridges of its legs their temperature, one with an
error is counted alone, downward frames carry the next SEQ and the bytes of the last GO, and a silent link raises DL_LOST. The error
counters of CAN follow ISO 11898-1, which the spec only names (notes/assumptions/42.md). -/
def Obligations.FieldLinksCarryTheirFrames : Prop :=
  (∀ (s : State) (n : Fin 2) (id flags : W) (data : List Byte) (ago q : Nat), s.awake → s.dev.canOn n = true →
    wbit id 30 = false ∨ s.dev.flag (Reg.CAN_CFG n) Fld.CAN_CFG_FD = true → s.dev.canAccepts n id = true → q = 41 + 2 * n.val →
    2 ≤ s.dev.qLog q → s.dev.qFill q ≠ s.dev.qLen q → data.length ≤ s.dev.qBuf q → data.length ≤ 64 →
    ∃ t, exec (.canFrameRx n id flags data ago .frame) s = .next t ∧ s.sameStore t ∧
      t.dev.qPut q = (s.dev.qPut q + 1) % (2 * s.dev.qLen q) ∧
      Memory.readBytes t.dev.pool (s.dev.qData q (s.dev.qPut q)) data.length = data ∧ t.dev.qWord q (s.dev.qPut q) 1 = id ∧
      t.dev.qWord q (s.dev.qPut q) 2 = flags &&& 0x1800000F ∧
      t.dev.qWord q (s.dev.qPut q) 3 = natW (s.dev.stampAgo ago / 256) ∧
      bitsN (t.dev.qWord q (s.dev.qPut q) 0).toNat 23 16 = s.dev.stampAgo ago % 256 ∧
      t.dev = { s.dev with regs := t.dev.regs, pool := t.dev.pool, freeCount := t.dev.freeCount } ∧ s.dev.ringRegsBut t.dev []) ∧
  (∀ (s : State) (n : Fin 2) (id flags : W) (data : List Byte) (ago : Nat), s.awake →
    s.dev.canAccepts n id = false ∨ (wbit id 30 = true ∧ s.dev.flag (Reg.CAN_CFG n) Fld.CAN_CFG_FD = false) →
    ∃ t, exec (.canFrameRx n id flags data ago .frame) s = .next t ∧ s.sameStore t ∧ t.dev.pool = s.dev.pool ∧
      s.dev.regsBut t.dev [Reg.CAN_STAT n] ∧ t.dev = { s.dev with regs := t.dev.regs, freeCount := t.dev.freeCount }) ∧
  (∀ (s : State) (n : Fin 2) (id flags : W) (data : List Byte) (ago k : Nat) (r : CanRx), s.awake → s.dev.canOn n = true →
    (r = .error ∧ k = 1) ∨ (r = .dominant ∧ k = 8) →
    ∃ t, exec (.canFrameRx n id flags data ago r) s = .next t ∧ s.sameStore t ∧
      t.dev.fld (Reg.CAN_STAT n) Fld.CAN_STAT_REC = min 255 (s.dev.fld (Reg.CAN_STAT n) Fld.CAN_STAT_REC + k) ∧
      t.dev.flag (Reg.CAN_STAT n) Fld.CAN_STAT_PASSIVE = (decide (128 ≤ s.dev.fld (Reg.CAN_STAT n) Fld.CAN_STAT_TEC) ||
        decide (128 ≤ t.dev.fld (Reg.CAN_STAT n) Fld.CAN_STAT_REC)) ∧
      t.dev = { s.dev with regs := t.dev.regs } ∧ s.dev.regsBut t.dev [Reg.CAN_STAT n]) ∧
  (∀ (s : State) (n : Fin 2) (q : Nat), s.awake → s.dev.canOn n = true → q = 40 + 2 * n.val → s.dev.qHas q = true →
    s.dev.qLenOk q = true → s.dev.canEntryOk n = true →
    ∃ t, exec (.canFrameTx n .sent) s = .next t ∧ s.sameStore t ∧
      (Tbl.get (fun _ => ({} : CanPort)) t.dev.can n).lastTx =
        ([s.dev.qWord q (s.dev.qGet q) 0, s.dev.qWord q (s.dev.qGet q) 1, s.dev.qWord q (s.dev.qGet q) 2,
          s.dev.qWord q (s.dev.qGet q) 3], s.dev.qPayload q) ∧
      t.dev.qGet q = (s.dev.qGet q + 1) % (2 * s.dev.qLen q) ∧ wbit (t.dev.qWord q (s.dev.qGet q) 0) 31 = true ∧
      t.dev.fld (Reg.CAN_STAT n) Fld.CAN_STAT_TEC = s.dev.fld (Reg.CAN_STAT n) Fld.CAN_STAT_TEC - 1 ∧
      t.dev = { s.dev with regs := t.dev.regs, pool := t.dev.pool, can := t.dev.can } ∧ s.dev.ringRegsBut t.dev []) ∧
  (∀ (s : State) (n : Fin 2) (r : CanTx) (q : Nat), s.awake → s.dev.canOn n = true → q = 40 + 2 * n.val → s.dev.qHas q = true →
    s.dev.canEntryOk n = false →
    ∃ t, exec (.canFrameTx n r) s = .next t ∧ s.sameStore t ∧ t.dev.can = s.dev.can ∧
      t.dev.qGet q = (s.dev.qGet q + 1) % (2 * s.dev.qLen q) ∧ wbit (t.dev.qWord q (s.dev.qGet q) 0) 31 = true ∧
      wbit (t.dev.qWord q (s.dev.qGet q) 0) 30 = true ∧
      t.dev = { s.dev with regs := t.dev.regs, pool := t.dev.pool } ∧ s.dev.ringRegsBut t.dev []) ∧
  (∀ (s : State) (n : Fin 2), s.awake → s.dev.canEntryOk n = true → ∃ t, exec (.canFrameTx n .lost) s = .next t ∧ t = s) ∧
  (∀ (s : State) (n : Fin 2), s.awake → s.dev.canOn n = true → s.dev.qHas (40 + 2 * n.val) = true → s.dev.canEntryOk n = true →
    ∃ t, exec (.canFrameTx n .error) s = .next t ∧ s.sameStore t ∧
      (if s.dev.fld (Reg.CAN_STAT n) Fld.CAN_STAT_TEC < 248 then
        t.dev.fld (Reg.CAN_STAT n) Fld.CAN_STAT_TEC = s.dev.fld (Reg.CAN_STAT n) Fld.CAN_STAT_TEC + 8 ∧ t.dev.fc = s.dev.fc
      else t.dev.flag (Reg.CAN_STAT n) Fld.CAN_STAT_BUSOFF = true ∧ t.dev.fc.raised 43) ∧
      t.dev = { s.dev with regs := t.dev.regs, fc := t.dev.fc, freeCount := t.dev.freeCount } ∧
      s.dev.regsBut t.dev [Reg.CAN_STAT n] ∧ s.dev.fc.pairsBut t.dev.fc [43]) ∧
  (∀ (s : State) (n : Fin 2), s.awake → s.dev.canOn n = true →
    ∃ t, exec (.canBusOff n) s = .next t ∧ s.sameStore t ∧ t.dev.flag (Reg.CAN_STAT n) Fld.CAN_STAT_BUSOFF = true ∧
      t.dev.canOn n = false ∧ t.dev.fc.raised 43 ∧
      t.dev = { s.dev with regs := t.dev.regs, fc := t.dev.fc, freeCount := t.dev.freeCount } ∧
      s.dev.regsBut t.dev [Reg.CAN_STAT n] ∧ s.dev.fc.pairsBut t.dev.fc [43]) ∧
  (∀ (s : State) (n : Fin 2), s.awake → s.dev.flag (Reg.CAN_STAT n) Fld.CAN_STAT_BUSOFF = true →
    s.dev.flag (Reg.CAN_CFG n) Fld.CAN_CFG_AUTO_REC = true →
    ∃ t, exec (.canAutoRecover n) s = .next t ∧ s.sameStore t ∧ t.dev.flag (Reg.CAN_STAT n) Fld.CAN_STAT_BUSOFF = false ∧
      t.dev = { s.dev with regs := t.dev.regs } ∧ s.dev.regsBut t.dev [Reg.CAN_STAT n]) ∧
  (∀ (s : State) (n : Fin 2), s.ready → s.dev.flag (Reg.CAN_STAT n) Fld.CAN_STAT_BUSOFF = true →
    ∃ t, exec (.canCmdRecover n) s = .next t ∧ s.sameStore t ∧ t.dev.flag (Reg.CAN_STAT n) Fld.CAN_STAT_BUSOFF = false ∧
      t.dev = { s.dev.quiet with regs := t.dev.regs } ∧ s.dev.regsBut t.dev [Reg.CAN_STAT n]) ∧
  (∀ (s : State) (n : Fin 2) (q : Nat), s.awake → s.dev.flag (Reg.UART_CFG n) Fld.UART_CFG_EN = true →
    s.dev.flag (Reg.UART_STAT n) Fld.UART_STAT_LG_BUSY = false → q = 44 + 2 * n.val → s.dev.qHas q = true →
    s.dev.qLenOk q = true →
    ∃ t, exec (.uartTx n) s = .next t ∧ s.sameStore t ∧
      (Tbl.get (fun _ => ({} : UartPort)) t.dev.uart n).lastTx = s.dev.qPayload q ∧
      t.dev.qGet q = (s.dev.qGet q + 1) % (2 * s.dev.qLen q) ∧ wbit (t.dev.qWord q (s.dev.qGet q) 0) 31 = true ∧
      t.dev = { s.dev with regs := t.dev.regs, pool := t.dev.pool, uart := t.dev.uart } ∧ s.dev.ringRegsBut t.dev []) ∧
  (∀ (s : State) (n : Fin 2) (chars : List (Byte × Bool × Bool)) (cs : List (Byte × Bool × Bool)) (ago q m k : Nat), s.awake →
    s.dev.flag (Reg.UART_CFG n) Fld.UART_CFG_EN = true → chars ≠ [] → q = 45 + 2 * n.val → 2 ≤ s.dev.qLog q →
    cs = chars.map (fun c => (c.1, decide (s.dev.fld (Reg.UART_CFG n) Fld.UART_CFG_PARITY ≠ 0) && c.2.1, c.2.2)) →
    m = max 1 (s.dev.qBuf q) → k = (chars.length + m - 1) / m → s.dev.qFill q + k ≤ s.dev.qLen q → 1 ≤ s.dev.qBuf q → m < 65536 →
    ∃ t, exec (.uartRxClose n chars ago) s = .next t ∧ s.sameStore t ∧
      t.dev.qPut q = (s.dev.qPut q + k) % (2 * s.dev.qLen q) ∧
      t.dev.fld (Reg.UART_STAT n) Fld.UART_STAT_PAR_ERR =
        min 255 (s.dev.fld (Reg.UART_STAT n) Fld.UART_STAT_PAR_ERR + (cs.filter (·.2.1)).length) ∧
      t.dev.fld (Reg.UART_STAT n) Fld.UART_STAT_FRM_ERR =
        min 255 (s.dev.fld (Reg.UART_STAT n) Fld.UART_STAT_FRM_ERR + (cs.filter (·.2.2)).length) ∧
      (k = 1 → Memory.readBytes t.dev.pool (s.dev.qData q (s.dev.qPut q)) chars.length = chars.map (·.1) ∧
        wbit (t.dev.qWord q (s.dev.qPut q) 0) 30 = cs.any (fun c => c.2.1 || c.2.2) ∧
        t.dev.qWord q (s.dev.qPut q) 3 = natW (s.dev.stampAgo ago / 256)) ∧
      t.dev = { s.dev with regs := t.dev.regs, pool := t.dev.pool } ∧ s.dev.ringRegsBut t.dev []) ∧
  (∀ (s : State) (n : Fin 2) (v : W), s.ready → wbit v 31 = true → s.dev.flag (Reg.I2C_STAT n) Fld.I2C_STAT_BUSY = false →
    bitsN v.toNat 11 8 ≤ 8 → bitsN v.toNat 19 16 ≤ 8 →
    ∃ t, exec (.i2cGo n v) s = .next t ∧ s.sameStore t ∧ t.dev.flag (Reg.I2C_STAT n) Fld.I2C_STAT_BUSY = true ∧
      (Tbl.get (fun _ => ({} : I2cPort)) t.dev.i2c n).cmd = some (v, i2cOut v ((s.dev.i2cBytes n).take (bitsN v.toNat 11 8))) ∧
      t.dev = { s.dev.quiet with regs := t.dev.regs, i2c := t.dev.i2c } ∧ s.dev.regsBut t.dev [Reg.I2C_STAT n]) ∧
  (∀ (s : State) (n : Fin 2) (v : W), s.ready → wbit v 31 = true → s.dev.flag (Reg.I2C_STAT n) Fld.I2C_STAT_BUSY = true →
    ∃ t, exec (.i2cGo n v) s = .next t ∧ s.sameStore t ∧ t.dev.flag (Reg.I2C_STAT n) Fld.I2C_STAT_REF = true ∧
      t.dev = { s.dev.quiet with regs := t.dev.regs } ∧ s.dev.regsBut t.dev [Reg.I2C_STAT n]) ∧
  (∀ (s : State) (n : Fin 2) (r : I2cResult) (rd : List Byte) (v : W) (wr : List Byte), s.awake →
    (Tbl.get (fun _ => ({} : I2cPort)) s.dev.i2c n).cmd = some (v, wr) → bitsN v.toNat 19 16 ≤ 8 → bitsN v.toNat 19 16 ≤ rd.length →
    ∃ t, exec (.i2cDone n r rd) s = .next t ∧ s.sameStore t ∧ t.dev.flag (Reg.I2C_STAT n) Fld.I2C_STAT_BUSY = false ∧
      (Tbl.get (fun _ => ({} : I2cPort)) t.dev.i2c n).cmd = none ∧
      (wordBytes (t.dev.rd (Reg.I2C_RDATA n 0)) ++ wordBytes (t.dev.rd (Reg.I2C_RDATA n 1))).take (bitsN v.toNat 19 16) =
        rd.take (bitsN v.toNat 19 16) ∧
      (r = .done → t.dev.flag (Reg.I2C_STAT n) (if i2cPecBad v wr rd then Fld.I2C_STAT_PEC_ERR else Fld.I2C_STAT_DONE) = true) ∧
      (r = .nack → t.dev.flag (Reg.I2C_STAT n) Fld.I2C_STAT_NACK = true) ∧
      (r = .arb → t.dev.flag (Reg.I2C_STAT n) Fld.I2C_STAT_ARB = true) ∧
      (r = .timeout → t.dev.flag (Reg.I2C_STAT n) Fld.I2C_STAT_TIMEOUT = true) ∧
      t.dev = { s.dev with regs := t.dev.regs, i2c := t.dev.i2c } ∧
      s.dev.regsBut t.dev [Reg.I2C_STAT n, Reg.I2C_RDATA n 0, Reg.I2C_RDATA n 1]) ∧
  (∀ (s : State) (j : Fin 8) (frame : List Byte), s.awake → s.dev.flag (Reg.DL_CFG j) Fld.DL_CFG_EN = true →
    frame.length = 16 → frame.getD 0 0 = 0xBC →
    crc16 ((frame.drop 1).take 13) = (frame.getD 14 0).toNat * 256 + (frame.getD 15 0).toNat →
    ∃ t, exec (.dlFrameRx j frame false) s = .next t ∧ s.sameStore t ∧ t.dev.flag (Reg.DL_STAT j) Fld.DL_STAT_VALID = true ∧
      (upTo 4).flatMap (fun i => wordBytes (t.dev.rd (Reg.DL_UP j i))) = frame ∧ (t.dev.dl1 j).stamp = s.dev.up ∧
      (t.dev.dl1 j).lost = false ∧
      (∀ k, k ≠ j.val → t.dev.dl1 k = s.dev.dl1 k) ∧ s.dev.ringRegsBut t.dev [] ∧
      (∀ sc, sc.val ≠ j.val / 2 → t.dev.sc sc = s.dev.sc sc) ∧
      (∀ sc, sc.val = j.val / 2 →
        (s.dev.sc sc).regsBut (t.dev.sc sc) ([0, 1, 2, 3].flatMap (fun b => [Reg.BR_TMAX b, Reg.BR_STAT b])) ∧
        ∀ (b : Bridge) (legs : List (Fin 4)), ((s.dev.sc sc).bridges.get b).kind ≠ 0 → legs = (s.dev.sc sc).brLegs b →
          (∃ l, l ∈ legs ∧ 2 * sc.val + l.val / 2 = j.val) →
          (t.dev.sc sc).flag (Reg.BR_STAT b.val) Fld.BR_STAT_THERM_OK = true ∧
          ∃ l, l ∈ legs ∧ t.dev.flag (Reg.DL_STAT (2 * sc.val + l.val / 2)) Fld.DL_STAT_VALID = true ∧
            (t.dev.sc sc).rd (Reg.BR_TMAX b.val) = intW (t.dev.boardTemp sc l * 2 ^ 15) ∧
            ∀ m, m ∈ legs → t.dev.flag (Reg.DL_STAT (2 * sc.val + m.val / 2)) Fld.DL_STAT_VALID = true →
              t.dev.boardTemp sc m ≤ t.dev.boardTemp sc l)) ∧
  (∀ (s : State) (j : Fin 8) (frame : List Byte), s.awake → s.dev.flag (Reg.DL_CFG j) Fld.DL_CFG_EN = true →
    frame.length = 16 → frame.getD 0 0 = 0xBC →
    crc16 ((frame.drop 1).take 13) ≠ (frame.getD 14 0).toNat * 256 + (frame.getD 15 0).toNat →
    ∃ t, exec (.dlFrameRx j frame false) s = .next t ∧ s.sameStore t ∧
      t.dev.fld (Reg.DL_STAT j) Fld.DL_STAT_CRC_ERR = min 255 (s.dev.fld (Reg.DL_STAT j) Fld.DL_STAT_CRC_ERR + 1) ∧
      t.dev = { s.dev with regs := t.dev.regs } ∧ s.dev.regsBut t.dev [Reg.DL_STAT j]) ∧
  (∀ (s : State) (j : Fin 8), s.awake → s.dev.flag (Reg.DL_CFG j) Fld.DL_CFG_EN = true → (s.dev.dl1 j).seq < 16 →
    (s.dev.dl1 j).down.length = 12 →
    ∃ t, exec (.dlFrameTx j) s = .next t ∧ s.sameStore t ∧ (t.dev.dl1 j).lastDown.length = 16 ∧
      (t.dev.dl1 j).lastDown.take 2 = [0xBC, BitVec.ofNat 8 ((s.dev.dl1 j).seq * 16 + 1)] ∧
      ((t.dev.dl1 j).lastDown.drop 2).take 12 = (s.dev.dl1 j).down ∧ (t.dev.dl1 j).seq = ((s.dev.dl1 j).seq + 1) % 16 ∧
      (t.dev.dl1 j).down = (s.dev.dl1 j).down ∧ (∀ k, k ≠ j.val → t.dev.dl1 k = s.dev.dl1 k) ∧ t.dev = { s.dev with dl := t.dev.dl }) ∧
  (∀ (s : State) (j : Fin 8), s.awake → s.dev.flag (Reg.DL_CFG j) Fld.DL_CFG_EN = true → (s.dev.dl1 j).lost = false →
    ∃ t, exec (.dlLost j) s = .next t ∧ s.sameStore t ∧ t.dev.flag (Reg.DL_STAT j) Fld.DL_STAT_VALID = false ∧ t.dev.fc.raised 42 ∧
      (t.dev.dl1 j).lost = true ∧ (∀ k, k ≠ j.val → t.dev.dl1 k = s.dev.dl1 k) ∧
      t.dev = { s.dev with regs := t.dev.regs, fc := t.dev.fc, dl := t.dev.dl } ∧ s.dev.regsBut t.dev [Reg.DL_STAT j] ∧
      s.dev.fc.pairsBut t.dev.fc [42]) ∧
  (∀ (s : State) (j : Fin 8), s.ready →
    ∃ t, exec (.dlCmdGo j) s = .next t ∧ s.sameStore t ∧
      (t.dev.dl1 j).down = (upTo 3).flatMap (fun i => wordBytes (s.dev.rd (Reg.DL_DOWN j i))) ∧
      (t.dev.dl1 j).seq = (s.dev.dl1 j).seq ∧ t.dev = { s.dev.quiet with dl := t.dev.dl })

/-! ### Forerunner compatibility (spec/17_forerunner.md) -/

/-- Part of R356, R357, R360 to R369: a frame returns what the one before it left, read data is sampled with its RC fields cleared, and
until the section has reached READY reads give 0 and writes do nothing; a frame of another length gives 0 next and sets SPIERR. A
write of PRD, DT, OVR, OUTEN or CTRL commits all three legs with the force levels of R362, a CMPx write its leg alone, and with
LDMODE it also replaces the compare of the running period. RUN is accepted only with the fault register clear of trips and ESD, and
then enables the section and starts B0; RUN cleared stops B0; SWRST returns the forerunner's registers to reset and boots a STOPPED
section afresh; TRIPCFG gives each changed monitor its USE and restarts its filter; a FAULT write clears the port's own bits and the
latches of monitors whose trip has ended; a closed ADC window gives the eight rounded averages, marks them new and compares them
with the limits. That every CTRL write commits, and which of the monitors TRIPCFG restarts, are the model's reading
(notes/assumptions/74.md). -/
def Obligations.TheForerunnersPortServesItsFirmware : Prop :=
  (∀ (s : State) (k : Port) (addr : BitVec 7), s.portLive k →
    ∃ t, exec (.compatRead k addr) s = .next t ∧ s.sameStore t ∧ Dev.portOnly k s.dev t.dev ∧
      (t.dev.cp k).miso = (s.dev.cp k).reply ∧
      (t.dev.cp k).reply = natW (2 ^ 23 + addr.toNat * 2 ^ 16 + (s.dev.cp k).view (s.dev.sc k) addr.toNat % 65536) ∧
      (t.dev.cp k).fresh = (if addr = 0x0F then 0 else (s.dev.cp k).fresh) ∧
      (addr = 0x2D → (t.dev.cp k).tripEv = 0 ∧ (t.dev.cp k).spiEv = 0) ∧
      (t.dev.cp k).regs = (s.dev.cp k).regs ∧ (t.dev.cp k).run = (s.dev.cp k).run) ∧
  (∀ (s : State) (k : Port) (addr : BitVec 7), s.awake → s.dev.portCompat k.val = true → (s.dev.cp k).live = false →
    ∃ t, exec (.compatRead k addr) s = .next t ∧ s.sameStore t ∧ Dev.portOnly k s.dev t.dev ∧
      t.dev.cp k = { s.dev.cp k with miso := (s.dev.cp k).reply, reply := natW (2 ^ 23 + addr.toNat * 2 ^ 16) }) ∧
  (∀ (s : State) (k : Port) (addr : BitVec 7) (data : BitVec 16), s.awake → s.dev.portCompat k.val = true →
    (s.dev.cp k).live = false →
    ∃ t, exec (.compatWrite k addr data) s = .next t ∧ s.sameStore t ∧ Dev.portOnly k s.dev t.dev ∧
      t.dev.cp k = { s.dev.cp k with miso := (s.dev.cp k).reply, reply := natW (addr.toNat * 2 ^ 16) }) ∧
  (∀ (s : State) (k : Port), s.awake → s.dev.portCompat k.val = true →
    ∃ t, exec (.compatFrameError k) s = .next t ∧ s.sameStore t ∧ Dev.portOnly k s.dev t.dev ∧
      t.dev.cp k = { s.dev.cp k with
        miso := (s.dev.cp k).reply, reply := 0, spiErr := true, spiEv := min 255 ((s.dev.cp k).spiEv + 1) }) ∧
  (∀ (s : State) (k : Port) (addr : BitVec 7) (data : BitVec 16), s.awake → s.dev.portCompat k.val = false →
    exec (.compatRead k addr) s = .next s ∧ exec (.compatWrite k addr data) s = .next s ∧ exec (.compatFrameError k) s = .next s) ∧
  (∀ (s : State) (k : Port) (addr : BitVec 7) (data : BitVec 16) (a : Nat), s.portLive k → a = addr.toNat →
    a ∉ [0x01, 0x03, 0x04, 0x05, 0x06, 0x07, 0x09, 0x0A, 0x0B, 0x0D, 0x73] →
    ∃ t, exec (.compatWrite k addr data) s = .next t ∧ s.sameStore t ∧ Dev.portOnly k s.dev t.dev ∧
      (cpMask a ≠ 0 → (t.dev.cp k).rd a = Nat.land data.toNat (cpMask a)) ∧
      (cpMask a = 0 → (t.dev.cp k).rd a = (s.dev.cp k).rd a) ∧
      (∀ b, b < 128 → b ≠ a → (t.dev.cp k).rd b = (s.dev.cp k).rd b) ∧
      (t.dev.cp k).miso = (s.dev.cp k).reply ∧ (t.dev.cp k).reply = natW (a * 2 ^ 16)) ∧
  (∀ (s : State) (k : Port) (addr : BitVec 7) (data : BitVec 16) (a : Nat), s.portLive k → a = addr.toNat →
    a ∈ [0x03, 0x07, 0x09, 0x0A] ∨ (a = 0x01 ∧ Nat.testBit data.toNat 4 = false ∧ Nat.testBit data.toNat 0 = (s.dev.cp k).run ∧
      (s.dev.sc k).calm) →
    ∃ t, exec (.compatTimingWrite k addr data) s = .next t ∧ s.portWrote t k compatShadow ∧
      (t.dev.cp k).rd a = Nat.land data.toNat (cpMask a) ∧ (∀ b, b < 128 → b ≠ a → (t.dev.cp k).rd b = (s.dev.cp k).rd b) ∧
      (∀ l : Fin 4, l.val < 3 → (t.dev.sc k).portShows (t.dev.cp k) l ∧
        ((t.dev.sc k).lg l).pend = (if ((s.dev.sc k).lg l).run = true then some ((t.dev.sc k).shadow l) else ((s.dev.sc k).lg l).pend))) ∧
  (∀ (s : State) (k : Port) (x : Fin 3) (data : BitVec 16) (now : Nat) (m : Fin 4), s.portLive k → m.val = x.val →
    ∃ t, exec (.compatCmpWrite k x data now) s = .next t ∧ s.portWrote t k compatShadow ∧
      (t.dev.cp k).rd (0x04 + x.val) = data.toNat ∧ (t.dev.sc k).portShows (t.dev.cp k) m ∧
      ((t.dev.sc k).lg m).pend = (if ((s.dev.sc k).lg m).run = true then some ((t.dev.sc k).shadow m) else ((s.dev.sc k).lg m).pend) ∧
      (∀ l, l ≠ m → ((t.dev.sc k).lg l).pend = ((s.dev.sc k).lg l).pend ∧ ((t.dev.sc k).lg l).imm = ((s.dev.sc k).lg l).imm) ∧
      (if Nat.testBit ((s.dev.cp k).rd 0x01) 2 = true ∧ ((s.dev.sc k).lg m).run = true ∧ data ≠ 0 ∧
          data.toNat < (s.dev.cp k).rd 0x03 ∧ data.toNat < (s.dev.sc k).prd m then
        ∀ j, j < 4 → ((((t.dev.sc k).lg m).imm).getD []).getD (1 + j) 0 = natW (data.toNat * 128)
      else ((t.dev.sc k).lg m).imm = ((s.dev.sc k).lg m).imm)) ∧
  (∀ (s : State) (k : Port), s.portLive k → (s.dev.cp k).run = false → (s.dev.sc k).cpTrips = 0 →
    (s.dev.cp k).esdNow (s.dev.sc k) = false → (s.dev.sc k).calm → ((s.dev.sc k).bridges.get 0).kind ≠ 0 →
    ∃ t, exec (.compatRunStart k) s = .next t ∧ s.sameStore t ∧ (t.dev.cp k).run = true ∧ t.dev.secSt k = 4 ∧
      ((t.dev.sc k).ast.seq.get 0).cmds = ((s.dev.sc k).ast.seq.get 0).cmds ++ [1] ∧ s.dev.secsBut t.dev [k] ∧
      (s.dev.secSt k = 3 → s.dev.devState = 3 → t.dev.devState = 4)) ∧
  (∀ (s : State) (k : Port), s.portLive k → (s.dev.cp k).run = false →
    (s.dev.sc k).cpTrips ≠ 0 ∨ (s.dev.cp k).esdNow (s.dev.sc k) = true →
    ∃ t, exec (.compatRunStart k) s = .next t ∧ s.portWrote t k compatShadow ∧ (t.dev.cp k).run = false ∧
      t.dev.secSt k = s.dev.secSt k) ∧
  (∀ (s : State) (k : Port), s.portLive k → (s.dev.cp k).run = true → (s.dev.sc k).calm → ((s.dev.sc k).bridges.get 0).kind ≠ 0 →
    ∃ t, exec (.compatRunStop k) s = .next t ∧ s.portWrote t k compatShadow ∧ (t.dev.cp k).run = false ∧
      (t.dev.cp k).esd = (s.dev.cp k).esd ∧
      ((t.dev.sc k).ast.seq.get 0).cmds = ((s.dev.sc k).ast.seq.get 0).cmds ++ [2]) ∧
  (∀ (s : State) (k : Port), s.portLive k → s.dev.secSt k ≠ 6 →
    ∃ t, exec (.compatSwrst k) s = .next t ∧ s.sameStore t ∧ Dev.SectionOnly k s.dev t.dev ∧ (t.dev.cp k).run = false ∧
      (∀ a, a < 128 → (t.dev.cp k).rd a = (cpReset a).toNat) ∧ (t.dev.cp k).adcOvr = false ∧ (t.dev.cp k).spiErr = false ∧
      (t.dev.cp k).fresh = 0 ∧ t.dev.secSt k = s.dev.secSt k ∧
      (∀ l : Fin 4, (t.dev.sc k).latched l = (s.dev.sc k).latched l)) ∧
  (∀ (s : State) (k : Port), s.portLive k → s.dev.secSt k = 6 →
    ∃ t, exec (.compatSwrst k) s = .next t ∧ s.sameStore t ∧ (t.dev.cp k).run = false ∧ (t.dev.cp k).live = false ∧
      (∀ a, a < 128 → (t.dev.cp k).rd a = (cpReset a).toNat) ∧ t.dev.secSt k = 1 ∧ t.dev.crypto = s.dev.crypto ++ [k.val] ∧
      s.dev.secsBut t.dev [k]) ∧
  (∀ (s : State) (k : Port) (data : BitVec 16), s.portLive k →
    ∃ t, exec (.compatTripcfgWrite k data) s = .next t ∧ s.sameStore t ∧ Dev.SectionOnly k s.dev t.dev ∧
      (t.dev.cp k).rd 0x0D = data.toNat % 256 ∧
      (∀ n, n < 4 →
        if Nat.testBit ((s.dev.cp k).rd 0x0D) n = Nat.testBit data.toNat n ∧
            Nat.testBit ((s.dev.cp k).rd 0x0D) (4 + n) = Nat.testBit data.toNat (4 + n) then
          (t.dev.sc k).rd (Reg.WM_CFG n) = (s.dev.sc k).rd (Reg.WM_CFG n) ∧ (t.dev.sc k).rd (Reg.WM_LIVE n) = (s.dev.sc k).rd (Reg.WM_LIVE n)
        else
          (t.dev.sc k).fld (Reg.WM_CFG n) Fld.WM_CFG_USE =
            (if Nat.testBit data.toNat (4 + n) then (if Nat.testBit data.toNat n then 1 else 2) else 0) ∧
          (t.dev.sc k).rd (Reg.WM_LIVE n) = (if Nat.testBit data.toNat n then 0 else 0xA))) ∧
  (∀ (s : State) (k : Port) (data : BitVec 16), s.portLive k →
    ∃ t, exec (.compatFaultClear k data) s = .next t ∧ s.sameStore t ∧ Dev.SectionOnly k s.dev t.dev ∧
      (t.dev.cp k).spiErr = ((s.dev.cp k).spiErr && !Nat.testBit data.toNat 4) ∧
      (t.dev.cp k).adcOvr = ((s.dev.cp k).adcOvr && !Nat.testBit data.toNat 5) ∧
      (∀ n, n < 4 → Nat.testBit data.toNat n = true → wbit ((s.dev.sc k).rd Reg.WM_LATCH) (8 + n) = false →
        wbit ((t.dev.sc k).rd Reg.WM_LATCH) n = false) ∧
      (∀ n, n < 4 → Nat.testBit data.toNat n = false →
        wbit ((t.dev.sc k).rd Reg.WM_LATCH) n = wbit ((s.dev.sc k).rd Reg.WM_LATCH) n)) ∧
  (∀ (s : State) (k : Port) (smp : Samples), s.awake → s.dev.portCompat k.val = true → (s.dev.cp k).win = true →
    ∃ t, exec (.compatAdcResult k smp) s = .next t ∧ s.sameStore t ∧ Dev.portOnly k s.dev t.dev ∧ (t.dev.cp k).fresh = 0xFF ∧
      (t.dev.cp k).win = false ∧
      (∀ c, c < 8 → (t.dev.cp k).rd (0x10 + c) = uns 16 ((s.dev.sc k).cpAdc ((s.dev.cp k).rd (0x20 + c)) c
        (((smp.filter (fun e => decide (e.1.val = c))).flatMap (·.2)).take 32))) ∧
      ((t.dev.cp k).adcOvr = true ↔ (s.dev.cp k).adcOvr = true ∨
        ∃ c, c < 8 ∧ (s.dev.cp k).rd (0x18 + c) < ((s.dev.sc k).cpAdc ((s.dev.cp k).rd (0x20 + c)) c
          (((smp.filter (fun e => decide (e.1.val = c))).flatMap (·.2)).take 32)).natAbs)) ∧
  (∀ (s : State) (k : Port) (smp : Samples), s.awake → (s.dev.cp k).win = false →
    exec (.compatAdcResult k smp) s = .next s)

/-! ### Auxiliary supply (spec/18_aux_supply.md) -/

/-- Part of R372 to R380: RUN starts the converter from OFF and, cleared, takes it to OFF from any state with RETRY 0; the end of the ramp
leads to RUN or, below a quarter of the target, to HICCUP, and so do 64 limited periods in a row; each entry to HICCUP counts in
RETRY, and one that finds it at 8 enters LATCHED with AUX_SC, which CLR leaves. A current trip or DMAX turns its phase off; an
overvoltage turns every phase off and lets none start; two samples UTH below the target fire the undershoot response once in a
period, with ICMD at ILIM; a start of phase 0 runs the voltage loop. PER, PHASES and BLANK change only in OFF. Of a phase that
turned off since the last sample but one it is free whether 40 ns have passed, and VREF on its ramp is free in its rounding
(notes/assumptions/3.md). -/
def Obligations.TheAuxiliarySupplyRunsItsStatesAndPhases : Prop :=
  (∀ (s : State), s.ready → s.dev.devState ≠ 2 →
    ∃ t, exec .auxRunSet s = .next t ∧ s.sameStore t ∧ t.dev.flag Reg.AUX_CTRL Fld.AUX_CTRL_RUN = true ∧
      (s.dev.auxState = 0 → t.dev.auxState = 1 ∧ t.dev.fld Reg.AUX_STAT Fld.AUX_STAT_RETRY = 0 ∧ t.dev.aux.icmd = 0 ∧
        t.dev.aux.xi = 0 ∧ t.dev.aux.ramp = 0 ∧ t.dev.aux.on = 0) ∧
      (s.dev.auxState ≠ 0 → t.dev.auxState = s.dev.auxState ∧ t.dev.aux = s.dev.aux) ∧
      t.dev = { s.dev.quiet with regs := t.dev.regs, aux := t.dev.aux } ∧ s.dev.regsBut t.dev [Reg.AUX_STAT, Reg.AUX_CTRL]) ∧
  (∀ (s : State), s.ready →
    ∃ t, exec .auxRunClear s = .next t ∧ s.sameStore t ∧ t.dev.flag Reg.AUX_CTRL Fld.AUX_CTRL_RUN = false ∧ t.dev.auxState = 0 ∧
      t.dev.fld Reg.AUX_STAT Fld.AUX_STAT_RETRY = 0 ∧ t.dev.aux.on = 0 ∧
      (t.dev.fc.raised 32 ↔ s.dev.fc.raised 32 ∧ (s.dev.fc.pair 32).level = false) ∧ (t.dev.fc.raised 32 → (t.dev.fc.pair 32).pulse = true) ∧
      t.dev = { s.dev.quiet with regs := t.dev.regs, aux := t.dev.aux, fc := t.dev.fc } ∧
      s.dev.regsBut t.dev [Reg.AUX_STAT, Reg.AUX_CTRL] ∧ s.dev.fc.pairsBut t.dev.fc [32]) ∧
  (∀ (s : State) (v : W), s.ready → keyIs v 0x3CA5 = true → wbit v 0 = true → s.dev.auxState = 4 →
    ∃ t, exec (.auxClr v) s = .next t ∧ s.sameStore t ∧
      t.dev.auxState = (if s.dev.flag Reg.AUX_CTRL Fld.AUX_CTRL_RUN = true then 1 else 0) ∧
      t.dev.fld Reg.AUX_STAT Fld.AUX_STAT_RETRY = 0 ∧ t.dev.aux.on = 0 ∧
      (t.dev.fc.raised 32 ↔ s.dev.fc.raised 32 ∧ (s.dev.fc.pair 32).level = false) ∧ (t.dev.fc.raised 32 → (t.dev.fc.pair 32).pulse = true) ∧
      t.dev = { s.dev.quiet with regs := t.dev.regs, aux := t.dev.aux, fc := t.dev.fc } ∧ s.dev.regsBut t.dev [Reg.AUX_STAT] ∧
      s.dev.fc.pairsBut t.dev.fc [32]) ∧
  (∀ (s : State) (v : W), s.ready → keyIs v 0x3CA5 = false →
    ∃ t, exec (.auxClr v) s = .next t ∧ s.sameStore t ∧ t.dev.flag Reg.CMD_STAT Fld.CMD_STAT_BAD_KEY = true ∧
      t.dev = { s.dev.quiet with regs := t.dev.regs } ∧ s.dev.regsBut t.dev [Reg.CMD_STAT]) ∧
  (∀ (s : State), s.awake → s.dev.auxState = 1 → s.dev.aux.ramp = s.dev.auxGoal →
    s.dev.fld Reg.AUX_VREG Fld.AUX_VREG_VTGT ≤ 4 * s.dev.aux.code →
    ∃ t, exec .auxSoftstartEnd s = .next t ∧ s.sameStore t ∧ t.dev.auxState = 2 ∧
      t.dev = { s.dev with regs := t.dev.regs } ∧ s.dev.regsBut t.dev [Reg.AUX_STAT]) ∧
  (∀ (s : State), s.awake → s.dev.auxState = 1 → s.dev.aux.ramp = s.dev.auxGoal →
    4 * s.dev.aux.code < s.dev.fld Reg.AUX_VREG Fld.AUX_VREG_VTGT →
    ∃ t, exec .auxSoftstartEnd s = .next t ∧ s.auxHiccuped t) ∧
  (∀ (s : State), s.awake → s.dev.auxState = 1 ∨ s.dev.auxState = 2 → 64 ≤ s.dev.aux.limited + b2n s.dev.aux.lim →
    ∃ t, exec .auxHiccup s = .next t ∧ s.auxHiccuped t) ∧
  (∀ (s : State), s.awake → s.dev.auxState = 3 →
    ∃ t, exec .auxHiccupEnd s = .next t ∧ s.sameStore t ∧ t.dev.auxState = 1 ∧ t.dev.aux.ramp = 0 ∧
      t.dev.fld Reg.AUX_STAT Fld.AUX_STAT_RETRY = s.dev.fld Reg.AUX_STAT Fld.AUX_STAT_RETRY ∧
      t.dev = { s.dev with regs := t.dev.regs, aux := t.dev.aux } ∧ s.dev.regsBut t.dev [Reg.AUX_STAT]) ∧
  (∀ (s : State), s.awake → s.dev.auxState = 2 →
    ∃ t, exec .auxRetryReset s = .next t ∧ s.sameStore t ∧ t.dev.auxState = 2 ∧ t.dev.fld Reg.AUX_STAT Fld.AUX_STAT_RETRY = 0 ∧
      t.dev = { s.dev with regs := t.dev.regs } ∧ s.dev.regsBut t.dev [Reg.AUX_STAT]) ∧
  (∀ (s : State) (i : Fin 4), s.awake →
    (∃ t, exec (.auxCurrentTrip i) s = .next t ∧ s.phaseOff t i) ∧ (∃ t, exec (.auxMaxOn i) s = .next t ∧ s.phaseOff t i)) ∧
  (∀ (s : State) (high : Bool), s.awake →
    ∃ t, exec (.auxOvervoltage high) s = .next t ∧ s.sameStore t ∧ t.dev.flag Reg.AUX_STAT Fld.AUX_STAT_OV = high ∧
      t.dev.auxState = s.dev.auxState ∧
      (high = true → s.dev.flag Reg.AUX_STAT Fld.AUX_STAT_OV = false → t.dev.aux.on = 0 ∧
        t.dev.fld Reg.AUX_EVCNT Fld.AUX_EVCNT_OV = min 255 (s.dev.fld Reg.AUX_EVCNT Fld.AUX_EVCNT_OV + 1)) ∧
      (high = false ∨ s.dev.flag Reg.AUX_STAT Fld.AUX_STAT_OV = true → t.dev.aux = s.dev.aux ∧ s.dev.regsBut t.dev [Reg.AUX_STAT]) ∧
      t.dev = { s.dev with regs := t.dev.regs, aux := { s.dev.aux with on := t.dev.aux.on, off0 := t.dev.aux.off0 } } ∧
      s.dev.regsBut t.dev [Reg.AUX_STAT, Reg.AUX_EVCNT]) ∧
  (∀ (s : State), s.awake → s.dev.auxState = 2 → s.dev.flag Reg.AUX_STAT Fld.AUX_STAT_OV = false →
    s.dev.fld Reg.AUX_PROT Fld.AUX_PROT_UTH ≠ 0 → s.dev.aux.burst = false → 2 ≤ s.dev.aux.lows →
    ∃ t, exec .auxUndershoot s = .next t ∧ s.sameStore t ∧ t.dev.aux.burst = true ∧
      t.dev.aux.icmd = (s.dev.fld Reg.AUX_CUR Fld.AUX_CUR_ILIM : Int) * 65536 ∧
      (∀ j, j < 4 → j ≤ s.dev.fld Reg.AUX_CFG Fld.AUX_CFG_PHASES → (s.dev.aux.off0 ||| s.dev.aux.off1).getLsbD j = false →
        t.dev.aux.on.getLsbD j = true) ∧
      (∀ j, j < 4 → s.dev.aux.on.getLsbD j = true ∨ s.dev.fld Reg.AUX_CFG Fld.AUX_CFG_PHASES < j →
        t.dev.aux.on.getLsbD j = s.dev.aux.on.getLsbD j) ∧
      t.dev.fld Reg.AUX_EVCNT Fld.AUX_EVCNT_BURST = min 255 (s.dev.fld Reg.AUX_EVCNT Fld.AUX_EVCNT_BURST + 1) ∧
      t.dev = { s.dev with regs := t.dev.regs, aux := t.dev.aux, freeCount := t.dev.freeCount } ∧
      s.dev.regsBut t.dev [Reg.AUX_EVCNT]) ∧
  (∀ (s : State), s.awake → s.dev.auxState ≠ 2 ∨ s.dev.fld Reg.AUX_PROT Fld.AUX_PROT_UTH = 0 ∨ s.dev.aux.burst = true ∨
      s.dev.aux.lows < 2 →
    exec .auxUndershoot s = .next s) ∧
  (∀ (s : State), s.awake → s.dev.auxState = 2 → s.dev.flag Reg.AUX_STAT Fld.AUX_STAT_UV = true →
    ∃ t, exec .auxUvTimeout s = .next t ∧ s.sameStore t ∧ t.dev.fc.raised 33 ∧
      t.dev.fld Reg.AUX_EVCNT Fld.AUX_EVCNT_UV = min 255 (s.dev.fld Reg.AUX_EVCNT Fld.AUX_EVCNT_UV + 1) ∧
      t.dev = { s.dev with regs := t.dev.regs, fc := t.dev.fc } ∧ s.dev.regsBut t.dev [Reg.AUX_EVCNT] ∧
      s.dev.fc.pairsBut t.dev.fc [33]) ∧
  (∀ (s : State) (i : Fin 4) (code : BitVec 12) (cs : List (BitVec 12)) (temp : BitVec 16), s.awake → s.dev.locked 0 = true →
    s.dev.auxState = 1 ∨ s.dev.auxState = 2 → i.val ≤ s.dev.fld Reg.AUX_CFG Fld.AUX_CFG_PHASES → i ≠ 0 →
    s.dev.aux.per = true →
    ∃ t, exec (.auxPhaseStart i code cs temp) s = .next t ∧ s.sameStore t ∧ t.dev.aux.code = code.toNat ∧
      t.dev.aux.lows = (if s.dev.auxState = 2 ∧ (code.toNat : Int) + s.dev.fld Reg.AUX_PROT Fld.AUX_PROT_UTH ≤ s.dev.auxVref then
        min 2 (s.dev.aux.lows + 1) else 0) ∧ t.dev.aux.icmd = s.dev.aux.icmd ∧ t.dev.auxState = s.dev.auxState ∧
      t.dev.flag Reg.AUX_STAT Fld.AUX_STAT_UV = decide (code.toNat < s.dev.fld Reg.AUX_UVCFG Fld.AUX_UVCFG_UV_TH) ∧
      t.dev.flag Reg.AUX_STAT Fld.AUX_STAT_OV = decide (s.dev.fld Reg.AUX_PROT Fld.AUX_PROT_OV_TH < code.toNat) ∧
      (if s.dev.fld Reg.AUX_PROT Fld.AUX_PROT_OV_TH < code.toNat then
        s.dev.flag Reg.AUX_STAT Fld.AUX_STAT_OV = false → t.dev.aux.on = 0
      else ∀ j, j < 4 → t.dev.aux.on.getLsbD j = (s.dev.aux.on.getLsbD j || decide (j = i.val))) ∧
      t.dev = { s.dev with regs := t.dev.regs, aux := t.dev.aux } ∧ s.dev.regsBut t.dev [Reg.AUX_STAT, Reg.AUX_EVCNT]) ∧
  (∀ (s : State) (code : BitVec 12) (cs : List (BitVec 12)) (temp : BitVec 16) (lim e xi : Int), s.awake → s.dev.locked 0 = true →
    s.dev.auxState = 2 → s.dev.fld Reg.AUX_VREG Fld.AUX_VREG_TSS ≠ 0 → s.dev.aux.ramp = s.dev.auxGoal →
    lim = (s.dev.fld Reg.AUX_CUR Fld.AUX_CUR_ILIM : Int) * 65536 → s.dev.aux.limited + b2n s.dev.aux.lim < 64 → code.toNat ≤ s.dev.fld Reg.AUX_PROT Fld.AUX_PROT_OV_TH →
    e = (s.dev.fld Reg.AUX_VREG Fld.AUX_VREG_VTGT : Int) - code.toNat →
    xi = (if s.dev.aux.icmd < lim ∨ e < 0 then max 0 (min lim (s.dev.aux.xi + s.dev.fld Reg.AUX_LOOP Fld.AUX_LOOP_KI * e))
      else s.dev.aux.xi) →
    ∃ t, exec (.auxPhaseStart 0 code cs temp) s = .next t ∧ s.sameStore t ∧ t.dev.auxState = 2 ∧ t.dev.aux.xi = min xi lim ∧
      t.dev.aux.icmd = max 0 (min lim (s.dev.fld Reg.AUX_LOOP Fld.AUX_LOOP_KP * 256 * e + xi)) ∧
      t.dev.aux.limited = (if s.dev.aux.lim = true then s.dev.aux.limited + 1 else 0) ∧
      t.dev.aux.lim = decide (t.dev.aux.icmd = lim) ∧ t.dev.aux.per = true ∧ t.dev.aux.burst = false ∧
      t.dev.aux.on.getLsbD 0 = true ∧ t.dev.aux.fired = 1 ∧
      (s.dev.aux.per = true → t.dev.flag Reg.AUX_STAT Fld.AUX_STAT_OT = decide (sgn 16 (s.dev.fld Reg.AUX_TCFG Fld.AUX_TCFG_OT_TH) < temp.toInt)) ∧
      (s.dev.aux.per = true → s.dev.fld Reg.AUX_TCFG Fld.AUX_TCFG_AVG = 0 →
        code.toNat * (s.dev.rd Reg.AUX_VSCALE).toNat / 65536 ≤ (t.dev.rd Reg.AUX_VOUT).toNat ∧
        (t.dev.rd Reg.AUX_VOUT).toNat ≤ code.toNat * (s.dev.rd Reg.AUX_VSCALE).toNat / 65536 + 1) ∧
      t.dev = { s.dev with regs := t.dev.regs, aux := t.dev.aux, fc := t.dev.fc, freeCount := t.dev.freeCount } ∧
      s.dev.regsBut t.dev [Reg.AUX_STAT, Reg.AUX_VOUT, Reg.AUX_IOUT, Reg.AUX_POUT, Reg.AUX_TEMP, Reg.AUX_PK0, Reg.AUX_PK1,
        Reg.AUX_PK2] ∧ s.dev.fc.pairsBut t.dev.fc [34]) ∧
  (∀ (s : State) (v : W), s.ready → s.dev.auxState ≠ 0 → s.dev.rwpOpen Reg.AUX_CFG = true → v &&& 0x30FF0FFF ≠ s.dev.rd Reg.AUX_CFG &&& 0x30FF0FFF →
    ∃ t, exec (.registerWrite (natW Reg.AUX_CFG) v) s = .next t ∧ s.sameStore t ∧
      t.dev.flag Reg.AUX_STAT Fld.AUX_STAT_CFG_REF = true ∧ t.dev.rd Reg.AUX_CFG = s.dev.rd Reg.AUX_CFG ∧
      t.dev = { s.dev.quiet with regs := t.dev.regs } ∧ s.dev.regsBut t.dev [Reg.AUX_STAT])

/-! ### The keep domain (spec/19_keep.md) -/

/-- Part of R381 to R395, R430: the domain takes VDDIO33 from 3.10 V, else the store from 2.00 V, back from the cell only above 2.20 V; every
second the voltages are taken and the RTC counts; the waiting burst of the highest priority is admitted from the main supply, or
from the store where E_avail covers E_need times MARGIN / 16, and otherwise refused, of which its requester learns; a commit writes
the copy not in force with SEQ one up, so that a reader then finds its payload; PFAIL latches, hands over the last-gasp record,
stops the sections and holds the device; a transmission ends the entry that UART1 sends (R322); alarm, a write of RTC_SEC and the MPPSET read have their effects, an old object is
rewritten into its other copy, and keep power-on starts the domain anew. That a waiting older metering record gives way to the
last-gasp record is the model's reading (notes/assumptions/75.md). -/
def Obligations.TheKeepDomainMeasuresCommitsAndFails : Prop :=
  (∀ (s : State) (main store vbat : Nat) (bat : Bool),
    bat = (decide (main < 3100) &&
      (if s.dev.flag Reg.KEEP_STAT Fld.KEEP_STAT_ON_VBAT = true then decide (store ≤ 2200) else decide (store < 2000))) →
    ∃ t, exec (.keepSupplyChange main store vbat) s = .next t ∧ s.sameStore t ∧
      t.dev.flag Reg.KEEP_STAT Fld.KEEP_STAT_MAIN_OK = decide (3100 ≤ main) ∧
      t.dev.flag Reg.KEEP_STAT Fld.KEEP_STAT_ON_VBAT = bat ∧
      t.dev.flag Reg.KEEP_STAT Fld.KEEP_STAT_ON_STORE = (decide (main < 3100) && !bat) ∧
      t.dev.fld Reg.KEEP_EVCNT Fld.KEEP_EVCNT_VBAT_SW =
        (if bat = true ∧ s.dev.flag Reg.KEEP_STAT Fld.KEEP_STAT_ON_VBAT = false then
          min 255 (s.dev.fld Reg.KEEP_EVCNT Fld.KEEP_EVCNT_VBAT_SW + 1) else s.dev.fld Reg.KEEP_EVCNT Fld.KEEP_EVCNT_VBAT_SW) ∧
      t.dev = { s.dev.quiet with regs := t.dev.regs } ∧ s.dev.regsBut t.dev [Reg.KEEP_STAT, Reg.KEEP_EVCNT]) ∧
  (∀ (s : State) (store vbat hv0 hv1 : Nat), store < 65536 → vbat < 65536 → hv0 < 65536 → hv1 < 65536 →
    ∃ t, exec (.keepMeasure store vbat hv0 hv1) s = .next t ∧ s.sameStore t ∧
      t.dev.fld Reg.KEEP_VSTORE Fld.KEEP_VSTORE_VSTORE = store ∧ t.dev.fld Reg.KEEP_VSTORE Fld.KEEP_VSTORE_VBAT = vbat ∧
      t.dev.fld Reg.KEEP_VHV Fld.KEEP_VHV_HV0 = hv0 ∧ t.dev.fld Reg.KEEP_VHV Fld.KEEP_VHV_HV1 = hv1 ∧
      t.dev.flag Reg.KEEP_STAT Fld.KEEP_STAT_MEAS_OK = decide (s.dev.fld Reg.KEEP_TH Fld.KEEP_TH_VTH_MEAS ≤ store) ∧
      t.dev.flag Reg.KEEP_STAT Fld.KEEP_STAT_TX_OK = decide (s.dev.fld Reg.KEEP_TH Fld.KEEP_TH_VTH_TX ≤ store) ∧
      (s.dev.fld Reg.RTC_TRIM Fld.RTC_TRIM_TRIM = 0 → s.dev.keep.trim = 0 →
        t.dev.rd Reg.RTC_SEC = s.dev.rd Reg.RTC_SEC + 1 ∧ t.dev.fld Reg.RTC_SUB Fld.RTC_SUB_SUB = s.dev.fld Reg.RTC_SUB Fld.RTC_SUB_SUB) ∧
      (vbat < 2200 → s.dev.held = false → t.dev.fc.raised 37) ∧ (2200 ≤ vbat → t.dev.fc = s.dev.fc) ∧
      (store < 5100 → t.dev.keep.full = false) ∧ (5355 ≤ store → t.dev.keep.full = true) ∧
      (5100 ≤ store → store < 5145 → t.dev.keep.full = s.dev.keep.full) ∧
      t.dev = { s.dev.quiet with
        regs := t.dev.regs, fc := t.dev.fc, freeCount := t.dev.freeCount
        keep := { s.dev.keep with trim := t.dev.keep.trim, full := t.dev.keep.full } } ∧
      s.dev.regsBut t.dev [Reg.KEEP_VSTORE, Reg.KEEP_VHV, Reg.KEEP_STAT, Reg.RTC_SEC, Reg.RTC_SUB] ∧
      s.dev.fc.pairsBut t.dev.fc [37]) ∧
  (∀ (s : State) (store vbat hv0 hv1 : Nat) (l r : List Burst) (b : Burst) (need : Nat) (main : Bool),
    s.dev.keep.running = none → s.dev.keep.waiting = l ++ b :: r → (∀ x ∈ l, b.rank < x.rank) → (∀ x ∈ r, b.rank ≤ x.rank) →
    1 ≤ b.kind → b.kind ≤ 5 → main = s.dev.flag Reg.KEEP_STAT Fld.KEEP_STAT_MAIN_OK →
    need = (if b.kind = 5 then ((s.dev.gaspBytes s.nv).length * charBits s.dev.keep.pfUart + 2) * s.dev.fld Reg.LG_EBIT Fld.LG_EBIT_EBIT
      else 8000 + 10 * (feObject b.kind).2.2) →
    need < 2 ^ 24 →
    main = true ∨ (s.dev.fld Reg.KEEP_CFG Fld.KEEP_CFG_CAP ≠ 0 ∧
      (need : Int) * s.dev.fld Reg.KEEP_CFG Fld.KEEP_CFG_MARGIN * 2000 ≤
        s.dev.fld Reg.KEEP_CFG Fld.KEEP_CFG_CAP * ((store : Int) * store - 3240000) * 16) →
    ∃ t, exec (.burstStart store vbat hv0 hv1) s = .next t ∧ s.sameStore t ∧ t.dev.keep.running = some b ∧
      t.dev.keep.waiting = l ++ r ∧ t.dev.flag Reg.KEEP_STAT Fld.KEEP_STAT_BUSY = true ∧
      t.dev.fld Reg.KEEP_BURST Fld.KEEP_BURST_KIND = b.kind ∧ t.dev.flag Reg.KEEP_BURST Fld.KEEP_BURST_ADMITTED = true ∧
      t.dev.flag Reg.KEEP_BURST Fld.KEEP_BURST_MAIN = main ∧ t.dev.fld Reg.KEEP_BURST Fld.KEEP_BURST_NEED = need ∧
      (b.kind = 5 → s.dev.held = false → t.dev.flag (Reg.UART_STAT 1) Fld.UART_STAT_LG_BUSY = true) ∧
      (if b.kind = 5 ∧ s.dev.held = false ∧ s.dev.flag (Reg.UART_CFG 1) Fld.UART_CFG_EN = true ∧
          s.dev.flag (Reg.UART_STAT 1) Fld.UART_STAT_LG_BUSY = false ∧ s.dev.qHas 46 = true then
        t.dev.qWord 46 (s.dev.qGet 46) 0 = s.dev.qWord 46 (s.dev.qGet 46) 0 ||| 0xC0000000 ∧
          t.dev.qGet 46 = (s.dev.qGet 46 + 1) % (2 * s.dev.qLen 46) ∧
          (Tbl.get (fun _ => ({} : UartPort)) t.dev.uart 1).lastTx <+: s.dev.qPayload 46
        else t.dev.uart = s.dev.uart ∧ t.dev.pool = s.dev.pool ∧ ∀ a, queueReg a = true → t.dev.rd a = s.dev.rd a) ∧
      t.dev = { s.dev.quiet with
        regs := t.dev.regs, fc := t.dev.fc, keep := t.dev.keep, freeCount := t.dev.freeCount, uart := t.dev.uart, pool := t.dev.pool } ∧
      s.dev.ringRegsBut t.dev [Reg.KEEP_VSTORE, Reg.KEEP_VHV, Reg.KEEP_STAT, Reg.KEEP_BURST, Reg.KEEP_AVAIL, Reg.UART_STAT 1] ∧
      s.dev.fc.pairsBut t.dev.fc [37]) ∧
  (∀ (s : State) (store vbat hv0 hv1 : Nat) (l r : List Burst) (b : Burst) (need : Nat),
    s.dev.keep.running = none → s.dev.keep.waiting = l ++ b :: r → (∀ x ∈ l, b.rank < x.rank) → (∀ x ∈ r, b.rank ≤ x.rank) →
    1 ≤ b.kind → b.kind ≤ 5 → s.dev.flag Reg.KEEP_STAT Fld.KEEP_STAT_MAIN_OK = false →
    need = (if b.kind = 5 then ((s.dev.gaspBytes s.nv).length * charBits s.dev.keep.pfUart + 2) * s.dev.fld Reg.LG_EBIT Fld.LG_EBIT_EBIT
      else 8000 + 10 * (feObject b.kind).2.2) →
    s.dev.fld Reg.KEEP_CFG Fld.KEEP_CFG_CAP = 0 ∨
      s.dev.fld Reg.KEEP_CFG Fld.KEEP_CFG_CAP * ((store : Int) * store - 3240000) * 16 <
        (need : Int) * s.dev.fld Reg.KEEP_CFG Fld.KEEP_CFG_MARGIN * 2000 →
    ∃ t, exec (.burstStart store vbat hv0 hv1) s = .next t ∧ s.sameStore t ∧ t.dev.keep.running = none ∧
      (∀ x, x ∈ t.dev.keep.waiting → x ∈ l ++ r ∨ x = ⟨5, false, []⟩) ∧
      t.dev.flag Reg.KEEP_STAT Fld.KEEP_STAT_BURST_REFUSED = true ∧ t.dev.flag Reg.KEEP_BURST Fld.KEEP_BURST_ADMITTED = false ∧
      t.dev.fld Reg.KEEP_BURST Fld.KEEP_BURST_KIND = b.kind ∧
      t.dev.fld Reg.KEEP_EVCNT Fld.KEEP_EVCNT_REFUSED = min 255 (s.dev.fld Reg.KEEP_EVCNT Fld.KEEP_EVCNT_REFUSED + 1) ∧
      (s.dev.held = false → t.dev.fc.raised 35) ∧
      (s.dev.held = false → b.refresh = false → b.kind = 1 ∨ b.kind = 4 →
        t.dev.flag Reg.MET_STAT Fld.MET_STAT_SAVE_ERR = true ∧ t.dev.fc.raised 25) ∧
      (b.refresh = false → b.kind = 1 → s.dev.flag Reg.LG_CFG Fld.LG_CFG_EN = true → ⟨5, false, []⟩ ∈ t.dev.keep.waiting) ∧
      (b.refresh = false → b.kind = 2 → s.dev.rpt = 1 → t.dev.fld Reg.RPT_STAT Fld.RPT_STAT_ERR = 2) ∧
      (b.refresh = false → b.kind = 5 → t.dev.flag Reg.LG_STAT Fld.LG_STAT_REFUSED = true) ∧
      t.dev = { s.dev.quiet with regs := t.dev.regs, fc := t.dev.fc, keep := t.dev.keep, freeCount := t.dev.freeCount, rpt := t.dev.rpt }) ∧
  (∀ (s : State) (b : Burst), s.dev.keep.running = some b → 1 ≤ b.kind → b.kind ≤ 4 → s.nv.wf = true →
    b.payload.length = (feObject b.kind).2.2 - 8 →
    (feNewest s.nv b.kind).all (fun e => decide (e.2 < 2 ^ 32 - 1)) = true →
    ∃ t, exec .burstDone s = .next t ∧ t.pending = s.pending ∧ t.dev.keep.running = none ∧
      t.dev.flag Reg.KEEP_STAT Fld.KEEP_STAT_BUSY = false ∧ fePayload t.nv b.kind = some b.payload ∧
      ((feNewest t.nv b.kind).map (·.2)) = some (((feNewest s.nv b.kind).map (·.2)).getD 0 + 1) ∧
      t.nv = { s.nv with feram := t.nv.feram } ∧
      ((feNewest s.nv b.kind).all (fun e => decide (Memory.readBytes t.nv.feram e.1 (feObject b.kind).2.2 =
        Memory.readBytes s.nv.feram e.1 (feObject b.kind).2.2)) = true) ∧
      (b.kind = 1 ∨ b.kind = 4 → s.dev.held = false →
        (t.dev.rd Reg.MET_SAVE).toNat = ((feNewest s.nv b.kind).map (·.2)).getD 0 + 1) ∧
      (b.kind = 1 → s.dev.flag Reg.LG_CFG Fld.LG_CFG_EN = true → ⟨5, false, []⟩ ∈ t.dev.keep.waiting) ∧
      t.dev = { s.dev.quiet with regs := t.dev.regs, keep := t.dev.keep, rpt := t.dev.rpt } ∧
      s.dev.regsBut t.dev [Reg.KEEP_STAT, Reg.MET_SAVE]) ∧
  (∀ (s : State) (b : Burst), s.dev.keep.running = some b → b.kind = 5 →
    ∃ t, exec .burstDone s = .next t ∧ s.sameStore t ∧ t.dev.keep.running = none ∧
      t.dev.flag Reg.LG_STAT Fld.LG_STAT_SENT = true ∧ t.dev.keep.lastTx = s.dev.gaspBytes s.nv ∧
      (s.dev.held = false → t.dev.flag (Reg.UART_STAT 1) Fld.UART_STAT_LG_BUSY = false) ∧
      t.dev = { s.dev.quiet with regs := t.dev.regs, keep := t.dev.keep } ∧
      s.dev.regsBut t.dev [Reg.KEEP_STAT, Reg.LG_STAT, Reg.UART_STAT 1]) ∧
  (∀ (s : State), s.awake → s.dev.fld Reg.MET_STAT Fld.MET_STAT_RESTORE ≠ 3 →
    ∃ t, exec .pfail s = .next t ∧ t.pending = s.pending ∧ t.dev.flag Reg.KEEP_STAT Fld.KEEP_STAT_PFAIL = true ∧
      t.dev.fld Reg.KEEP_EVCNT Fld.KEEP_EVCNT_PFAIL = min 255 (s.dev.fld Reg.KEEP_EVCNT Fld.KEEP_EVCNT_PFAIL + 1) ∧
      t.dev.keep.hold = true ∧ t.dev.keep.pfRtc = s.dev.rd Reg.RTC_SEC ∧
      (t.dev.keep.waiting.getLast?.map (fun b => (b.kind, b.refresh))) = some (1, false) ∧
      (t.dev.keep.waiting.all (fun b => b.kind != 4)) = true ∧
      (if (s.dev.keep.running.map Burst.rank) = some 4 then t.dev.keep.running = none ∧ t.dev.fc.raised 25 ∧
          t.dev.flag Reg.MET_STAT Fld.MET_STAT_SAVE_ERR = true
        else t.dev.keep.running = s.dev.keep.running ∧ t.nv = s.nv) ∧
      (∀ sc, t.dev.secSt sc =
        (if s.dev.secSt sc = 3 ∨ s.dev.secSt sc = 4 ∨ s.dev.secSt sc = 7 then 5 else s.dev.secSt sc)) ∧
      t.nv.fuses = s.nv.fuses ∧ t.nv.mram = s.nv.mram ∧ t.nv.keys = s.nv.keys) ∧
  (∀ (s : State) (v : W), s.ready →
    ∃ t, exec (.rtcSecWrite v) s = .next t ∧ s.sameStore t ∧ t.dev.rd Reg.RTC_SEC = v ∧
      t.dev.fld Reg.RTC_SUB Fld.RTC_SUB_SUB = 0 ∧ t.dev = { s.dev.quiet with regs := t.dev.regs } ∧
      s.dev.regsBut t.dev [Reg.RTC_SEC, Reg.RTC_SUB]) ∧
  (∀ (s : State), s.dev.rd Reg.RTC_SEC = s.dev.rd Reg.RTC_ALARM →
    ∃ t, exec .rtcAlarm s = .next t ∧ s.sameStore t ∧ t.dev.flag Reg.KEEP_STAT Fld.KEEP_STAT_WAKE = true ∧
      t.dev = { s.dev.quiet with regs := t.dev.regs } ∧ s.dev.regsBut t.dev [Reg.KEEP_STAT]) ∧
  (∀ (s : State) (n : Fin 2) (ohms : Nat),
    ∃ t, exec (.mppsetRead n ohms) s = .next t ∧ s.sameStore t ∧
      t.dev.keep = { s.dev.keep with
        vop := (if n = 0 then (5 * 10 * ohms, s.dev.keep.vop.2) else (s.dev.keep.vop.1, 5 * 10 * ohms)) } ∧
      t.dev = { s.dev.quiet with keep := t.dev.keep }) ∧
  (∀ (s : State) (obj : Fin 3) (kind : Nat) (p : List Byte), s.dev.flag Reg.KEEP_STAT Fld.KEEP_STAT_MAIN_OK = true →
    kind = (if obj = 0 then 4 else if obj = 1 then 2 else 3) → fePayload s.nv kind = some p →
    (s.dev.keep.waiting ++ s.dev.keep.running.toList).all (fun b => b.kind == 5 || decide (feObject b.kind ≠ feObject kind)) = true →
    ∃ t, exec (.feramRefresh obj) s = .next t ∧ s.sameStore t ∧
      t.dev.keep = { s.dev.keep with waiting := s.dev.keep.waiting ++ [⟨kind, true, p⟩] } ∧
      t.dev = { s.dev.quiet with keep := t.dev.keep }) ∧
  (∀ (s : State), s.dev.keep.running = none →
    ∃ t, exec .keepPowerOn s = .next t ∧ s.sameStore t ∧ (∀ a, a / 0x10000 = 9 → t.dev.rd a = devReset a) ∧
      (∀ a, a / 0x10000 ≠ 9 → t.dev.rd a = s.dev.rd a) ∧ t.dev.keep = { hist := safeEntries s.nv } ∧
      t.dev = { s.dev.quiet with regs := t.dev.regs, keep := t.dev.keep })

/-- R395: an enabled tamper loop found open sets its TAMP_STAT bit, records RTC_SEC in TAMP_TIME and counts, on every supply; it
raises KEEP_TAMPER at once where SYS runs, and where the device is held in reset, at the release. -/
def Obligations.TamperIsRecordedOnEverySupply : Prop :=
  (∀ (s : State) (n : Fin 2), wbit (s.dev.rd Reg.TAMP_CFG) n.val = true →
    ∃ t, exec (.tamper n) s = .next t ∧ s.sameStore t ∧ wbit (t.dev.rd Reg.TAMP_STAT) n.val = true ∧
      t.dev.rd Reg.TAMP_TIME = s.dev.rd Reg.RTC_SEC ∧ t.dev.flag Reg.KEEP_STAT Fld.KEEP_STAT_WAKE = true ∧
      t.dev.fld Reg.KEEP_EVCNT Fld.KEEP_EVCNT_TAMPER = min 255 (s.dev.fld Reg.KEEP_EVCNT Fld.KEEP_EVCNT_TAMPER + 1) ∧
      (if s.dev.held = true then t.dev.keep = { s.dev.keep with tamper := true } ∧ t.dev.fc = s.dev.fc
        else t.dev.fc.raised 36 ∧ t.dev.keep = s.dev.keep) ∧
      t.dev = { s.dev.quiet with regs := t.dev.regs, fc := t.dev.fc, keep := t.dev.keep } ∧
      s.dev.regsBut t.dev [Reg.TAMP_STAT, Reg.TAMP_TIME, Reg.KEEP_EVCNT, Reg.KEEP_STAT] ∧ s.dev.fc.pairsBut t.dev.fc [36]) ∧
  (∀ (s : State) (n : Fin 2), wbit (s.dev.rd Reg.TAMP_CFG) n.val = false →
    ∃ t, exec (.tamper n) s = .next t ∧ s.sameStore t ∧ t.dev = s.dev.quiet) ∧
  (∀ (s : State) (straps : BitVec 4), s.dev.held = true → s.dev.holdEnded = true → s.dev.keep.tamper = true →
    ∃ t, exec (.deviceResetRelease straps) s = .next t ∧ t.pending = s.pending ∧ t.dev.fc.raised 36 ∧ t.dev.keep.tamper = false ∧
      t.dev.held = false)
end

