-- ==== Sys2Proof/Laws/Bits.lean ====
section
/-! SUPPORT. Bit fields of a register: a field reads as the value put into it, and other fields are untouched. -/

namespace Sys2Proof.Machine

/-- The fields of a register as the map gives them. -/
def Field.ok (f : Field) : Bool := decide (f.lo ≤ f.hi) && decide (f.hi < 32)

/-- Two fields without a common bit. -/
def Field.apart (f g : Field) : Bool := decide (f.hi < g.lo) || decide (g.hi < f.lo)

theorem fget_testBit (f : Field) (w : W) (i : Nat) :
    (fget f w).testBit i = (decide (i < Field.width f) && w.toNat.testBit (f.lo + i)) := by
  simp [fget, Nat.testBit_mod_two_pow, Nat.testBit_shiftRight]

theorem fmask_testBit (f : Field) (h : Field.ok f = true) (i : Nat) :
    (fmask f).toNat.testBit i = (decide (f.lo ≤ i) && decide (i ≤ f.hi)) := by
  simp only [Field.ok, Bool.and_eq_true, decide_eq_true_eq] at h
  simp only [fmask, BitVec.toNat_ofNat, Nat.testBit_mod_two_pow, Nat.testBit_shiftLeft, Nat.testBit_two_pow_sub_one, Field.width]
  by_cases h1 : f.lo ≤ i <;> by_cases h2 : i ≤ f.hi <;> simp [h1, h2] <;> omega

theorem fput_testBit (f : Field) (h : Field.ok f = true) (w : W) (v i : Nat) :
    (fput f w v).toNat.testBit i =
      if f.lo ≤ i ∧ i ≤ f.hi then v.testBit (i - f.lo) else w.toNat.testBit i := by
  have hm := fmask_testBit f h i
  simp only [Field.ok, Bool.and_eq_true, decide_eq_true_eq] at h
  have hw : (32 : Nat) ≤ i → w.toNat.testBit i = false := fun hi => Nat.testBit_lt_two_pow (Nat.lt_of_lt_of_le w.isLt (Nat.pow_le_pow_right (by omega) hi))
  simp only [fput, BitVec.toNat_or, BitVec.toNat_and, Nat.testBit_or, Nat.testBit_and, BitVec.toNat_not,
    BitVec.toNat_ofNat, Nat.testBit_mod_two_pow, Nat.testBit_shiftLeft, Field.width]
  have hn : (2 ^ 32 - 1 - (fmask f).toNat).testBit i = (decide (i < 32) && !(fmask f).toNat.testBit i) := by
    have := Nat.testBit_two_pow_sub_succ (x := (fmask f).toNat) (n := 32) (fmask f).isLt i
    rwa [show 2 ^ 32 - ((fmask f).toNat + 1) = 2 ^ 32 - 1 - (fmask f).toNat by omega] at this
  rw [hn, hm]
  by_cases h1 : f.lo ≤ i <;> by_cases h2 : i ≤ f.hi <;> by_cases h3 : i < 32 <;> simp [h1, h2, h3] <;>
    first | omega | exact hw (by omega)

/-- A field reads as the value put into it, modulo its range. -/
@[simp] theorem fget_fput_same (f : Field) (h : Field.ok f = true) (w : W) (v : Nat) :
    fget f (fput f w v) = v % 2 ^ Field.width f := by
  apply Nat.eq_of_testBit_eq
  intro i
  rw [fget_testBit, fput_testBit f h, Nat.testBit_mod_two_pow]
  simp only [Field.ok, Bool.and_eq_true, decide_eq_true_eq] at h
  by_cases h1 : i < Field.width f
  · have : f.lo ≤ f.lo + i ∧ f.lo + i ≤ f.hi := by simp only [Field.width] at h1; omega
    simp [this, h1]
  · simp [h1]

/-- A field apart from the one written reads as before. -/
theorem fget_fput_apart (f g : Field) (hf : Field.ok f = true) (h : Field.apart f g = true) (w : W) (v : Nat) :
    fget g (fput f w v) = fget g w := by
  apply Nat.eq_of_testBit_eq
  intro i
  rw [fget_testBit, fget_testBit, fput_testBit f hf]
  simp only [Field.apart, Bool.or_eq_true, decide_eq_true_eq] at h
  by_cases h1 : i < Field.width g
  · have : ¬(f.lo ≤ g.lo + i ∧ g.lo + i ≤ f.hi) := by simp only [Field.width] at h1; omega
    simp [this]
  · simp [h1]

end Sys2Proof.Machine
end

