-- ==== Sys2Proof/Laws/Table.lean ====
section
/-! SUPPORT. What the operations on a table do: a key reads as it was last set, every other key is untouched, and the
canonical form is kept. -/

namespace Sys2Proof.Machine

variable {α : Type}

theorem Tbl.get_erase_same (d : Nat → α) (k : Nat) (t : Tbl α) : Tbl.get d (Tbl.erase k t) k = d k := by
  induction t with
  | nil => rfl
  | cons e t ih =>
    obtain ⟨j, v⟩ := e
    by_cases h : j = k
    · simp [Tbl.erase, h, ih]
    · simp [Tbl.erase, Tbl.get, h, ih]

theorem Tbl.get_erase_other (d : Nat → α) {k k' : Nat} (h : k' ≠ k) (t : Tbl α) :
    Tbl.get d (Tbl.erase k t) k' = Tbl.get d t k' := by
  induction t with
  | nil => rfl
  | cons e t ih =>
    obtain ⟨j, v⟩ := e
    by_cases hj : j = k
    · have : j ≠ k' := by omega
      simp [Tbl.erase, Tbl.get, hj, ih]
      intro h2; omega
    · by_cases h2 : j = k'
      · subst h2; simp [Tbl.erase, Tbl.get, hj]
      · simp [Tbl.erase, Tbl.get, hj, h2, ih]

theorem Tbl.get_insert_same (d : Nat → α) (k : Nat) (a : α) (t : Tbl α) : Tbl.get d (Tbl.insert k a t) k = a := by
  induction t with
  | nil => simp [Tbl.insert, Tbl.get]
  | cons e t ih =>
    obtain ⟨j, v⟩ := e
    simp only [Tbl.insert]
    split
    · simp [Tbl.get]
    · split
      · simp [Tbl.get]
      · have : j ≠ k := by omega
        simp [Tbl.get, this, ih]

theorem Tbl.get_insert_other (d : Nat → α) {k k' : Nat} (h : k' ≠ k) (a : α) (t : Tbl α) :
    Tbl.get d (Tbl.insert k a t) k' = Tbl.get d t k' := by
  have hk : k ≠ k' := fun e => h e.symm
  induction t with
  | nil => simp [Tbl.insert, Tbl.get, hk]
  | cons e t ih =>
    obtain ⟨j, v⟩ := e
    simp only [Tbl.insert]
    split
    · simp [Tbl.get, hk]
    · split
      · next hj => subst hj; simp [Tbl.get, hk]
      · by_cases h2 : j = k'
        · simp [Tbl.get, h2]
        · simp [Tbl.get, h2, ih]

variable [DecidableEq α]

@[simp] theorem Tbl.get_set_same (d : Nat → α) (t : Tbl α) (k : Nat) (a : α) : Tbl.get d (Tbl.set d t k a) k = a := by
  unfold Tbl.set
  split
  · next h => rw [Tbl.get_erase_same, h]
  · exact Tbl.get_insert_same d k a t

theorem Tbl.get_set_other (d : Nat → α) (t : Tbl α) {k k' : Nat} (h : k' ≠ k) (a : α) :
    Tbl.get d (Tbl.set d t k a) k' = Tbl.get d t k' := by
  unfold Tbl.set
  split
  · exact Tbl.get_erase_other d h t
  · exact Tbl.get_insert_other d h a t

/-- Reading any key after one key was set. -/
theorem Tbl.get_set (d : Nat → α) (t : Tbl α) (k k' : Nat) (a : α) :
    Tbl.get d (Tbl.set d t k a) k' = if k' = k then a else Tbl.get d t k' := by
  split
  · next h => subst h; exact Tbl.get_set_same d t k' a
  · next h => exact Tbl.get_set_other d t h a

/-- A canonical table stays canonical under a weaker lower bound. -/
theorem Tbl.okFrom_mono (d : Nat → α) {lo lo' : Option Nat} {t : Tbl α}
    (hlo : ∀ l', lo' = some l' → ∃ l, lo = some l ∧ l' ≤ l) (h : Tbl.okFrom d lo t = true) : Tbl.okFrom d lo' t = true := by
  cases t with
  | nil => rfl
  | cons e t =>
    obtain ⟨j, v⟩ := e
    cases lo' with
    | none => cases lo <;> simp_all [Tbl.okFrom]
    | some l' =>
      obtain ⟨l, rfl, hl⟩ := hlo l' rfl
      simp only [Tbl.okFrom, Bool.and_eq_true, decide_eq_true_eq] at h ⊢
      exact ⟨⟨by omega, h.1.2⟩, h.2⟩

theorem Tbl.okFrom_erase (d : Nat → α) (k : Nat) : ∀ (lo : Option Nat) (t : Tbl α), Tbl.okFrom d lo t = true →
    Tbl.okFrom d lo (Tbl.erase k t) = true
  | _, [], _ => rfl
  | lo, (j, v) :: t, h => by
    simp only [Tbl.okFrom, Bool.and_eq_true, decide_eq_true_eq] at h
    by_cases hj : j = k
    · simp only [Tbl.erase, hj, if_true]
      refine Tbl.okFrom_erase d k lo t (Tbl.okFrom_mono d ?_ h.2)
      intro l' hl'
      subst hl'
      exact ⟨j, rfl, Nat.le_of_lt (by simpa using h.1.1)⟩
    · simp only [Tbl.erase, hj, if_false, Tbl.okFrom, Bool.and_eq_true, decide_eq_true_eq]
      exact ⟨h.1, Tbl.okFrom_erase d k _ t h.2⟩

theorem Tbl.okFrom_insert (d : Nat → α) (k : Nat) (a : α) (ha : a ≠ d k) : ∀ (lo : Option Nat) (t : Tbl α),
    (∀ l, lo = some l → l < k) → Tbl.okFrom d lo t = true → Tbl.okFrom d lo (Tbl.insert k a t) = true
  | lo, [], hlo, _ => by cases lo <;> simp_all [Tbl.insert, Tbl.okFrom]
  | lo, (j, v) :: t, hlo, h => by
    simp only [Tbl.okFrom, Bool.and_eq_true, decide_eq_true_eq] at h
    simp only [Tbl.insert]
    split
    · next hlt => cases lo <;> simp_all [Tbl.okFrom]
    · split
      · next heq => subst heq; cases lo <;> simp_all [Tbl.okFrom]
      · simp only [Tbl.okFrom, Bool.and_eq_true, decide_eq_true_eq]
        refine ⟨h.1, Tbl.okFrom_insert d k a ha _ t ?_ h.2⟩
        intro l hl
        cases hl
        omega

/-- Setting a key keeps the canonical form. -/
theorem Tbl.ok_set (d : Nat → α) (t : Tbl α) (k : Nat) (a : α) (h : Tbl.ok d t = true) : Tbl.ok d (Tbl.set d t k a) = true := by
  unfold Tbl.set
  split
  · exact Tbl.okFrom_erase d k none t h
  · next ha => exact Tbl.okFrom_insert d k a ha none t (by simp) h

/-- Setting a list of keys keeps the canonical form. -/
theorem Tbl.ok_setList (d : Nat → α) (as : List α) : ∀ (t : Tbl α) (k : Nat), Tbl.ok d t = true →
    Tbl.ok d (Tbl.setList d t k as) = true := by
  induction as with
  | nil => intro t k h; exact h
  | cons a as ih => intro t k h; exact ih _ _ (Tbl.ok_set d t k a h)

/-- A key outside the written ones reads as before. -/
theorem Tbl.get_setList_outside (d : Nat → α) (as : List α) : ∀ (t : Tbl α) (k k' : Nat), (k' < k ∨ k + as.length ≤ k') →
    Tbl.get d (Tbl.setList d t k as) k' = Tbl.get d t k' := by
  induction as with
  | nil => intro t k k' _; rfl
  | cons a as ih =>
    intro t k k' h
    simp only [List.length_cons] at h
    simp only [Tbl.setList]
    rw [ih _ _ _ (by omega), Tbl.get_set_other d t (by omega)]

/-- A key inside the written ones reads as it was written. -/
theorem Tbl.get_setList_inside (d : Nat → α) (as : List α) : ∀ (t : Tbl α) (k i : Nat) (h : i < as.length),
    Tbl.get d (Tbl.setList d t k as) (k + i) = as[i] := by
  induction as with
  | nil => intro t k i h; simp at h
  | cons a as ih =>
    intro t k i h
    cases i with
    | zero =>
      simp only [Tbl.setList, Nat.add_zero, List.getElem_cons_zero]
      rw [Tbl.get_setList_outside d as _ _ _ (by omega), Tbl.get_set_same]
    | succ i =>
      simp only [Tbl.setList, List.getElem_cons_succ]
      have := ih (Tbl.set d t k a) (k + 1) i (by simpa using h)
      rwa [show k + (i + 1) = k + 1 + i by omega]

end Sys2Proof.Machine
end

