-- ==== Sys2Proof/Laws/State.lean ====
section
/-! SUPPORT. What each named update of the device and of a section leaves alone: one lemma for each field and update, so
that no proof unfolds a record update; and what a register and a section read as after an update. -/

namespace Sys2Proof.Machine

/-! ### Registers -/

theorem Dev.rd_wr (d : Dev) (a b : Nat) (v : W) : (d.wr a v).rd b = if b = a then v else d.rd b := Tbl.get_set _ _ _ _ _

@[simp] theorem Dev.rd_wr_same (d : Dev) (a : Nat) (v : W) : (d.wr a v).rd a = v := Tbl.get_set_same _ _ _ _

theorem Dev.rd_wr_other (d : Dev) {a b : Nat} (h : b ≠ a) (v : W) : (d.wr a v).rd b = d.rd b := Tbl.get_set_other _ _ h _

@[simp] theorem Dev.rd_put_same (d : Dev) (a : Nat) (f : Field) (v : Nat) : (d.put a f v).rd a = fput f (d.rd a) v :=
  Dev.rd_wr_same _ _ _

theorem Dev.rd_put_other (d : Dev) {a b : Nat} (h : b ≠ a) (f : Field) (v : Nat) : (d.put a f v).rd b = d.rd b :=
  Dev.rd_wr_other _ h _

/-- A field reads as the value put into it, modulo its range. -/
theorem Dev.fld_put_same (d : Dev) (a : Nat) (f : Field) (h : Field.ok f = true) (v : Nat) :
    (d.put a f v).fld a f = v % 2 ^ Field.width f := by simp [Dev.fld, fget_fput_same f h]

/-- A field apart from the one written, in the same register, reads as before. -/
theorem Dev.fld_put_apart (d : Dev) (a : Nat) (f g : Field) (hf : Field.ok f = true) (h : Field.apart f g = true) (v : Nat) :
    (d.put a f v).fld a g = d.fld a g := by simp [Dev.fld, fget_fput_apart f g hf h]

/-- A field of another register reads as before. -/
theorem Dev.fld_put_other (d : Dev) {a b : Nat} (h : b ≠ a) (f g : Field) (v : Nat) : (d.put a f v).fld b g = d.fld b g := by
  simp [Dev.fld, Dev.rd_put_other d h]

theorem SecState.rd_wr (x : SecState) (a b : Nat) (v : W) : (x.wr a v).rd b = if b = a then v else x.rd b :=
  Tbl.get_set _ _ _ _ _

@[simp] theorem SecState.rd_wr_same (x : SecState) (a : Nat) (v : W) : (x.wr a v).rd a = v := Tbl.get_set_same _ _ _ _

theorem SecState.rd_wr_other (x : SecState) {a b : Nat} (h : b ≠ a) (v : W) : (x.wr a v).rd b = x.rd b :=
  Tbl.get_set_other _ _ h _

@[simp] theorem SecState.rd_put_same (x : SecState) (a : Nat) (f : Field) (v : Nat) :
    (x.put a f v).rd a = fput f (x.rd a) v := SecState.rd_wr_same _ _ _

theorem SecState.rd_put_other (x : SecState) {a b : Nat} (h : b ≠ a) (f : Field) (v : Nat) : (x.put a f v).rd b = x.rd b :=
  SecState.rd_wr_other _ h _

theorem SecState.fld_put_same (x : SecState) (a : Nat) (f : Field) (h : Field.ok f = true) (v : Nat) :
    (x.put a f v).fld a f = v % 2 ^ Field.width f := by simp [SecState.fld, fget_fput_same f h]

theorem SecState.fld_put_apart (x : SecState) (a : Nat) (f g : Field) (hf : Field.ok f = true)
    (h : Field.apart f g = true) (v : Nat) : (x.put a f v).fld a g = x.fld a g := by
  simp [SecState.fld, fget_fput_apart f g hf h]

theorem SecState.fld_put_other (x : SecState) {a b : Nat} (h : b ≠ a) (f g : Field) (v : Nat) :
    (x.put a f v).fld b g = x.fld b g := by simp [SecState.fld, SecState.rd_put_other x h]

/-! ### Groups of four -/

@[simp] theorem Quad.get_set_same {α : Type} (q : Quad α) (i : Fin 4) (a : α) : (q.set i a).get i = a := by
  match i with | 0 => rfl | 1 => rfl | 2 => rfl | 3 => rfl

theorem Quad.get_set_other {α : Type} (q : Quad α) {i j : Fin 4} (h : j ≠ i) (a : α) : (q.set i a).get j = q.get j := by
  match i, j, h with
  | 0, 0, h => exact absurd rfl h | 0, 1, _ => rfl | 0, 2, _ => rfl | 0, 3, _ => rfl
  | 1, 0, _ => rfl | 1, 1, h => exact absurd rfl h | 1, 2, _ => rfl | 1, 3, _ => rfl
  | 2, 0, _ => rfl | 2, 1, _ => rfl | 2, 2, h => exact absurd rfl h | 2, 3, _ => rfl
  | 3, 0, _ => rfl | 3, 1, _ => rfl | 3, 2, _ => rfl | 3, 3, h => exact absurd rfl h

@[simp] theorem Quad.get_upd_same {α : Type} (q : Quad α) (i : Fin 4) (f : α → α) : (q.upd i f).get i = f (q.get i) :=
  Quad.get_set_same _ _ _

theorem Quad.get_upd_other {α : Type} (q : Quad α) {i j : Fin 4} (h : j ≠ i) (f : α → α) : (q.upd i f).get j = q.get j :=
  Quad.get_set_other _ h _

@[simp] theorem Dev.sc_onSec_same (d : Dev) (s : Sec) (f : SecState → SecState) : (d.onSec s f).sc s = f (d.sc s) :=
  Quad.get_upd_same _ _ _

theorem Dev.sc_onSec_other (d : Dev) {s s' : Sec} (h : s' ≠ s) (f : SecState → SecState) : (d.onSec s f).sc s' = d.sc s' :=
  Quad.get_upd_other _ h _

@[simp] theorem Dev.rd_onSec (d : Dev) (s : Sec) (f : SecState → SecState) (a : Nat) : (d.onSec s f).rd a = d.rd a := rfl

@[simp] theorem Dev.sc_wr (d : Dev) (a : Nat) (v : W) (s : Sec) : (d.wr a v).sc s = d.sc s := rfl

@[simp] theorem Dev.sc_put (d : Dev) (a : Nat) (f : Field) (v : Nat) (s : Sec) : (d.put a f v).sc s = d.sc s := rfl

@[simp] theorem Dev.sc_pulse (d : Dev) (n : Nat) (s : Sec) : (d.pulse n).sc s = d.sc s := rfl

@[simp] theorem Dev.rd_pulse (d : Dev) (n a : Nat) : (d.pulse n).rd a = d.rd a := rfl

@[simp] theorem Dev.sc_tickFree (d : Dev) (s : Sec) : d.tickFree.sc s = d.sc s := rfl

@[simp] theorem Dev.rd_tickFree (d : Dev) (a : Nat) : d.tickFree.rd a = d.rd a := rfl

/-! ### The PLLs -/

@[simp] theorem Dev.pll_setPll_same (d : Dev) (p : Nat) (x : Pll) : (d.setPll p x).pll p = x := Tbl.get_set_same _ _ _ _

theorem Dev.pll_setPll_other (d : Dev) {p q : Nat} (h : q ≠ p) (x : Pll) : (d.setPll p x).pll q = d.pll q :=
  Tbl.get_set_other _ _ h _

@[simp] theorem Dev.rd_setPll (d : Dev) (p : Nat) (x : Pll) (a : Nat) : (d.setPll p x).rd a = d.rd a := rfl

/-! ### The answer of a command -/

/-- A device that is not held in reset takes the change; non-volatile storage and the queue stay. -/
theorem run_next (s : State) (f : Dev → Dev) (h : s.dev.held = false) :
    run s f = .next { dev := f s.dev, nv := s.nv, pending := s.pending } := by simp [run, State.onDev, h]

/-- A device held in reset stays as it is. -/
theorem run_held (s : State) (f : Dev → Dev) (h : s.dev.held = true) : run s f = .next s := by
  simp [run, State.onDev, h]

/-- The same with the writes to non-volatile storage that the command orders. -/
theorem runNv_next (s : State) (f : NonVol → Dev → Dev) (h : s.dev.held = false) :
    runNv s f = .next { dev := (f s.nv s.dev.quiet).quiet, nv := (f s.nv s.dev.quiet).nvOut.foldl NonVol.apply s.nv,
                        pending := s.pending } := by
  have hq : s.dev.quiet.held = false := h
  simp [runNv, State.onNv, hq]

theorem runKeep_next (s : State) (f : NonVol → Dev → Dev) :
    runKeep s f = .next { dev := (f s.nv s.dev.quiet).quiet, nv := (f s.nv s.dev.quiet).nvOut.foldl NonVol.apply s.nv,
                          pending := s.pending } := rfl

@[simp] theorem Dev.rd_quiet (d : Dev) (a : Nat) : d.quiet.rd a = d.rd a := rfl
@[simp] theorem Dev.fld_quiet (d : Dev) (a : Nat) (f : Field) : d.quiet.fld a f = d.fld a f := rfl
@[simp] theorem Dev.flag_quiet (d : Dev) (a : Nat) (f : Field) : d.quiet.flag a f = d.flag a f := rfl
@[simp] theorem Dev.sc_quiet (d : Dev) (s : Sec) : d.quiet.sc s = d.sc s := rfl
@[simp] theorem Dev.quiet_nvOut (d : Dev) : d.quiet.nvOut = [] := rfl
@[simp] theorem Dev.quiet_quiet (d : Dev) : d.quiet.quiet = d.quiet := rfl
@[simp] theorem Dev.quiet_fc (d : Dev) : d.quiet.fc = d.fc := rfl

/-! ### Fields that an update leaves alone -/

@[simp] theorem Dev.wr_snap (d : Dev) (a : Nat) (v : W) : (d.wr a v).snap = d.snap := rfl
@[simp] theorem Dev.wr_sec (d : Dev) (a : Nat) (v : W) : (d.wr a v).sec = d.sec := rfl
@[simp] theorem Dev.wr_fc (d : Dev) (a : Nat) (v : W) : (d.wr a v).fc = d.fc := rfl
@[simp] theorem Dev.wr_isl (d : Dev) (a : Nat) (v : W) : (d.wr a v).isl = d.isl := rfl
@[simp] theorem Dev.wr_safe (d : Dev) (a : Nat) (v : W) : (d.wr a v).safe = d.safe := rfl
@[simp] theorem Dev.wr_points (d : Dev) (a : Nat) (v : W) : (d.wr a v).points = d.points := rfl
@[simp] theorem Dev.wr_pulses (d : Dev) (a : Nat) (v : W) : (d.wr a v).pulses = d.pulses := rfl
@[simp] theorem Dev.wr_aux (d : Dev) (a : Nat) (v : W) : (d.wr a v).aux = d.aux := rfl
@[simp] theorem Dev.wr_inj (d : Dev) (a : Nat) (v : W) : (d.wr a v).inj = d.inj := rfl
@[simp] theorem Dev.wr_keep (d : Dev) (a : Nat) (v : W) : (d.wr a v).keep = d.keep := rfl
@[simp] theorem Dev.wr_mBase (d : Dev) (a : Nat) (v : W) : (d.wr a v).mBase = d.mBase := rfl
@[simp] theorem Dev.wr_report (d : Dev) (a : Nat) (v : W) : (d.wr a v).report = d.report := rfl
@[simp] theorem Dev.wr_rpt (d : Dev) (a : Nat) (v : W) : (d.wr a v).rpt = d.rpt := rfl
@[simp] theorem Dev.wr_rptWait (d : Dev) (a : Nat) (v : W) : (d.wr a v).rptWait = d.rptWait := rfl
@[simp] theorem Dev.wr_rptRecent (d : Dev) (a : Nat) (v : W) : (d.wr a v).rptRecent = d.rptRecent := rfl
@[simp] theorem Dev.wr_crypto (d : Dev) (a : Nat) (v : W) : (d.wr a v).crypto = d.crypto := rfl
@[simp] theorem Dev.wr_cryptoOn (d : Dev) (a : Nat) (v : W) : (d.wr a v).cryptoOn = d.cryptoOn := rfl
@[simp] theorem Dev.wr_nvOut (d : Dev) (a : Nat) (v : W) : (d.wr a v).nvOut = d.nvOut := rfl
@[simp] theorem Dev.wr_policy (d : Dev) (a : Nat) (v : W) : (d.wr a v).policy = d.policy := rfl
@[simp] theorem Dev.wr_plls (d : Dev) (a : Nat) (v : W) : (d.wr a v).plls = d.plls := rfl
@[simp] theorem Dev.wr_rcPpm (d : Dev) (a : Nat) (v : W) : (d.wr a v).rcPpm = d.rcPpm := rfl
@[simp] theorem Dev.wr_time (d : Dev) (a : Nat) (v : W) : (d.wr a v).time = d.time := rfl
@[simp] theorem Dev.wr_eth (d : Dev) (a : Nat) (v : W) : (d.wr a v).eth = d.eth := rfl
@[simp] theorem Dev.wr_pool (d : Dev) (a : Nat) (v : W) : (d.wr a v).pool = d.pool := rfl
@[simp] theorem Dev.wr_can (d : Dev) (a : Nat) (v : W) : (d.wr a v).can = d.can := rfl
@[simp] theorem Dev.wr_uart (d : Dev) (a : Nat) (v : W) : (d.wr a v).uart = d.uart := rfl
@[simp] theorem Dev.wr_i2c (d : Dev) (a : Nat) (v : W) : (d.wr a v).i2c = d.i2c := rfl
@[simp] theorem Dev.wr_dl (d : Dev) (a : Nat) (v : W) : (d.wr a v).dl = d.dl := rfl
@[simp] theorem Dev.wr_hp (d : Dev) (a : Nat) (v : W) : (d.wr a v).hp = d.hp := rfl
@[simp] theorem Dev.wr_rwpBase (d : Dev) (a : Nat) (v : W) : (d.wr a v).rwpBase = d.rwpBase := rfl
@[simp] theorem Dev.wr_rwpSheet (d : Dev) (a : Nat) (v : W) : (d.wr a v).rwpSheet = d.rwpSheet := rfl
@[simp] theorem Dev.wr_held (d : Dev) (a : Nat) (v : W) : (d.wr a v).held = d.held := rfl
@[simp] theorem Dev.wr_up (d : Dev) (a : Nat) (v : W) : (d.wr a v).up = d.up := rfl
@[simp] theorem Dev.wr_freeCount (d : Dev) (a : Nat) (v : W) : (d.wr a v).freeCount = d.freeCount := rfl

@[simp] theorem Dev.put_snap (d : Dev) (a : Nat) (f : Field) (v : Nat) : (d.put a f v).snap = d.snap := rfl
@[simp] theorem Dev.put_sec (d : Dev) (a : Nat) (f : Field) (v : Nat) : (d.put a f v).sec = d.sec := rfl
@[simp] theorem Dev.put_fc (d : Dev) (a : Nat) (f : Field) (v : Nat) : (d.put a f v).fc = d.fc := rfl
@[simp] theorem Dev.put_isl (d : Dev) (a : Nat) (f : Field) (v : Nat) : (d.put a f v).isl = d.isl := rfl
@[simp] theorem Dev.put_safe (d : Dev) (a : Nat) (f : Field) (v : Nat) : (d.put a f v).safe = d.safe := rfl
@[simp] theorem Dev.put_points (d : Dev) (a : Nat) (f : Field) (v : Nat) : (d.put a f v).points = d.points := rfl
@[simp] theorem Dev.put_pulses (d : Dev) (a : Nat) (f : Field) (v : Nat) : (d.put a f v).pulses = d.pulses := rfl
@[simp] theorem Dev.put_aux (d : Dev) (a : Nat) (f : Field) (v : Nat) : (d.put a f v).aux = d.aux := rfl
@[simp] theorem Dev.put_inj (d : Dev) (a : Nat) (f : Field) (v : Nat) : (d.put a f v).inj = d.inj := rfl
@[simp] theorem Dev.put_keep (d : Dev) (a : Nat) (f : Field) (v : Nat) : (d.put a f v).keep = d.keep := rfl
@[simp] theorem Dev.put_mBase (d : Dev) (a : Nat) (f : Field) (v : Nat) : (d.put a f v).mBase = d.mBase := rfl
@[simp] theorem Dev.put_report (d : Dev) (a : Nat) (f : Field) (v : Nat) : (d.put a f v).report = d.report := rfl
@[simp] theorem Dev.put_rpt (d : Dev) (a : Nat) (f : Field) (v : Nat) : (d.put a f v).rpt = d.rpt := rfl
@[simp] theorem Dev.put_rptWait (d : Dev) (a : Nat) (f : Field) (v : Nat) : (d.put a f v).rptWait = d.rptWait := rfl
@[simp] theorem Dev.put_rptRecent (d : Dev) (a : Nat) (f : Field) (v : Nat) : (d.put a f v).rptRecent = d.rptRecent := rfl
@[simp] theorem Dev.put_crypto (d : Dev) (a : Nat) (f : Field) (v : Nat) : (d.put a f v).crypto = d.crypto := rfl
@[simp] theorem Dev.put_cryptoOn (d : Dev) (a : Nat) (f : Field) (v : Nat) : (d.put a f v).cryptoOn = d.cryptoOn := rfl
@[simp] theorem Dev.put_nvOut (d : Dev) (a : Nat) (f : Field) (v : Nat) : (d.put a f v).nvOut = d.nvOut := rfl
@[simp] theorem Dev.put_policy (d : Dev) (a : Nat) (f : Field) (v : Nat) : (d.put a f v).policy = d.policy := rfl
@[simp] theorem Dev.put_plls (d : Dev) (a : Nat) (f : Field) (v : Nat) : (d.put a f v).plls = d.plls := rfl
@[simp] theorem Dev.put_rcPpm (d : Dev) (a : Nat) (f : Field) (v : Nat) : (d.put a f v).rcPpm = d.rcPpm := rfl
@[simp] theorem Dev.put_time (d : Dev) (a : Nat) (f : Field) (v : Nat) : (d.put a f v).time = d.time := rfl
@[simp] theorem Dev.put_eth (d : Dev) (a : Nat) (f : Field) (v : Nat) : (d.put a f v).eth = d.eth := rfl
@[simp] theorem Dev.put_pool (d : Dev) (a : Nat) (f : Field) (v : Nat) : (d.put a f v).pool = d.pool := rfl
@[simp] theorem Dev.put_can (d : Dev) (a : Nat) (f : Field) (v : Nat) : (d.put a f v).can = d.can := rfl
@[simp] theorem Dev.put_uart (d : Dev) (a : Nat) (f : Field) (v : Nat) : (d.put a f v).uart = d.uart := rfl
@[simp] theorem Dev.put_i2c (d : Dev) (a : Nat) (f : Field) (v : Nat) : (d.put a f v).i2c = d.i2c := rfl
@[simp] theorem Dev.put_dl (d : Dev) (a : Nat) (f : Field) (v : Nat) : (d.put a f v).dl = d.dl := rfl
@[simp] theorem Dev.put_hp (d : Dev) (a : Nat) (f : Field) (v : Nat) : (d.put a f v).hp = d.hp := rfl
@[simp] theorem Dev.put_rwpBase (d : Dev) (a : Nat) (f : Field) (v : Nat) : (d.put a f v).rwpBase = d.rwpBase := rfl
@[simp] theorem Dev.put_rwpSheet (d : Dev) (a : Nat) (f : Field) (v : Nat) : (d.put a f v).rwpSheet = d.rwpSheet := rfl
@[simp] theorem Dev.put_held (d : Dev) (a : Nat) (f : Field) (v : Nat) : (d.put a f v).held = d.held := rfl
@[simp] theorem Dev.put_up (d : Dev) (a : Nat) (f : Field) (v : Nat) : (d.put a f v).up = d.up := rfl
@[simp] theorem Dev.put_freeCount (d : Dev) (a : Nat) (f : Field) (v : Nat) : (d.put a f v).freeCount = d.freeCount := rfl

@[simp] theorem Dev.putB_snap (d : Dev) (a : Nat) (f : Field) (b : Bool) : (d.putB a f b).snap = d.snap := rfl
@[simp] theorem Dev.putB_sec (d : Dev) (a : Nat) (f : Field) (b : Bool) : (d.putB a f b).sec = d.sec := rfl
@[simp] theorem Dev.putB_fc (d : Dev) (a : Nat) (f : Field) (b : Bool) : (d.putB a f b).fc = d.fc := rfl
@[simp] theorem Dev.putB_isl (d : Dev) (a : Nat) (f : Field) (b : Bool) : (d.putB a f b).isl = d.isl := rfl
@[simp] theorem Dev.putB_safe (d : Dev) (a : Nat) (f : Field) (b : Bool) : (d.putB a f b).safe = d.safe := rfl
@[simp] theorem Dev.putB_points (d : Dev) (a : Nat) (f : Field) (b : Bool) : (d.putB a f b).points = d.points := rfl
@[simp] theorem Dev.putB_pulses (d : Dev) (a : Nat) (f : Field) (b : Bool) : (d.putB a f b).pulses = d.pulses := rfl
@[simp] theorem Dev.putB_aux (d : Dev) (a : Nat) (f : Field) (b : Bool) : (d.putB a f b).aux = d.aux := rfl
@[simp] theorem Dev.putB_inj (d : Dev) (a : Nat) (f : Field) (b : Bool) : (d.putB a f b).inj = d.inj := rfl
@[simp] theorem Dev.putB_keep (d : Dev) (a : Nat) (f : Field) (b : Bool) : (d.putB a f b).keep = d.keep := rfl
@[simp] theorem Dev.putB_mBase (d : Dev) (a : Nat) (f : Field) (b : Bool) : (d.putB a f b).mBase = d.mBase := rfl
@[simp] theorem Dev.putB_report (d : Dev) (a : Nat) (f : Field) (b : Bool) : (d.putB a f b).report = d.report := rfl
@[simp] theorem Dev.putB_rpt (d : Dev) (a : Nat) (f : Field) (b : Bool) : (d.putB a f b).rpt = d.rpt := rfl
@[simp] theorem Dev.putB_rptWait (d : Dev) (a : Nat) (f : Field) (b : Bool) : (d.putB a f b).rptWait = d.rptWait := rfl
@[simp] theorem Dev.putB_rptRecent (d : Dev) (a : Nat) (f : Field) (b : Bool) : (d.putB a f b).rptRecent = d.rptRecent := rfl
@[simp] theorem Dev.putB_crypto (d : Dev) (a : Nat) (f : Field) (b : Bool) : (d.putB a f b).crypto = d.crypto := rfl
@[simp] theorem Dev.putB_cryptoOn (d : Dev) (a : Nat) (f : Field) (b : Bool) : (d.putB a f b).cryptoOn = d.cryptoOn := rfl
@[simp] theorem Dev.putB_nvOut (d : Dev) (a : Nat) (f : Field) (b : Bool) : (d.putB a f b).nvOut = d.nvOut := rfl
@[simp] theorem Dev.putB_policy (d : Dev) (a : Nat) (f : Field) (b : Bool) : (d.putB a f b).policy = d.policy := rfl
@[simp] theorem Dev.putB_plls (d : Dev) (a : Nat) (f : Field) (b : Bool) : (d.putB a f b).plls = d.plls := rfl
@[simp] theorem Dev.putB_rcPpm (d : Dev) (a : Nat) (f : Field) (b : Bool) : (d.putB a f b).rcPpm = d.rcPpm := rfl
@[simp] theorem Dev.putB_time (d : Dev) (a : Nat) (f : Field) (b : Bool) : (d.putB a f b).time = d.time := rfl
@[simp] theorem Dev.putB_eth (d : Dev) (a : Nat) (f : Field) (b : Bool) : (d.putB a f b).eth = d.eth := rfl
@[simp] theorem Dev.putB_pool (d : Dev) (a : Nat) (f : Field) (b : Bool) : (d.putB a f b).pool = d.pool := rfl
@[simp] theorem Dev.putB_can (d : Dev) (a : Nat) (f : Field) (b : Bool) : (d.putB a f b).can = d.can := rfl
@[simp] theorem Dev.putB_uart (d : Dev) (a : Nat) (f : Field) (b : Bool) : (d.putB a f b).uart = d.uart := rfl
@[simp] theorem Dev.putB_i2c (d : Dev) (a : Nat) (f : Field) (b : Bool) : (d.putB a f b).i2c = d.i2c := rfl
@[simp] theorem Dev.putB_dl (d : Dev) (a : Nat) (f : Field) (b : Bool) : (d.putB a f b).dl = d.dl := rfl
@[simp] theorem Dev.putB_hp (d : Dev) (a : Nat) (f : Field) (b : Bool) : (d.putB a f b).hp = d.hp := rfl
@[simp] theorem Dev.putB_rwpBase (d : Dev) (a : Nat) (f : Field) (b : Bool) : (d.putB a f b).rwpBase = d.rwpBase := rfl
@[simp] theorem Dev.putB_rwpSheet (d : Dev) (a : Nat) (f : Field) (b : Bool) : (d.putB a f b).rwpSheet = d.rwpSheet := rfl
@[simp] theorem Dev.putB_held (d : Dev) (a : Nat) (f : Field) (b : Bool) : (d.putB a f b).held = d.held := rfl
@[simp] theorem Dev.putB_up (d : Dev) (a : Nat) (f : Field) (b : Bool) : (d.putB a f b).up = d.up := rfl
@[simp] theorem Dev.putB_freeCount (d : Dev) (a : Nat) (f : Field) (b : Bool) : (d.putB a f b).freeCount = d.freeCount := rfl

@[simp] theorem Dev.bump_snap (d : Dev) (a : Nat) (f : Field) : (d.bump a f).snap = d.snap := rfl
@[simp] theorem Dev.bump_sec (d : Dev) (a : Nat) (f : Field) : (d.bump a f).sec = d.sec := rfl
@[simp] theorem Dev.bump_fc (d : Dev) (a : Nat) (f : Field) : (d.bump a f).fc = d.fc := rfl
@[simp] theorem Dev.bump_isl (d : Dev) (a : Nat) (f : Field) : (d.bump a f).isl = d.isl := rfl
@[simp] theorem Dev.bump_safe (d : Dev) (a : Nat) (f : Field) : (d.bump a f).safe = d.safe := rfl
@[simp] theorem Dev.bump_points (d : Dev) (a : Nat) (f : Field) : (d.bump a f).points = d.points := rfl
@[simp] theorem Dev.bump_pulses (d : Dev) (a : Nat) (f : Field) : (d.bump a f).pulses = d.pulses := rfl
@[simp] theorem Dev.bump_aux (d : Dev) (a : Nat) (f : Field) : (d.bump a f).aux = d.aux := rfl
@[simp] theorem Dev.bump_inj (d : Dev) (a : Nat) (f : Field) : (d.bump a f).inj = d.inj := rfl
@[simp] theorem Dev.bump_keep (d : Dev) (a : Nat) (f : Field) : (d.bump a f).keep = d.keep := rfl
@[simp] theorem Dev.bump_mBase (d : Dev) (a : Nat) (f : Field) : (d.bump a f).mBase = d.mBase := rfl
@[simp] theorem Dev.bump_report (d : Dev) (a : Nat) (f : Field) : (d.bump a f).report = d.report := rfl
@[simp] theorem Dev.bump_rpt (d : Dev) (a : Nat) (f : Field) : (d.bump a f).rpt = d.rpt := rfl
@[simp] theorem Dev.bump_rptWait (d : Dev) (a : Nat) (f : Field) : (d.bump a f).rptWait = d.rptWait := rfl
@[simp] theorem Dev.bump_rptRecent (d : Dev) (a : Nat) (f : Field) : (d.bump a f).rptRecent = d.rptRecent := rfl
@[simp] theorem Dev.bump_crypto (d : Dev) (a : Nat) (f : Field) : (d.bump a f).crypto = d.crypto := rfl
@[simp] theorem Dev.bump_cryptoOn (d : Dev) (a : Nat) (f : Field) : (d.bump a f).cryptoOn = d.cryptoOn := rfl
@[simp] theorem Dev.bump_nvOut (d : Dev) (a : Nat) (f : Field) : (d.bump a f).nvOut = d.nvOut := rfl
@[simp] theorem Dev.bump_policy (d : Dev) (a : Nat) (f : Field) : (d.bump a f).policy = d.policy := rfl
@[simp] theorem Dev.bump_plls (d : Dev) (a : Nat) (f : Field) : (d.bump a f).plls = d.plls := rfl
@[simp] theorem Dev.bump_rcPpm (d : Dev) (a : Nat) (f : Field) : (d.bump a f).rcPpm = d.rcPpm := rfl
@[simp] theorem Dev.bump_time (d : Dev) (a : Nat) (f : Field) : (d.bump a f).time = d.time := rfl
@[simp] theorem Dev.bump_eth (d : Dev) (a : Nat) (f : Field) : (d.bump a f).eth = d.eth := rfl
@[simp] theorem Dev.bump_pool (d : Dev) (a : Nat) (f : Field) : (d.bump a f).pool = d.pool := rfl
@[simp] theorem Dev.bump_can (d : Dev) (a : Nat) (f : Field) : (d.bump a f).can = d.can := rfl
@[simp] theorem Dev.bump_uart (d : Dev) (a : Nat) (f : Field) : (d.bump a f).uart = d.uart := rfl
@[simp] theorem Dev.bump_i2c (d : Dev) (a : Nat) (f : Field) : (d.bump a f).i2c = d.i2c := rfl
@[simp] theorem Dev.bump_dl (d : Dev) (a : Nat) (f : Field) : (d.bump a f).dl = d.dl := rfl
@[simp] theorem Dev.bump_hp (d : Dev) (a : Nat) (f : Field) : (d.bump a f).hp = d.hp := rfl
@[simp] theorem Dev.bump_rwpBase (d : Dev) (a : Nat) (f : Field) : (d.bump a f).rwpBase = d.rwpBase := rfl
@[simp] theorem Dev.bump_rwpSheet (d : Dev) (a : Nat) (f : Field) : (d.bump a f).rwpSheet = d.rwpSheet := rfl
@[simp] theorem Dev.bump_held (d : Dev) (a : Nat) (f : Field) : (d.bump a f).held = d.held := rfl
@[simp] theorem Dev.bump_up (d : Dev) (a : Nat) (f : Field) : (d.bump a f).up = d.up := rfl
@[simp] theorem Dev.bump_freeCount (d : Dev) (a : Nat) (f : Field) : (d.bump a f).freeCount = d.freeCount := rfl

@[simp] theorem Dev.onSec_regs (d : Dev) (s : Sec) (f : SecState → SecState) : (d.onSec s f).regs = d.regs := rfl
@[simp] theorem Dev.onSec_snap (d : Dev) (s : Sec) (f : SecState → SecState) : (d.onSec s f).snap = d.snap := rfl
@[simp] theorem Dev.onSec_fc (d : Dev) (s : Sec) (f : SecState → SecState) : (d.onSec s f).fc = d.fc := rfl
@[simp] theorem Dev.onSec_isl (d : Dev) (s : Sec) (f : SecState → SecState) : (d.onSec s f).isl = d.isl := rfl
@[simp] theorem Dev.onSec_safe (d : Dev) (s : Sec) (f : SecState → SecState) : (d.onSec s f).safe = d.safe := rfl
@[simp] theorem Dev.onSec_points (d : Dev) (s : Sec) (f : SecState → SecState) : (d.onSec s f).points = d.points := rfl
@[simp] theorem Dev.onSec_pulses (d : Dev) (s : Sec) (f : SecState → SecState) : (d.onSec s f).pulses = d.pulses := rfl
@[simp] theorem Dev.onSec_aux (d : Dev) (s : Sec) (f : SecState → SecState) : (d.onSec s f).aux = d.aux := rfl
@[simp] theorem Dev.onSec_inj (d : Dev) (s : Sec) (f : SecState → SecState) : (d.onSec s f).inj = d.inj := rfl
@[simp] theorem Dev.onSec_keep (d : Dev) (s : Sec) (f : SecState → SecState) : (d.onSec s f).keep = d.keep := rfl
@[simp] theorem Dev.onSec_mBase (d : Dev) (s : Sec) (f : SecState → SecState) : (d.onSec s f).mBase = d.mBase := rfl
@[simp] theorem Dev.onSec_report (d : Dev) (s : Sec) (f : SecState → SecState) : (d.onSec s f).report = d.report := rfl
@[simp] theorem Dev.onSec_rpt (d : Dev) (s : Sec) (f : SecState → SecState) : (d.onSec s f).rpt = d.rpt := rfl
@[simp] theorem Dev.onSec_rptWait (d : Dev) (s : Sec) (f : SecState → SecState) : (d.onSec s f).rptWait = d.rptWait := rfl
@[simp] theorem Dev.onSec_rptRecent (d : Dev) (s : Sec) (f : SecState → SecState) : (d.onSec s f).rptRecent = d.rptRecent := rfl
@[simp] theorem Dev.onSec_crypto (d : Dev) (s : Sec) (f : SecState → SecState) : (d.onSec s f).crypto = d.crypto := rfl
@[simp] theorem Dev.onSec_cryptoOn (d : Dev) (s : Sec) (f : SecState → SecState) : (d.onSec s f).cryptoOn = d.cryptoOn := rfl
@[simp] theorem Dev.onSec_nvOut (d : Dev) (s : Sec) (f : SecState → SecState) : (d.onSec s f).nvOut = d.nvOut := rfl
@[simp] theorem Dev.onSec_policy (d : Dev) (s : Sec) (f : SecState → SecState) : (d.onSec s f).policy = d.policy := rfl
@[simp] theorem Dev.onSec_plls (d : Dev) (s : Sec) (f : SecState → SecState) : (d.onSec s f).plls = d.plls := rfl
@[simp] theorem Dev.onSec_rcPpm (d : Dev) (s : Sec) (f : SecState → SecState) : (d.onSec s f).rcPpm = d.rcPpm := rfl
@[simp] theorem Dev.onSec_time (d : Dev) (s : Sec) (f : SecState → SecState) : (d.onSec s f).time = d.time := rfl
@[simp] theorem Dev.onSec_eth (d : Dev) (s : Sec) (f : SecState → SecState) : (d.onSec s f).eth = d.eth := rfl
@[simp] theorem Dev.onSec_pool (d : Dev) (s : Sec) (f : SecState → SecState) : (d.onSec s f).pool = d.pool := rfl
@[simp] theorem Dev.onSec_can (d : Dev) (s : Sec) (f : SecState → SecState) : (d.onSec s f).can = d.can := rfl
@[simp] theorem Dev.onSec_uart (d : Dev) (s : Sec) (f : SecState → SecState) : (d.onSec s f).uart = d.uart := rfl
@[simp] theorem Dev.onSec_i2c (d : Dev) (s : Sec) (f : SecState → SecState) : (d.onSec s f).i2c = d.i2c := rfl
@[simp] theorem Dev.onSec_dl (d : Dev) (s : Sec) (f : SecState → SecState) : (d.onSec s f).dl = d.dl := rfl
@[simp] theorem Dev.onSec_hp (d : Dev) (s : Sec) (f : SecState → SecState) : (d.onSec s f).hp = d.hp := rfl
@[simp] theorem Dev.onSec_rwpBase (d : Dev) (s : Sec) (f : SecState → SecState) : (d.onSec s f).rwpBase = d.rwpBase := rfl
@[simp] theorem Dev.onSec_rwpSheet (d : Dev) (s : Sec) (f : SecState → SecState) : (d.onSec s f).rwpSheet = d.rwpSheet := rfl
@[simp] theorem Dev.onSec_held (d : Dev) (s : Sec) (f : SecState → SecState) : (d.onSec s f).held = d.held := rfl
@[simp] theorem Dev.onSec_up (d : Dev) (s : Sec) (f : SecState → SecState) : (d.onSec s f).up = d.up := rfl
@[simp] theorem Dev.onSec_freeCount (d : Dev) (s : Sec) (f : SecState → SecState) : (d.onSec s f).freeCount = d.freeCount := rfl

@[simp] theorem Dev.secPut_regs (d : Dev) (s : Sec) (a : Nat) (f : Field) (v : Nat) : (d.secPut s a f v).regs = d.regs := rfl
@[simp] theorem Dev.secPut_snap (d : Dev) (s : Sec) (a : Nat) (f : Field) (v : Nat) : (d.secPut s a f v).snap = d.snap := rfl
@[simp] theorem Dev.secPut_fc (d : Dev) (s : Sec) (a : Nat) (f : Field) (v : Nat) : (d.secPut s a f v).fc = d.fc := rfl
@[simp] theorem Dev.secPut_isl (d : Dev) (s : Sec) (a : Nat) (f : Field) (v : Nat) : (d.secPut s a f v).isl = d.isl := rfl
@[simp] theorem Dev.secPut_safe (d : Dev) (s : Sec) (a : Nat) (f : Field) (v : Nat) : (d.secPut s a f v).safe = d.safe := rfl
@[simp] theorem Dev.secPut_points (d : Dev) (s : Sec) (a : Nat) (f : Field) (v : Nat) : (d.secPut s a f v).points = d.points := rfl
@[simp] theorem Dev.secPut_pulses (d : Dev) (s : Sec) (a : Nat) (f : Field) (v : Nat) : (d.secPut s a f v).pulses = d.pulses := rfl
@[simp] theorem Dev.secPut_aux (d : Dev) (s : Sec) (a : Nat) (f : Field) (v : Nat) : (d.secPut s a f v).aux = d.aux := rfl
@[simp] theorem Dev.secPut_inj (d : Dev) (s : Sec) (a : Nat) (f : Field) (v : Nat) : (d.secPut s a f v).inj = d.inj := rfl
@[simp] theorem Dev.secPut_keep (d : Dev) (s : Sec) (a : Nat) (f : Field) (v : Nat) : (d.secPut s a f v).keep = d.keep := rfl
@[simp] theorem Dev.secPut_mBase (d : Dev) (s : Sec) (a : Nat) (f : Field) (v : Nat) : (d.secPut s a f v).mBase = d.mBase := rfl
@[simp] theorem Dev.secPut_report (d : Dev) (s : Sec) (a : Nat) (f : Field) (v : Nat) : (d.secPut s a f v).report = d.report := rfl
@[simp] theorem Dev.secPut_rpt (d : Dev) (s : Sec) (a : Nat) (f : Field) (v : Nat) : (d.secPut s a f v).rpt = d.rpt := rfl
@[simp] theorem Dev.secPut_rptWait (d : Dev) (s : Sec) (a : Nat) (f : Field) (v : Nat) : (d.secPut s a f v).rptWait = d.rptWait := rfl
@[simp] theorem Dev.secPut_rptRecent (d : Dev) (s : Sec) (a : Nat) (f : Field) (v : Nat) : (d.secPut s a f v).rptRecent = d.rptRecent := rfl
@[simp] theorem Dev.secPut_crypto (d : Dev) (s : Sec) (a : Nat) (f : Field) (v : Nat) : (d.secPut s a f v).crypto = d.crypto := rfl
@[simp] theorem Dev.secPut_cryptoOn (d : Dev) (s : Sec) (a : Nat) (f : Field) (v : Nat) : (d.secPut s a f v).cryptoOn = d.cryptoOn := rfl
@[simp] theorem Dev.secPut_nvOut (d : Dev) (s : Sec) (a : Nat) (f : Field) (v : Nat) : (d.secPut s a f v).nvOut = d.nvOut := rfl
@[simp] theorem Dev.secPut_policy (d : Dev) (s : Sec) (a : Nat) (f : Field) (v : Nat) : (d.secPut s a f v).policy = d.policy := rfl
@[simp] theorem Dev.secPut_plls (d : Dev) (s : Sec) (a : Nat) (f : Field) (v : Nat) : (d.secPut s a f v).plls = d.plls := rfl
@[simp] theorem Dev.secPut_rcPpm (d : Dev) (s : Sec) (a : Nat) (f : Field) (v : Nat) : (d.secPut s a f v).rcPpm = d.rcPpm := rfl
@[simp] theorem Dev.secPut_time (d : Dev) (s : Sec) (a : Nat) (f : Field) (v : Nat) : (d.secPut s a f v).time = d.time := rfl
@[simp] theorem Dev.secPut_eth (d : Dev) (s : Sec) (a : Nat) (f : Field) (v : Nat) : (d.secPut s a f v).eth = d.eth := rfl
@[simp] theorem Dev.secPut_pool (d : Dev) (s : Sec) (a : Nat) (f : Field) (v : Nat) : (d.secPut s a f v).pool = d.pool := rfl
@[simp] theorem Dev.secPut_can (d : Dev) (s : Sec) (a : Nat) (f : Field) (v : Nat) : (d.secPut s a f v).can = d.can := rfl
@[simp] theorem Dev.secPut_uart (d : Dev) (s : Sec) (a : Nat) (f : Field) (v : Nat) : (d.secPut s a f v).uart = d.uart := rfl
@[simp] theorem Dev.secPut_i2c (d : Dev) (s : Sec) (a : Nat) (f : Field) (v : Nat) : (d.secPut s a f v).i2c = d.i2c := rfl
@[simp] theorem Dev.secPut_dl (d : Dev) (s : Sec) (a : Nat) (f : Field) (v : Nat) : (d.secPut s a f v).dl = d.dl := rfl
@[simp] theorem Dev.secPut_hp (d : Dev) (s : Sec) (a : Nat) (f : Field) (v : Nat) : (d.secPut s a f v).hp = d.hp := rfl
@[simp] theorem Dev.secPut_rwpBase (d : Dev) (s : Sec) (a : Nat) (f : Field) (v : Nat) : (d.secPut s a f v).rwpBase = d.rwpBase := rfl
@[simp] theorem Dev.secPut_rwpSheet (d : Dev) (s : Sec) (a : Nat) (f : Field) (v : Nat) : (d.secPut s a f v).rwpSheet = d.rwpSheet := rfl
@[simp] theorem Dev.secPut_held (d : Dev) (s : Sec) (a : Nat) (f : Field) (v : Nat) : (d.secPut s a f v).held = d.held := rfl
@[simp] theorem Dev.secPut_up (d : Dev) (s : Sec) (a : Nat) (f : Field) (v : Nat) : (d.secPut s a f v).up = d.up := rfl
@[simp] theorem Dev.secPut_freeCount (d : Dev) (s : Sec) (a : Nat) (f : Field) (v : Nat) : (d.secPut s a f v).freeCount = d.freeCount := rfl

@[simp] theorem Dev.pulse_regs (d : Dev) (n : Nat) : (d.pulse n).regs = d.regs := rfl
@[simp] theorem Dev.pulse_snap (d : Dev) (n : Nat) : (d.pulse n).snap = d.snap := rfl
@[simp] theorem Dev.pulse_sec (d : Dev) (n : Nat) : (d.pulse n).sec = d.sec := rfl
@[simp] theorem Dev.pulse_isl (d : Dev) (n : Nat) : (d.pulse n).isl = d.isl := rfl
@[simp] theorem Dev.pulse_safe (d : Dev) (n : Nat) : (d.pulse n).safe = d.safe := rfl
@[simp] theorem Dev.pulse_points (d : Dev) (n : Nat) : (d.pulse n).points = d.points := rfl
@[simp] theorem Dev.pulse_pulses (d : Dev) (n : Nat) : (d.pulse n).pulses = d.pulses := rfl
@[simp] theorem Dev.pulse_aux (d : Dev) (n : Nat) : (d.pulse n).aux = d.aux := rfl
@[simp] theorem Dev.pulse_inj (d : Dev) (n : Nat) : (d.pulse n).inj = d.inj := rfl
@[simp] theorem Dev.pulse_keep (d : Dev) (n : Nat) : (d.pulse n).keep = d.keep := rfl
@[simp] theorem Dev.pulse_mBase (d : Dev) (n : Nat) : (d.pulse n).mBase = d.mBase := rfl
@[simp] theorem Dev.pulse_report (d : Dev) (n : Nat) : (d.pulse n).report = d.report := rfl
@[simp] theorem Dev.pulse_rpt (d : Dev) (n : Nat) : (d.pulse n).rpt = d.rpt := rfl
@[simp] theorem Dev.pulse_rptWait (d : Dev) (n : Nat) : (d.pulse n).rptWait = d.rptWait := rfl
@[simp] theorem Dev.pulse_rptRecent (d : Dev) (n : Nat) : (d.pulse n).rptRecent = d.rptRecent := rfl
@[simp] theorem Dev.pulse_crypto (d : Dev) (n : Nat) : (d.pulse n).crypto = d.crypto := rfl
@[simp] theorem Dev.pulse_cryptoOn (d : Dev) (n : Nat) : (d.pulse n).cryptoOn = d.cryptoOn := rfl
@[simp] theorem Dev.pulse_nvOut (d : Dev) (n : Nat) : (d.pulse n).nvOut = d.nvOut := rfl
@[simp] theorem Dev.pulse_policy (d : Dev) (n : Nat) : (d.pulse n).policy = d.policy := rfl
@[simp] theorem Dev.pulse_plls (d : Dev) (n : Nat) : (d.pulse n).plls = d.plls := rfl
@[simp] theorem Dev.pulse_rcPpm (d : Dev) (n : Nat) : (d.pulse n).rcPpm = d.rcPpm := rfl
@[simp] theorem Dev.pulse_time (d : Dev) (n : Nat) : (d.pulse n).time = d.time := rfl
@[simp] theorem Dev.pulse_eth (d : Dev) (n : Nat) : (d.pulse n).eth = d.eth := rfl
@[simp] theorem Dev.pulse_pool (d : Dev) (n : Nat) : (d.pulse n).pool = d.pool := rfl
@[simp] theorem Dev.pulse_can (d : Dev) (n : Nat) : (d.pulse n).can = d.can := rfl
@[simp] theorem Dev.pulse_uart (d : Dev) (n : Nat) : (d.pulse n).uart = d.uart := rfl
@[simp] theorem Dev.pulse_i2c (d : Dev) (n : Nat) : (d.pulse n).i2c = d.i2c := rfl
@[simp] theorem Dev.pulse_dl (d : Dev) (n : Nat) : (d.pulse n).dl = d.dl := rfl
@[simp] theorem Dev.pulse_hp (d : Dev) (n : Nat) : (d.pulse n).hp = d.hp := rfl
@[simp] theorem Dev.pulse_rwpBase (d : Dev) (n : Nat) : (d.pulse n).rwpBase = d.rwpBase := rfl
@[simp] theorem Dev.pulse_rwpSheet (d : Dev) (n : Nat) : (d.pulse n).rwpSheet = d.rwpSheet := rfl
@[simp] theorem Dev.pulse_held (d : Dev) (n : Nat) : (d.pulse n).held = d.held := rfl
@[simp] theorem Dev.pulse_up (d : Dev) (n : Nat) : (d.pulse n).up = d.up := rfl
@[simp] theorem Dev.pulse_freeCount (d : Dev) (n : Nat) : (d.pulse n).freeCount = d.freeCount := rfl

@[simp] theorem Dev.hold_regs (d : Dev) (n : Nat) (b : Bool) : (d.hold n b).regs = d.regs := rfl
@[simp] theorem Dev.hold_snap (d : Dev) (n : Nat) (b : Bool) : (d.hold n b).snap = d.snap := rfl
@[simp] theorem Dev.hold_sec (d : Dev) (n : Nat) (b : Bool) : (d.hold n b).sec = d.sec := rfl
@[simp] theorem Dev.hold_isl (d : Dev) (n : Nat) (b : Bool) : (d.hold n b).isl = d.isl := rfl
@[simp] theorem Dev.hold_safe (d : Dev) (n : Nat) (b : Bool) : (d.hold n b).safe = d.safe := rfl
@[simp] theorem Dev.hold_points (d : Dev) (n : Nat) (b : Bool) : (d.hold n b).points = d.points := rfl
@[simp] theorem Dev.hold_pulses (d : Dev) (n : Nat) (b : Bool) : (d.hold n b).pulses = d.pulses := rfl
@[simp] theorem Dev.hold_aux (d : Dev) (n : Nat) (b : Bool) : (d.hold n b).aux = d.aux := rfl
@[simp] theorem Dev.hold_inj (d : Dev) (n : Nat) (b : Bool) : (d.hold n b).inj = d.inj := rfl
@[simp] theorem Dev.hold_keep (d : Dev) (n : Nat) (b : Bool) : (d.hold n b).keep = d.keep := rfl
@[simp] theorem Dev.hold_mBase (d : Dev) (n : Nat) (b : Bool) : (d.hold n b).mBase = d.mBase := rfl
@[simp] theorem Dev.hold_report (d : Dev) (n : Nat) (b : Bool) : (d.hold n b).report = d.report := rfl
@[simp] theorem Dev.hold_rpt (d : Dev) (n : Nat) (b : Bool) : (d.hold n b).rpt = d.rpt := rfl
@[simp] theorem Dev.hold_rptWait (d : Dev) (n : Nat) (b : Bool) : (d.hold n b).rptWait = d.rptWait := rfl
@[simp] theorem Dev.hold_rptRecent (d : Dev) (n : Nat) (b : Bool) : (d.hold n b).rptRecent = d.rptRecent := rfl
@[simp] theorem Dev.hold_crypto (d : Dev) (n : Nat) (b : Bool) : (d.hold n b).crypto = d.crypto := rfl
@[simp] theorem Dev.hold_cryptoOn (d : Dev) (n : Nat) (b : Bool) : (d.hold n b).cryptoOn = d.cryptoOn := rfl
@[simp] theorem Dev.hold_nvOut (d : Dev) (n : Nat) (b : Bool) : (d.hold n b).nvOut = d.nvOut := rfl
@[simp] theorem Dev.hold_policy (d : Dev) (n : Nat) (b : Bool) : (d.hold n b).policy = d.policy := rfl
@[simp] theorem Dev.hold_plls (d : Dev) (n : Nat) (b : Bool) : (d.hold n b).plls = d.plls := rfl
@[simp] theorem Dev.hold_rcPpm (d : Dev) (n : Nat) (b : Bool) : (d.hold n b).rcPpm = d.rcPpm := rfl
@[simp] theorem Dev.hold_time (d : Dev) (n : Nat) (b : Bool) : (d.hold n b).time = d.time := rfl
@[simp] theorem Dev.hold_eth (d : Dev) (n : Nat) (b : Bool) : (d.hold n b).eth = d.eth := rfl
@[simp] theorem Dev.hold_pool (d : Dev) (n : Nat) (b : Bool) : (d.hold n b).pool = d.pool := rfl
@[simp] theorem Dev.hold_can (d : Dev) (n : Nat) (b : Bool) : (d.hold n b).can = d.can := rfl
@[simp] theorem Dev.hold_uart (d : Dev) (n : Nat) (b : Bool) : (d.hold n b).uart = d.uart := rfl
@[simp] theorem Dev.hold_i2c (d : Dev) (n : Nat) (b : Bool) : (d.hold n b).i2c = d.i2c := rfl
@[simp] theorem Dev.hold_dl (d : Dev) (n : Nat) (b : Bool) : (d.hold n b).dl = d.dl := rfl
@[simp] theorem Dev.hold_hp (d : Dev) (n : Nat) (b : Bool) : (d.hold n b).hp = d.hp := rfl
@[simp] theorem Dev.hold_rwpBase (d : Dev) (n : Nat) (b : Bool) : (d.hold n b).rwpBase = d.rwpBase := rfl
@[simp] theorem Dev.hold_rwpSheet (d : Dev) (n : Nat) (b : Bool) : (d.hold n b).rwpSheet = d.rwpSheet := rfl
@[simp] theorem Dev.hold_held (d : Dev) (n : Nat) (b : Bool) : (d.hold n b).held = d.held := rfl
@[simp] theorem Dev.hold_up (d : Dev) (n : Nat) (b : Bool) : (d.hold n b).up = d.up := rfl
@[simp] theorem Dev.hold_freeCount (d : Dev) (n : Nat) (b : Bool) : (d.hold n b).freeCount = d.freeCount := rfl

@[simp] theorem Dev.tickFree_regs (d : Dev)  : (d.tickFree).regs = d.regs := rfl
@[simp] theorem Dev.tickFree_snap (d : Dev)  : (d.tickFree).snap = d.snap := rfl
@[simp] theorem Dev.tickFree_sec (d : Dev)  : (d.tickFree).sec = d.sec := rfl
@[simp] theorem Dev.tickFree_fc (d : Dev)  : (d.tickFree).fc = d.fc := rfl
@[simp] theorem Dev.tickFree_isl (d : Dev)  : (d.tickFree).isl = d.isl := rfl
@[simp] theorem Dev.tickFree_safe (d : Dev)  : (d.tickFree).safe = d.safe := rfl
@[simp] theorem Dev.tickFree_points (d : Dev)  : (d.tickFree).points = d.points := rfl
@[simp] theorem Dev.tickFree_pulses (d : Dev)  : (d.tickFree).pulses = d.pulses := rfl
@[simp] theorem Dev.tickFree_aux (d : Dev)  : (d.tickFree).aux = d.aux := rfl
@[simp] theorem Dev.tickFree_inj (d : Dev)  : (d.tickFree).inj = d.inj := rfl
@[simp] theorem Dev.tickFree_keep (d : Dev)  : (d.tickFree).keep = d.keep := rfl
@[simp] theorem Dev.tickFree_mBase (d : Dev)  : (d.tickFree).mBase = d.mBase := rfl
@[simp] theorem Dev.tickFree_report (d : Dev)  : (d.tickFree).report = d.report := rfl
@[simp] theorem Dev.tickFree_rpt (d : Dev)  : (d.tickFree).rpt = d.rpt := rfl
@[simp] theorem Dev.tickFree_rptWait (d : Dev)  : (d.tickFree).rptWait = d.rptWait := rfl
@[simp] theorem Dev.tickFree_rptRecent (d : Dev)  : (d.tickFree).rptRecent = d.rptRecent := rfl
@[simp] theorem Dev.tickFree_crypto (d : Dev)  : (d.tickFree).crypto = d.crypto := rfl
@[simp] theorem Dev.tickFree_cryptoOn (d : Dev)  : (d.tickFree).cryptoOn = d.cryptoOn := rfl
@[simp] theorem Dev.tickFree_nvOut (d : Dev)  : (d.tickFree).nvOut = d.nvOut := rfl
@[simp] theorem Dev.tickFree_policy (d : Dev)  : (d.tickFree).policy = d.policy := rfl
@[simp] theorem Dev.tickFree_plls (d : Dev)  : (d.tickFree).plls = d.plls := rfl
@[simp] theorem Dev.tickFree_rcPpm (d : Dev)  : (d.tickFree).rcPpm = d.rcPpm := rfl
@[simp] theorem Dev.tickFree_time (d : Dev)  : (d.tickFree).time = d.time := rfl
@[simp] theorem Dev.tickFree_eth (d : Dev)  : (d.tickFree).eth = d.eth := rfl
@[simp] theorem Dev.tickFree_pool (d : Dev)  : (d.tickFree).pool = d.pool := rfl
@[simp] theorem Dev.tickFree_can (d : Dev)  : (d.tickFree).can = d.can := rfl
@[simp] theorem Dev.tickFree_uart (d : Dev)  : (d.tickFree).uart = d.uart := rfl
@[simp] theorem Dev.tickFree_i2c (d : Dev)  : (d.tickFree).i2c = d.i2c := rfl
@[simp] theorem Dev.tickFree_dl (d : Dev)  : (d.tickFree).dl = d.dl := rfl
@[simp] theorem Dev.tickFree_hp (d : Dev)  : (d.tickFree).hp = d.hp := rfl
@[simp] theorem Dev.tickFree_rwpBase (d : Dev)  : (d.tickFree).rwpBase = d.rwpBase := rfl
@[simp] theorem Dev.tickFree_rwpSheet (d : Dev)  : (d.tickFree).rwpSheet = d.rwpSheet := rfl
@[simp] theorem Dev.tickFree_held (d : Dev)  : (d.tickFree).held = d.held := rfl
@[simp] theorem Dev.tickFree_up (d : Dev)  : (d.tickFree).up = d.up := rfl

@[simp] theorem Dev.badKey_snap (d : Dev)  : (d.badKey).snap = d.snap := rfl
@[simp] theorem Dev.badKey_sec (d : Dev)  : (d.badKey).sec = d.sec := rfl
@[simp] theorem Dev.badKey_fc (d : Dev)  : (d.badKey).fc = d.fc := rfl
@[simp] theorem Dev.badKey_isl (d : Dev)  : (d.badKey).isl = d.isl := rfl
@[simp] theorem Dev.badKey_safe (d : Dev)  : (d.badKey).safe = d.safe := rfl
@[simp] theorem Dev.badKey_points (d : Dev)  : (d.badKey).points = d.points := rfl
@[simp] theorem Dev.badKey_pulses (d : Dev)  : (d.badKey).pulses = d.pulses := rfl
@[simp] theorem Dev.badKey_aux (d : Dev)  : (d.badKey).aux = d.aux := rfl
@[simp] theorem Dev.badKey_inj (d : Dev)  : (d.badKey).inj = d.inj := rfl
@[simp] theorem Dev.badKey_keep (d : Dev)  : (d.badKey).keep = d.keep := rfl
@[simp] theorem Dev.badKey_mBase (d : Dev)  : (d.badKey).mBase = d.mBase := rfl
@[simp] theorem Dev.badKey_report (d : Dev)  : (d.badKey).report = d.report := rfl
@[simp] theorem Dev.badKey_rpt (d : Dev)  : (d.badKey).rpt = d.rpt := rfl
@[simp] theorem Dev.badKey_rptWait (d : Dev)  : (d.badKey).rptWait = d.rptWait := rfl
@[simp] theorem Dev.badKey_rptRecent (d : Dev)  : (d.badKey).rptRecent = d.rptRecent := rfl
@[simp] theorem Dev.badKey_crypto (d : Dev)  : (d.badKey).crypto = d.crypto := rfl
@[simp] theorem Dev.badKey_cryptoOn (d : Dev)  : (d.badKey).cryptoOn = d.cryptoOn := rfl
@[simp] theorem Dev.badKey_nvOut (d : Dev)  : (d.badKey).nvOut = d.nvOut := rfl
@[simp] theorem Dev.badKey_policy (d : Dev)  : (d.badKey).policy = d.policy := rfl
@[simp] theorem Dev.badKey_plls (d : Dev)  : (d.badKey).plls = d.plls := rfl
@[simp] theorem Dev.badKey_rcPpm (d : Dev)  : (d.badKey).rcPpm = d.rcPpm := rfl
@[simp] theorem Dev.badKey_time (d : Dev)  : (d.badKey).time = d.time := rfl
@[simp] theorem Dev.badKey_eth (d : Dev)  : (d.badKey).eth = d.eth := rfl
@[simp] theorem Dev.badKey_pool (d : Dev)  : (d.badKey).pool = d.pool := rfl
@[simp] theorem Dev.badKey_can (d : Dev)  : (d.badKey).can = d.can := rfl
@[simp] theorem Dev.badKey_uart (d : Dev)  : (d.badKey).uart = d.uart := rfl
@[simp] theorem Dev.badKey_i2c (d : Dev)  : (d.badKey).i2c = d.i2c := rfl
@[simp] theorem Dev.badKey_dl (d : Dev)  : (d.badKey).dl = d.dl := rfl
@[simp] theorem Dev.badKey_hp (d : Dev)  : (d.badKey).hp = d.hp := rfl
@[simp] theorem Dev.badKey_rwpBase (d : Dev)  : (d.badKey).rwpBase = d.rwpBase := rfl
@[simp] theorem Dev.badKey_rwpSheet (d : Dev)  : (d.badKey).rwpSheet = d.rwpSheet := rfl
@[simp] theorem Dev.badKey_held (d : Dev)  : (d.badKey).held = d.held := rfl
@[simp] theorem Dev.badKey_up (d : Dev)  : (d.badKey).up = d.up := rfl
@[simp] theorem Dev.badKey_freeCount (d : Dev)  : (d.badKey).freeCount = d.freeCount := rfl

@[simp] theorem Dev.snapWr_regs (d : Dev) (k : Port) (a : Nat) (v : W) : (d.snapWr k a v).regs = d.regs := rfl
@[simp] theorem Dev.snapWr_sec (d : Dev) (k : Port) (a : Nat) (v : W) : (d.snapWr k a v).sec = d.sec := rfl
@[simp] theorem Dev.snapWr_fc (d : Dev) (k : Port) (a : Nat) (v : W) : (d.snapWr k a v).fc = d.fc := rfl
@[simp] theorem Dev.snapWr_isl (d : Dev) (k : Port) (a : Nat) (v : W) : (d.snapWr k a v).isl = d.isl := rfl
@[simp] theorem Dev.snapWr_safe (d : Dev) (k : Port) (a : Nat) (v : W) : (d.snapWr k a v).safe = d.safe := rfl
@[simp] theorem Dev.snapWr_points (d : Dev) (k : Port) (a : Nat) (v : W) : (d.snapWr k a v).points = d.points := rfl
@[simp] theorem Dev.snapWr_pulses (d : Dev) (k : Port) (a : Nat) (v : W) : (d.snapWr k a v).pulses = d.pulses := rfl
@[simp] theorem Dev.snapWr_aux (d : Dev) (k : Port) (a : Nat) (v : W) : (d.snapWr k a v).aux = d.aux := rfl
@[simp] theorem Dev.snapWr_inj (d : Dev) (k : Port) (a : Nat) (v : W) : (d.snapWr k a v).inj = d.inj := rfl
@[simp] theorem Dev.snapWr_keep (d : Dev) (k : Port) (a : Nat) (v : W) : (d.snapWr k a v).keep = d.keep := rfl
@[simp] theorem Dev.snapWr_mBase (d : Dev) (k : Port) (a : Nat) (v : W) : (d.snapWr k a v).mBase = d.mBase := rfl
@[simp] theorem Dev.snapWr_report (d : Dev) (k : Port) (a : Nat) (v : W) : (d.snapWr k a v).report = d.report := rfl
@[simp] theorem Dev.snapWr_rpt (d : Dev) (k : Port) (a : Nat) (v : W) : (d.snapWr k a v).rpt = d.rpt := rfl
@[simp] theorem Dev.snapWr_rptWait (d : Dev) (k : Port) (a : Nat) (v : W) : (d.snapWr k a v).rptWait = d.rptWait := rfl
@[simp] theorem Dev.snapWr_rptRecent (d : Dev) (k : Port) (a : Nat) (v : W) : (d.snapWr k a v).rptRecent = d.rptRecent := rfl
@[simp] theorem Dev.snapWr_crypto (d : Dev) (k : Port) (a : Nat) (v : W) : (d.snapWr k a v).crypto = d.crypto := rfl
@[simp] theorem Dev.snapWr_cryptoOn (d : Dev) (k : Port) (a : Nat) (v : W) : (d.snapWr k a v).cryptoOn = d.cryptoOn := rfl
@[simp] theorem Dev.snapWr_nvOut (d : Dev) (k : Port) (a : Nat) (v : W) : (d.snapWr k a v).nvOut = d.nvOut := rfl
@[simp] theorem Dev.snapWr_policy (d : Dev) (k : Port) (a : Nat) (v : W) : (d.snapWr k a v).policy = d.policy := rfl
@[simp] theorem Dev.snapWr_plls (d : Dev) (k : Port) (a : Nat) (v : W) : (d.snapWr k a v).plls = d.plls := rfl
@[simp] theorem Dev.snapWr_rcPpm (d : Dev) (k : Port) (a : Nat) (v : W) : (d.snapWr k a v).rcPpm = d.rcPpm := rfl
@[simp] theorem Dev.snapWr_time (d : Dev) (k : Port) (a : Nat) (v : W) : (d.snapWr k a v).time = d.time := rfl
@[simp] theorem Dev.snapWr_eth (d : Dev) (k : Port) (a : Nat) (v : W) : (d.snapWr k a v).eth = d.eth := rfl
@[simp] theorem Dev.snapWr_pool (d : Dev) (k : Port) (a : Nat) (v : W) : (d.snapWr k a v).pool = d.pool := rfl
@[simp] theorem Dev.snapWr_can (d : Dev) (k : Port) (a : Nat) (v : W) : (d.snapWr k a v).can = d.can := rfl
@[simp] theorem Dev.snapWr_uart (d : Dev) (k : Port) (a : Nat) (v : W) : (d.snapWr k a v).uart = d.uart := rfl
@[simp] theorem Dev.snapWr_i2c (d : Dev) (k : Port) (a : Nat) (v : W) : (d.snapWr k a v).i2c = d.i2c := rfl
@[simp] theorem Dev.snapWr_dl (d : Dev) (k : Port) (a : Nat) (v : W) : (d.snapWr k a v).dl = d.dl := rfl
@[simp] theorem Dev.snapWr_hp (d : Dev) (k : Port) (a : Nat) (v : W) : (d.snapWr k a v).hp = d.hp := rfl
@[simp] theorem Dev.snapWr_rwpBase (d : Dev) (k : Port) (a : Nat) (v : W) : (d.snapWr k a v).rwpBase = d.rwpBase := rfl
@[simp] theorem Dev.snapWr_rwpSheet (d : Dev) (k : Port) (a : Nat) (v : W) : (d.snapWr k a v).rwpSheet = d.rwpSheet := rfl
@[simp] theorem Dev.snapWr_held (d : Dev) (k : Port) (a : Nat) (v : W) : (d.snapWr k a v).held = d.held := rfl
@[simp] theorem Dev.snapWr_up (d : Dev) (k : Port) (a : Nat) (v : W) : (d.snapWr k a v).up = d.up := rfl
@[simp] theorem Dev.snapWr_freeCount (d : Dev) (k : Port) (a : Nat) (v : W) : (d.snapWr k a v).freeCount = d.freeCount := rfl

@[simp] theorem Dev.setPll_regs (d : Dev) (p : Nat) (x : Pll) : (d.setPll p x).regs = d.regs := rfl
@[simp] theorem Dev.setPll_snap (d : Dev) (p : Nat) (x : Pll) : (d.setPll p x).snap = d.snap := rfl
@[simp] theorem Dev.setPll_sec (d : Dev) (p : Nat) (x : Pll) : (d.setPll p x).sec = d.sec := rfl
@[simp] theorem Dev.setPll_fc (d : Dev) (p : Nat) (x : Pll) : (d.setPll p x).fc = d.fc := rfl
@[simp] theorem Dev.setPll_isl (d : Dev) (p : Nat) (x : Pll) : (d.setPll p x).isl = d.isl := rfl
@[simp] theorem Dev.setPll_safe (d : Dev) (p : Nat) (x : Pll) : (d.setPll p x).safe = d.safe := rfl
@[simp] theorem Dev.setPll_points (d : Dev) (p : Nat) (x : Pll) : (d.setPll p x).points = d.points := rfl
@[simp] theorem Dev.setPll_pulses (d : Dev) (p : Nat) (x : Pll) : (d.setPll p x).pulses = d.pulses := rfl
@[simp] theorem Dev.setPll_aux (d : Dev) (p : Nat) (x : Pll) : (d.setPll p x).aux = d.aux := rfl
@[simp] theorem Dev.setPll_inj (d : Dev) (p : Nat) (x : Pll) : (d.setPll p x).inj = d.inj := rfl
@[simp] theorem Dev.setPll_keep (d : Dev) (p : Nat) (x : Pll) : (d.setPll p x).keep = d.keep := rfl
@[simp] theorem Dev.setPll_mBase (d : Dev) (p : Nat) (x : Pll) : (d.setPll p x).mBase = d.mBase := rfl
@[simp] theorem Dev.setPll_report (d : Dev) (p : Nat) (x : Pll) : (d.setPll p x).report = d.report := rfl
@[simp] theorem Dev.setPll_rpt (d : Dev) (p : Nat) (x : Pll) : (d.setPll p x).rpt = d.rpt := rfl
@[simp] theorem Dev.setPll_rptWait (d : Dev) (p : Nat) (x : Pll) : (d.setPll p x).rptWait = d.rptWait := rfl
@[simp] theorem Dev.setPll_rptRecent (d : Dev) (p : Nat) (x : Pll) : (d.setPll p x).rptRecent = d.rptRecent := rfl
@[simp] theorem Dev.setPll_crypto (d : Dev) (p : Nat) (x : Pll) : (d.setPll p x).crypto = d.crypto := rfl
@[simp] theorem Dev.setPll_cryptoOn (d : Dev) (p : Nat) (x : Pll) : (d.setPll p x).cryptoOn = d.cryptoOn := rfl
@[simp] theorem Dev.setPll_nvOut (d : Dev) (p : Nat) (x : Pll) : (d.setPll p x).nvOut = d.nvOut := rfl
@[simp] theorem Dev.setPll_policy (d : Dev) (p : Nat) (x : Pll) : (d.setPll p x).policy = d.policy := rfl
@[simp] theorem Dev.setPll_rcPpm (d : Dev) (p : Nat) (x : Pll) : (d.setPll p x).rcPpm = d.rcPpm := rfl
@[simp] theorem Dev.setPll_time (d : Dev) (p : Nat) (x : Pll) : (d.setPll p x).time = d.time := rfl
@[simp] theorem Dev.setPll_eth (d : Dev) (p : Nat) (x : Pll) : (d.setPll p x).eth = d.eth := rfl
@[simp] theorem Dev.setPll_pool (d : Dev) (p : Nat) (x : Pll) : (d.setPll p x).pool = d.pool := rfl
@[simp] theorem Dev.setPll_can (d : Dev) (p : Nat) (x : Pll) : (d.setPll p x).can = d.can := rfl
@[simp] theorem Dev.setPll_uart (d : Dev) (p : Nat) (x : Pll) : (d.setPll p x).uart = d.uart := rfl
@[simp] theorem Dev.setPll_i2c (d : Dev) (p : Nat) (x : Pll) : (d.setPll p x).i2c = d.i2c := rfl
@[simp] theorem Dev.setPll_dl (d : Dev) (p : Nat) (x : Pll) : (d.setPll p x).dl = d.dl := rfl
@[simp] theorem Dev.setPll_hp (d : Dev) (p : Nat) (x : Pll) : (d.setPll p x).hp = d.hp := rfl
@[simp] theorem Dev.setPll_rwpBase (d : Dev) (p : Nat) (x : Pll) : (d.setPll p x).rwpBase = d.rwpBase := rfl
@[simp] theorem Dev.setPll_rwpSheet (d : Dev) (p : Nat) (x : Pll) : (d.setPll p x).rwpSheet = d.rwpSheet := rfl
@[simp] theorem Dev.setPll_held (d : Dev) (p : Nat) (x : Pll) : (d.setPll p x).held = d.held := rfl
@[simp] theorem Dev.setPll_up (d : Dev) (p : Nat) (x : Pll) : (d.setPll p x).up = d.up := rfl
@[simp] theorem Dev.setPll_freeCount (d : Dev) (p : Nat) (x : Pll) : (d.setPll p x).freeCount = d.freeCount := rfl

@[simp] theorem SecState.wr_fc (d : SecState) (a : Nat) (v : W) : (d.wr a v).fc = d.fc := rfl
@[simp] theorem SecState.wr_accs (d : SecState) (a : Nat) (v : W) : (d.wr a v).accs = d.accs := rfl
@[simp] theorem SecState.wr_fifo (d : SecState) (a : Nat) (v : W) : (d.wr a v).fifo = d.fifo := rfl
@[simp] theorem SecState.wr_satPair (d : SecState) (a : Nat) (v : W) : (d.wr a v).satPair = d.satPair := rfl
@[simp] theorem SecState.wr_drain (d : SecState) (a : Nat) (v : W) : (d.wr a v).drain = d.drain := rfl
@[simp] theorem SecState.wr_lastClose (d : SecState) (a : Nat) (v : W) : (d.wr a v).lastClose = d.lastClose := rfl
@[simp] theorem SecState.wr_dec (d : SecState) (a : Nat) (v : W) : (d.wr a v).dec = d.dec := rfl
@[simp] theorem SecState.wr_wmHists (d : SecState) (a : Nat) (v : W) : (d.wr a v).wmHists = d.wmHists := rfl
@[simp] theorem SecState.wr_trig (d : SecState) (a : Nat) (v : W) : (d.wr a v).trig = d.trig := rfl
@[simp] theorem SecState.wr_now (d : SecState) (a : Nat) (v : W) : (d.wr a v).now = d.now := rfl
@[simp] theorem SecState.wr_legs (d : SecState) (a : Nat) (v : W) : (d.wr a v).legs = d.legs := rfl
@[simp] theorem SecState.wr_align (d : SecState) (a : Nat) (v : W) : (d.wr a v).align = d.align := rfl
@[simp] theorem SecState.wr_bridges (d : SecState) (a : Nat) (v : W) : (d.wr a v).bridges = d.bridges := rfl
@[simp] theorem SecState.wr_safe5 (d : SecState) (a : Nat) (v : W) : (d.wr a v).safe5 = d.safe5 := rfl
@[simp] theorem SecState.wr_eng (d : SecState) (a : Nat) (v : W) : (d.wr a v).eng = d.eng := rfl
@[simp] theorem SecState.wr_ast (d : SecState) (a : Nat) (v : W) : (d.wr a v).ast = d.ast := rfl
@[simp] theorem SecState.wr_couch (d : SecState) (a : Nat) (v : W) : (d.wr a v).couch = d.couch := rfl
@[simp] theorem SecState.wr_bootStop (d : SecState) (a : Nat) (v : W) : (d.wr a v).bootStop = d.bootStop := rfl
@[simp] theorem SecState.wr_mSheet (d : SecState) (a : Nat) (v : W) : (d.wr a v).mSheet = d.mSheet := rfl
@[simp] theorem SecState.wr_mProgA (d : SecState) (a : Nat) (v : W) : (d.wr a v).mProgA = d.mProgA := rfl
@[simp] theorem SecState.wr_mProgB (d : SecState) (a : Nat) (v : W) : (d.wr a v).mProgB = d.mProgB := rfl
@[simp] theorem SecState.wr_fixed (d : SecState) (a : Nat) (v : W) : (d.wr a v).fixed = d.fixed := rfl

@[simp] theorem SecState.put_fc (d : SecState) (a : Nat) (f : Field) (v : Nat) : (d.put a f v).fc = d.fc := rfl
@[simp] theorem SecState.put_accs (d : SecState) (a : Nat) (f : Field) (v : Nat) : (d.put a f v).accs = d.accs := rfl
@[simp] theorem SecState.put_fifo (d : SecState) (a : Nat) (f : Field) (v : Nat) : (d.put a f v).fifo = d.fifo := rfl
@[simp] theorem SecState.put_satPair (d : SecState) (a : Nat) (f : Field) (v : Nat) : (d.put a f v).satPair = d.satPair := rfl
@[simp] theorem SecState.put_drain (d : SecState) (a : Nat) (f : Field) (v : Nat) : (d.put a f v).drain = d.drain := rfl
@[simp] theorem SecState.put_lastClose (d : SecState) (a : Nat) (f : Field) (v : Nat) : (d.put a f v).lastClose = d.lastClose := rfl
@[simp] theorem SecState.put_dec (d : SecState) (a : Nat) (f : Field) (v : Nat) : (d.put a f v).dec = d.dec := rfl
@[simp] theorem SecState.put_wmHists (d : SecState) (a : Nat) (f : Field) (v : Nat) : (d.put a f v).wmHists = d.wmHists := rfl
@[simp] theorem SecState.put_trig (d : SecState) (a : Nat) (f : Field) (v : Nat) : (d.put a f v).trig = d.trig := rfl
@[simp] theorem SecState.put_now (d : SecState) (a : Nat) (f : Field) (v : Nat) : (d.put a f v).now = d.now := rfl
@[simp] theorem SecState.put_legs (d : SecState) (a : Nat) (f : Field) (v : Nat) : (d.put a f v).legs = d.legs := rfl
@[simp] theorem SecState.put_align (d : SecState) (a : Nat) (f : Field) (v : Nat) : (d.put a f v).align = d.align := rfl
@[simp] theorem SecState.put_bridges (d : SecState) (a : Nat) (f : Field) (v : Nat) : (d.put a f v).bridges = d.bridges := rfl
@[simp] theorem SecState.put_safe5 (d : SecState) (a : Nat) (f : Field) (v : Nat) : (d.put a f v).safe5 = d.safe5 := rfl
@[simp] theorem SecState.put_eng (d : SecState) (a : Nat) (f : Field) (v : Nat) : (d.put a f v).eng = d.eng := rfl
@[simp] theorem SecState.put_ast (d : SecState) (a : Nat) (f : Field) (v : Nat) : (d.put a f v).ast = d.ast := rfl
@[simp] theorem SecState.put_couch (d : SecState) (a : Nat) (f : Field) (v : Nat) : (d.put a f v).couch = d.couch := rfl
@[simp] theorem SecState.put_bootStop (d : SecState) (a : Nat) (f : Field) (v : Nat) : (d.put a f v).bootStop = d.bootStop := rfl
@[simp] theorem SecState.put_mSheet (d : SecState) (a : Nat) (f : Field) (v : Nat) : (d.put a f v).mSheet = d.mSheet := rfl
@[simp] theorem SecState.put_mProgA (d : SecState) (a : Nat) (f : Field) (v : Nat) : (d.put a f v).mProgA = d.mProgA := rfl
@[simp] theorem SecState.put_mProgB (d : SecState) (a : Nat) (f : Field) (v : Nat) : (d.put a f v).mProgB = d.mProgB := rfl
@[simp] theorem SecState.put_fixed (d : SecState) (a : Nat) (f : Field) (v : Nat) : (d.put a f v).fixed = d.fixed := rfl

@[simp] theorem SecState.putB_fc (d : SecState) (a : Nat) (f : Field) (b : Bool) : (d.putB a f b).fc = d.fc := rfl
@[simp] theorem SecState.putB_accs (d : SecState) (a : Nat) (f : Field) (b : Bool) : (d.putB a f b).accs = d.accs := rfl
@[simp] theorem SecState.putB_fifo (d : SecState) (a : Nat) (f : Field) (b : Bool) : (d.putB a f b).fifo = d.fifo := rfl
@[simp] theorem SecState.putB_satPair (d : SecState) (a : Nat) (f : Field) (b : Bool) : (d.putB a f b).satPair = d.satPair := rfl
@[simp] theorem SecState.putB_drain (d : SecState) (a : Nat) (f : Field) (b : Bool) : (d.putB a f b).drain = d.drain := rfl
@[simp] theorem SecState.putB_lastClose (d : SecState) (a : Nat) (f : Field) (b : Bool) : (d.putB a f b).lastClose = d.lastClose := rfl
@[simp] theorem SecState.putB_dec (d : SecState) (a : Nat) (f : Field) (b : Bool) : (d.putB a f b).dec = d.dec := rfl
@[simp] theorem SecState.putB_wmHists (d : SecState) (a : Nat) (f : Field) (b : Bool) : (d.putB a f b).wmHists = d.wmHists := rfl
@[simp] theorem SecState.putB_trig (d : SecState) (a : Nat) (f : Field) (b : Bool) : (d.putB a f b).trig = d.trig := rfl
@[simp] theorem SecState.putB_now (d : SecState) (a : Nat) (f : Field) (b : Bool) : (d.putB a f b).now = d.now := rfl
@[simp] theorem SecState.putB_legs (d : SecState) (a : Nat) (f : Field) (b : Bool) : (d.putB a f b).legs = d.legs := rfl
@[simp] theorem SecState.putB_align (d : SecState) (a : Nat) (f : Field) (b : Bool) : (d.putB a f b).align = d.align := rfl
@[simp] theorem SecState.putB_bridges (d : SecState) (a : Nat) (f : Field) (b : Bool) : (d.putB a f b).bridges = d.bridges := rfl
@[simp] theorem SecState.putB_safe5 (d : SecState) (a : Nat) (f : Field) (b : Bool) : (d.putB a f b).safe5 = d.safe5 := rfl
@[simp] theorem SecState.putB_eng (d : SecState) (a : Nat) (f : Field) (b : Bool) : (d.putB a f b).eng = d.eng := rfl
@[simp] theorem SecState.putB_ast (d : SecState) (a : Nat) (f : Field) (b : Bool) : (d.putB a f b).ast = d.ast := rfl
@[simp] theorem SecState.putB_couch (d : SecState) (a : Nat) (f : Field) (b : Bool) : (d.putB a f b).couch = d.couch := rfl
@[simp] theorem SecState.putB_bootStop (d : SecState) (a : Nat) (f : Field) (b : Bool) : (d.putB a f b).bootStop = d.bootStop := rfl
@[simp] theorem SecState.putB_mSheet (d : SecState) (a : Nat) (f : Field) (b : Bool) : (d.putB a f b).mSheet = d.mSheet := rfl
@[simp] theorem SecState.putB_mProgA (d : SecState) (a : Nat) (f : Field) (b : Bool) : (d.putB a f b).mProgA = d.mProgA := rfl
@[simp] theorem SecState.putB_mProgB (d : SecState) (a : Nat) (f : Field) (b : Bool) : (d.putB a f b).mProgB = d.mProgB := rfl
@[simp] theorem SecState.putB_fixed (d : SecState) (a : Nat) (f : Field) (b : Bool) : (d.putB a f b).fixed = d.fixed := rfl

@[simp] theorem SecState.bump_fc (d : SecState) (a : Nat) (f : Field) : (d.bump a f).fc = d.fc := rfl
@[simp] theorem SecState.bump_accs (d : SecState) (a : Nat) (f : Field) : (d.bump a f).accs = d.accs := rfl
@[simp] theorem SecState.bump_fifo (d : SecState) (a : Nat) (f : Field) : (d.bump a f).fifo = d.fifo := rfl
@[simp] theorem SecState.bump_satPair (d : SecState) (a : Nat) (f : Field) : (d.bump a f).satPair = d.satPair := rfl
@[simp] theorem SecState.bump_drain (d : SecState) (a : Nat) (f : Field) : (d.bump a f).drain = d.drain := rfl
@[simp] theorem SecState.bump_lastClose (d : SecState) (a : Nat) (f : Field) : (d.bump a f).lastClose = d.lastClose := rfl
@[simp] theorem SecState.bump_dec (d : SecState) (a : Nat) (f : Field) : (d.bump a f).dec = d.dec := rfl
@[simp] theorem SecState.bump_wmHists (d : SecState) (a : Nat) (f : Field) : (d.bump a f).wmHists = d.wmHists := rfl
@[simp] theorem SecState.bump_trig (d : SecState) (a : Nat) (f : Field) : (d.bump a f).trig = d.trig := rfl
@[simp] theorem SecState.bump_now (d : SecState) (a : Nat) (f : Field) : (d.bump a f).now = d.now := rfl
@[simp] theorem SecState.bump_legs (d : SecState) (a : Nat) (f : Field) : (d.bump a f).legs = d.legs := rfl
@[simp] theorem SecState.bump_align (d : SecState) (a : Nat) (f : Field) : (d.bump a f).align = d.align := rfl
@[simp] theorem SecState.bump_bridges (d : SecState) (a : Nat) (f : Field) : (d.bump a f).bridges = d.bridges := rfl
@[simp] theorem SecState.bump_safe5 (d : SecState) (a : Nat) (f : Field) : (d.bump a f).safe5 = d.safe5 := rfl
@[simp] theorem SecState.bump_eng (d : SecState) (a : Nat) (f : Field) : (d.bump a f).eng = d.eng := rfl
@[simp] theorem SecState.bump_ast (d : SecState) (a : Nat) (f : Field) : (d.bump a f).ast = d.ast := rfl
@[simp] theorem SecState.bump_couch (d : SecState) (a : Nat) (f : Field) : (d.bump a f).couch = d.couch := rfl
@[simp] theorem SecState.bump_bootStop (d : SecState) (a : Nat) (f : Field) : (d.bump a f).bootStop = d.bootStop := rfl
@[simp] theorem SecState.bump_mSheet (d : SecState) (a : Nat) (f : Field) : (d.bump a f).mSheet = d.mSheet := rfl
@[simp] theorem SecState.bump_mProgA (d : SecState) (a : Nat) (f : Field) : (d.bump a f).mProgA = d.mProgA := rfl
@[simp] theorem SecState.bump_mProgB (d : SecState) (a : Nat) (f : Field) : (d.bump a f).mProgB = d.mProgB := rfl
@[simp] theorem SecState.bump_fixed (d : SecState) (a : Nat) (f : Field) : (d.bump a f).fixed = d.fixed := rfl

@[simp] theorem SecState.pulse_regs (d : SecState) (n : Nat) : (d.pulse n).regs = d.regs := rfl
@[simp] theorem SecState.pulse_accs (d : SecState) (n : Nat) : (d.pulse n).accs = d.accs := rfl
@[simp] theorem SecState.pulse_fifo (d : SecState) (n : Nat) : (d.pulse n).fifo = d.fifo := rfl
@[simp] theorem SecState.pulse_satPair (d : SecState) (n : Nat) : (d.pulse n).satPair = d.satPair := rfl
@[simp] theorem SecState.pulse_drain (d : SecState) (n : Nat) : (d.pulse n).drain = d.drain := rfl
@[simp] theorem SecState.pulse_lastClose (d : SecState) (n : Nat) : (d.pulse n).lastClose = d.lastClose := rfl
@[simp] theorem SecState.pulse_dec (d : SecState) (n : Nat) : (d.pulse n).dec = d.dec := rfl
@[simp] theorem SecState.pulse_wmHists (d : SecState) (n : Nat) : (d.pulse n).wmHists = d.wmHists := rfl
@[simp] theorem SecState.pulse_trig (d : SecState) (n : Nat) : (d.pulse n).trig = d.trig := rfl
@[simp] theorem SecState.pulse_now (d : SecState) (n : Nat) : (d.pulse n).now = d.now := rfl
@[simp] theorem SecState.pulse_legs (d : SecState) (n : Nat) : (d.pulse n).legs = d.legs := rfl
@[simp] theorem SecState.pulse_align (d : SecState) (n : Nat) : (d.pulse n).align = d.align := rfl
@[simp] theorem SecState.pulse_bridges (d : SecState) (n : Nat) : (d.pulse n).bridges = d.bridges := rfl
@[simp] theorem SecState.pulse_safe5 (d : SecState) (n : Nat) : (d.pulse n).safe5 = d.safe5 := rfl
@[simp] theorem SecState.pulse_eng (d : SecState) (n : Nat) : (d.pulse n).eng = d.eng := rfl
@[simp] theorem SecState.pulse_ast (d : SecState) (n : Nat) : (d.pulse n).ast = d.ast := rfl
@[simp] theorem SecState.pulse_couch (d : SecState) (n : Nat) : (d.pulse n).couch = d.couch := rfl
@[simp] theorem SecState.pulse_bootStop (d : SecState) (n : Nat) : (d.pulse n).bootStop = d.bootStop := rfl
@[simp] theorem SecState.pulse_mSheet (d : SecState) (n : Nat) : (d.pulse n).mSheet = d.mSheet := rfl
@[simp] theorem SecState.pulse_mProgA (d : SecState) (n : Nat) : (d.pulse n).mProgA = d.mProgA := rfl
@[simp] theorem SecState.pulse_mProgB (d : SecState) (n : Nat) : (d.pulse n).mProgB = d.mProgB := rfl
@[simp] theorem SecState.pulse_fixed (d : SecState) (n : Nat) : (d.pulse n).fixed = d.fixed := rfl

@[simp] theorem SecState.hold_regs (d : SecState) (n : Nat) (b : Bool) : (d.hold n b).regs = d.regs := rfl
@[simp] theorem SecState.hold_accs (d : SecState) (n : Nat) (b : Bool) : (d.hold n b).accs = d.accs := rfl
@[simp] theorem SecState.hold_fifo (d : SecState) (n : Nat) (b : Bool) : (d.hold n b).fifo = d.fifo := rfl
@[simp] theorem SecState.hold_satPair (d : SecState) (n : Nat) (b : Bool) : (d.hold n b).satPair = d.satPair := rfl
@[simp] theorem SecState.hold_drain (d : SecState) (n : Nat) (b : Bool) : (d.hold n b).drain = d.drain := rfl
@[simp] theorem SecState.hold_lastClose (d : SecState) (n : Nat) (b : Bool) : (d.hold n b).lastClose = d.lastClose := rfl
@[simp] theorem SecState.hold_dec (d : SecState) (n : Nat) (b : Bool) : (d.hold n b).dec = d.dec := rfl
@[simp] theorem SecState.hold_wmHists (d : SecState) (n : Nat) (b : Bool) : (d.hold n b).wmHists = d.wmHists := rfl
@[simp] theorem SecState.hold_trig (d : SecState) (n : Nat) (b : Bool) : (d.hold n b).trig = d.trig := rfl
@[simp] theorem SecState.hold_now (d : SecState) (n : Nat) (b : Bool) : (d.hold n b).now = d.now := rfl
@[simp] theorem SecState.hold_legs (d : SecState) (n : Nat) (b : Bool) : (d.hold n b).legs = d.legs := rfl
@[simp] theorem SecState.hold_align (d : SecState) (n : Nat) (b : Bool) : (d.hold n b).align = d.align := rfl
@[simp] theorem SecState.hold_bridges (d : SecState) (n : Nat) (b : Bool) : (d.hold n b).bridges = d.bridges := rfl
@[simp] theorem SecState.hold_safe5 (d : SecState) (n : Nat) (b : Bool) : (d.hold n b).safe5 = d.safe5 := rfl
@[simp] theorem SecState.hold_eng (d : SecState) (n : Nat) (b : Bool) : (d.hold n b).eng = d.eng := rfl
@[simp] theorem SecState.hold_ast (d : SecState) (n : Nat) (b : Bool) : (d.hold n b).ast = d.ast := rfl
@[simp] theorem SecState.hold_couch (d : SecState) (n : Nat) (b : Bool) : (d.hold n b).couch = d.couch := rfl
@[simp] theorem SecState.hold_bootStop (d : SecState) (n : Nat) (b : Bool) : (d.hold n b).bootStop = d.bootStop := rfl
@[simp] theorem SecState.hold_mSheet (d : SecState) (n : Nat) (b : Bool) : (d.hold n b).mSheet = d.mSheet := rfl
@[simp] theorem SecState.hold_mProgA (d : SecState) (n : Nat) (b : Bool) : (d.hold n b).mProgA = d.mProgA := rfl
@[simp] theorem SecState.hold_mProgB (d : SecState) (n : Nat) (b : Bool) : (d.hold n b).mProgB = d.mProgB := rfl
@[simp] theorem SecState.hold_fixed (d : SecState) (n : Nat) (b : Bool) : (d.hold n b).fixed = d.fixed := rfl

end Sys2Proof.Machine
end

