-- ==== Sys2Proof/Laws/Faults.lean ====
section
/-! SUPPORT. What a detector does to its source pair (R260): the pair is driven, every other pair is untouched. -/

namespace Sys2Proof.Machine

@[simp] theorem Collector.pair_setPair_same (c : Collector) (n : Nat) (p : Pair) : (c.setPair n p).pair n = p :=
  Tbl.get_set_same _ _ _ _

theorem Collector.pair_setPair_other (c : Collector) {n m : Nat} (h : m ≠ n) (p : Pair) : (c.setPair n p).pair m = c.pair m :=
  Tbl.get_set_other _ _ h _

/-- An asserted source is driven. -/
theorem Collector.raised_pulse (c : Collector) (n : Nat) (inj : Bool) : (c.pulse n inj).raised n := by
  simp only [Collector.raised, Collector.pulse]
  split
  · next h => simpa using h
  · simp

theorem Collector.pair_pulse_other (c : Collector) {n m : Nat} (h : m ≠ n) (inj : Bool) : (c.pulse n inj).pair m = c.pair m := by
  simp only [Collector.pulse]
  split <;> exact Collector.pair_setPair_other c h _

/-- Asserting one source lets go of no other. -/
theorem Collector.raised_pulse_keep (c : Collector) (n m : Nat) (inj : Bool) (h : c.raised m) : (c.pulse n inj).raised m := by
  by_cases hm : m = n
  · subst hm; exact Collector.raised_pulse _ _ _
  · simpa [Collector.raised, Collector.pair_pulse_other c hm] using h

theorem Collector.pairsBut_pulse (c : Collector) (n : Nat) (inj : Bool) : c.pairsBut (c.pulse n inj) [n] := fun m hm =>
  Collector.pair_pulse_other c (by simpa using hm) inj

/-- A held source is driven as the detector says; one let go before its event has reached the collector stays driven for it. -/
theorem Collector.drive_hold (c : Collector) (n : Nat) (b inj : Bool) :
    ((c.hold n b inj).pair n).drive = (b || ((c.pair n).drive && !(c.pair n).level)) := by
  simp only [Collector.hold]
  cases b
  · cases h : ((c.pair n).drive && !(c.pair n).level) <;> simp_all
  · simp

theorem Collector.pair_hold_other (c : Collector) {n m : Nat} (h : m ≠ n) (b inj : Bool) : (c.hold n b inj).pair m = c.pair m := by
  simp only [Collector.hold]
  repeat' split
  all_goals exact Collector.pair_setPair_other c h _

theorem Collector.pairsBut_hold (c : Collector) (n : Nat) (b inj : Bool) : c.pairsBut (c.hold n b inj) [n] := fun m hm =>
  Collector.pair_hold_other c (by simpa using hm) b inj

@[simp] theorem Dev.fc_pulse (d : Dev) (n : Nat) : (d.pulse n).fc = d.fc.pulse n := rfl

@[simp] theorem Dev.fc_hold (d : Dev) (n : Nat) (b : Bool) : (d.hold n b).fc = d.fc.hold n b := rfl

@[simp] theorem SecState.fc_pulse (x : SecState) (n : Nat) : (x.pulse n).fc = x.fc.pulse n := rfl

@[simp] theorem SecState.fc_hold (x : SecState) (n : Nat) (b : Bool) : (x.hold n b).fc = x.fc.hold n b := rfl

end Sys2Proof.Machine
end

