-- ==== Sys2Proof/Laws/Gate.lean ====
section
/-! SUPPORT. What the gate stages and the bridge sequencers can change when they follow an event (R118 to R143, R204 to
R208): the levels and holds of the legs, the status and event counters of the gates, the forcing latches and the bridges,
and their fault sources. The carriers, the timing sets and every other part of the section stay. -/

namespace Sys2Proof.Machine

theorem LegState.sameCarrier_refl (L : LegState) : L.sameCarrier L := rfl

theorem LegState.sameCarrier_trans {A B C : LegState} (h : A.sameCarrier B) (g : B.sameCarrier C) : A.sameCarrier C := by
  unfold LegState.sameCarrier at *
  rw [h] at g
  exact g

theorem SecState.GateOnly.refl (x : SecState) : x.GateOnly x := ⟨fun _ _ => rfl, rfl, fun _ => rfl, fun _ h => h⟩

theorem SecState.GateOnly.trans {a b c : SecState} (h : a.GateOnly b) (g : b.GateOnly c) : a.GateOnly c where
  regs x hx := (g.regs x hx).trans (h.regs x hx)
  rest := by
    have h1 := h.rest
    have g1 := g.rest
    rw [h1] at g1
    exact g1
  carrier l := LegState.sameCarrier_trans (h.carrier l) (g.carrier l)
  kept n hn := g.kept n (h.kept n hn)

/-- Steps that each change only gates and sequencers do so together. -/
theorem SecState.GateOnly.foldl {α : Type} (f : SecState → α → SecState) (h : ∀ (x : SecState) (a : α), x.GateOnly (f x a)) (l : List α) :
    ∀ x : SecState, x.GateOnly (l.foldl f x) := by
  induction l with
  | nil => exact SecState.GateOnly.refl
  | cons a l ih => exact fun x => (h x a).trans (ih _)

theorem SecState.gateOnly_ite {c : Prop} [Decidable c] {x a b : SecState} (ha : x.GateOnly a) (hb : x.GateOnly b) :
    x.GateOnly (if c then a else b) := by split <;> assumption

theorem SecState.gateOnly_wr (x : SecState) {a : Nat} (h : gateLog a = true) (v : W) : x.GateOnly (x.wr a v) where
  regs b hb := SecState.rd_wr_other x (by intro e; rw [e] at hb; rw [hb] at h; cases h) v
  rest := rfl
  carrier _ := rfl
  kept _ h := h

theorem SecState.gateOnly_put (x : SecState) {a : Nat} (h : gateLog a = true) (f : Field) (v : Nat) :
    x.GateOnly (x.put a f v) := x.gateOnly_wr h _

theorem SecState.gateOnly_bump (x : SecState) {a : Nat} (h : gateLog a = true) (f : Field) : x.GateOnly (x.bump a f) :=
  x.gateOnly_wr h _

theorem SecState.gateOnly_pulse (x : SecState) (n : Nat) : x.GateOnly (x.pulse n) :=
  ⟨fun _ _ => rfl, rfl, fun _ => rfl, fun m h => Collector.raised_pulse_keep _ _ m _ h⟩

theorem SecState.gateOnly_setLeg (x : SecState) (l : Fin 4) (L : LegState) (h : (x.lg l).sameCarrier L) :
    x.GateOnly (x.setLeg l L) where
  regs _ _ := rfl
  rest := rfl
  carrier k := by
    by_cases hk : k = l
    · subst hk
      show (x.lg k).sameCarrier ((x.legs.set k L).get k)
      rw [Quad.get_set_same]
      exact h
    · show (x.lg k).sameCarrier ((x.legs.set l L).get k)
      rw [Quad.get_set_other _ hk]
      exact LegState.sameCarrier_refl _
  kept _ h := h

theorem SecState.gateOnly_onSeq (x : SecState) (b : Bridge) (f : BrSeq → BrSeq) : x.GateOnly (x.onSeq b f) :=
  ⟨fun _ _ => rfl, rfl, fun _ => rfl, fun _ h => h⟩

theorem gateLog_gateStat (l : Fin 4) : gateLog (Reg.GATE_STAT l.val) = true := by revert l; decide
theorem gateLog_gateEvcnt (l : Fin 4) : gateLog (Reg.GATE_EVCNT l.val) = true := by revert l; decide
theorem gateLog_forceStat (l : Fin 4) : gateLog (Reg.FORCE_STAT l.val) = true := by revert l; decide
theorem gateLog_brStat (b : Bridge) : gateLog (Reg.BR_STAT b.val) = true := by revert b; decide
theorem gateLog_brEvcnt (b : Bridge) : gateLog (Reg.BR_EVCNT b.val) = true := by revert b; decide

theorem SecState.gateOnly_drive (x : SecState) (l : Fin 4) (t : Nat) : x.GateOnly (x.drive l t) :=
  x.gateOnly_setLeg l _ rfl

theorem SecState.gateOnly_turnOn (x : SecState) (l : Fin 4) (n t : Nat) (bs : Bool) : x.GateOnly (x.turnOn l n t bs) := by
  unfold SecState.turnOn
  refine SecState.gateOnly_ite ?_ (x.gateOnly_setLeg l _ rfl)
  have h : x.GateOnly (if t < x.floorOf l n ∧ (if bs then x.bsDelay l n else 0) < x.floorOf l n then
      x.bump (Reg.GATE_EVCNT l.val) Fld.GATE_EVCNT_DT_CLAMP else x) :=
    SecState.gateOnly_ite (x.gateOnly_bump (gateLog_gateEvcnt l) _) (SecState.GateOnly.refl x)
  refine h.trans (SecState.gateOnly_setLeg _ l _ ?_)
  have hc := h.carrier l
  unfold LegState.sameCarrier at hc ⊢
  rw [hc]

theorem SecState.gateOnly_interlock (x : SecState) (l : Fin 4) (r : BitVec 6) (t : Nat) (bs : Bool) :
    x.GateOnly (x.interlock l r t bs) := by
  unfold SecState.interlock
  extract_lets L sh x1 rr gone x2 off offT wait wm out x3 cand x4
  have h1 : x.GateOnly x1 := SecState.gateOnly_ite
    (((x.gateOnly_put (gateLog_gateStat l) _ _).trans (SecState.gateOnly_bump _ (gateLog_gateEvcnt l) _)).trans
      (SecState.gateOnly_pulse _ _)) (SecState.GateOnly.refl x)
  have h2 : x1.GateOnly x2 := by
    apply SecState.GateOnly.foldl
    intro y e
    exact SecState.gateOnly_ite (SecState.GateOnly.refl y) (y.gateOnly_bump (gateLog_gateEvcnt l) _)
  have h12 := h1.trans h2
  have h3 : x.GateOnly x3 := by
    refine h12.trans (SecState.gateOnly_setLeg _ l _ ?_)
    have hc := h12.carrier l
    unfold LegState.sameCarrier at hc ⊢
    rw [hc]
  refine SecState.gateOnly_ite h3 (SecState.gateOnly_ite ?_ ?_)
  · refine h3.trans (SecState.GateOnly.foldl _ ?_ (upTo 6) x3)
    intro y n
    exact SecState.gateOnly_ite (y.gateOnly_turnOn l n t bs) (SecState.GateOnly.refl y)
  · have h4 : x.GateOnly x4 := h3.trans (((x3.gateOnly_put (gateLog_gateStat l) _ _).trans
      (SecState.gateOnly_bump _ (gateLog_gateEvcnt l) _)).trans (SecState.gateOnly_pulse _ _))
    exact h4.trans (SecState.gateOnly_setLeg _ l _ rfl)

theorem SecState.gateOnly_evalLeg (x : SecState) (l : Fin 4) (t : Nat) (again bs : Bool) :
    x.GateOnly (x.evalLeg l t again bs) := by
  unfold SecState.evalLeg
  generalize x.stage2 l t = p
  obtain ⟨r, due⟩ := p
  dsimp only
  generalize h1 : x.setLeg l _ = x1
  have hx : x.GateOnly x1 := by
    rw [← h1]
    exact x.gateOnly_setLeg l _ (by split <;> rfl)
  refine SecState.gateOnly_ite (hx.trans (x1.gateOnly_drive l t)) ?_
  exact hx.trans ((x1.gateOnly_interlock l r t bs).trans (SecState.gateOnly_drive _ l t))

/-- A leg that may drive gates from now on is due a precharge train (R126). -/
theorem SecState.gateOnly_startsDriving (x : SecState) (l : Fin 4) : x.GateOnly (x.startsDriving l) :=
  SecState.gateOnly_ite (x.gateOnly_setLeg l _ rfl) (SecState.GateOnly.refl x)

theorem SecState.gateOnly_setPerm (x : SecState) (b : Bridge) (on : Bool) : x.GateOnly (x.setPerm b on) := by
  apply SecState.GateOnly.foldl
  intro y l
  exact ((y.gateOnly_setLeg l { y.lg l with perm := on, permEnds := false } rfl).trans
    (SecState.gateOnly_ite (SecState.GateOnly.refl _) (SecState.gateOnly_startsDriving _ l))).trans
      (SecState.gateOnly_evalLeg _ l _ _ _)

theorem gateLog_islPstat : gateLog Reg.ISL_PSTAT = true := by decide

/-- The passive islanding checks follow the bridges (R223). -/
theorem SecState.gateOnly_islSync (x : SecState) : x.GateOnly x.islSync := by
  unfold SecState.islSync
  have h (m : BitVec 9) : x.GateOnly { x with ast := { x.ast with pasRun := m } } :=
    ⟨fun _ _ => rfl, rfl, fun _ => rfl, fun _ h => h⟩
  exact SecState.gateOnly_ite ((h _).trans (SecState.gateOnly_wr _ gateLog_islPstat _))
    ((h _).trans (SecState.gateOnly_wr _ gateLog_islPstat _))

theorem SecState.gateOnly_brGo (x : SecState) (b : Bridge) (st : Nat) : x.GateOnly (x.brGo b st) := by
  unfold SecState.brGo
  extract_lets old x1 x2 gates
  have h1 : x.GateOnly x1 :=
    ((x.gateOnly_put (gateLog_brStat b) _ _).trans (SecState.gateOnly_put _ (gateLog_brStat b) _ _)).trans
      (SecState.gateOnly_islSync _)
  have h2 : x.GateOnly x2 := (h1.trans (x1.gateOnly_onSeq b _)).trans (SecState.gateOnly_put _ (gateLog_brStat b) _ _)
  refine SecState.gateOnly_ite ?_ (SecState.gateOnly_ite h2 (h2.trans (SecState.gateOnly_setPerm _ b _)))
  refine h2.trans (SecState.GateOnly.foldl _ ?_ _ x2)
  intro y l
  exact y.gateOnly_setLeg l { y.lg l with permEnds := true } rfl

theorem SecState.gateOnly_step1 (x : SecState) (l : Fin 4) (allOff : Bool) : x.GateOnly (x.step1 l allOff) :=
  x.gateOnly_setLeg l _ rfl

theorem SecState.gateOnly_startSeq (x : SecState) (l : Fin 4) (allOff : Bool) : x.GateOnly (x.startSeq l allOff) := by
  unfold SecState.startSeq
  refine SecState.gateOnly_ite (SecState.gateOnly_ite (x.gateOnly_setLeg l _ rfl) (SecState.GateOnly.refl x)) ?_
  refine SecState.gateOnly_ite (x.gateOnly_step1 l _) (SecState.gateOnly_ite ?_ (SecState.GateOnly.refl x))
  exact SecState.gateOnly_ite (x.gateOnly_setLeg l _ rfl) (x.gateOnly_step1 l _)

theorem SecState.gateOnly_latchForce (x : SecState) (l : Fin 4) (cause : Nat) : x.GateOnly (x.latchForce l cause) := by
  unfold SecState.latchForce
  have h1 := x.gateOnly_wr (gateLog_forceStat l) (x.rd (Reg.FORCE_STAT l.val) ||| natW (2 ^ cause))
  refine SecState.gateOnly_ite h1 ?_
  exact ((h1.trans (SecState.gateOnly_pulse _ _)).trans (SecState.gateOnly_startSeq _ l _)).trans
    (SecState.gateOnly_drive _ l _)

/-- Forcing a leg and its scope (R111). -/
theorem SecState.gateOnly_force (x : SecState) (l : Fin 4) (cause : Nat) : x.GateOnly (x.force l cause) :=
  (x.gateOnly_latchForce l cause).trans (SecState.GateOnly.foldl _ (by
    intro y k
    exact SecState.gateOnly_ite (SecState.GateOnly.refl y) (y.gateOnly_latchForce k 5)) _ _)

/-- A bridge's entry to SAFE (R208). -/
theorem SecState.gateOnly_brSafe (x : SecState) (b : Bridge) (reason : Nat) : x.GateOnly (x.brSafe b reason) := by
  unfold SecState.brSafe
  exact ((((x.gateOnly_put (gateLog_brStat b) _ _).trans
    (SecState.GateOnly.foldl _ (fun y l => y.gateOnly_force l 4) _ _)).trans (SecState.gateOnly_brGo _ b 7)).trans
      (SecState.gateOnly_bump _ (gateLog_brEvcnt b) _)).trans (SecState.gateOnly_pulse _ _)

/-- Latches take their bridges to SAFE (R205). -/
theorem SecState.gateOnly_brLatches (x : SecState) : x.GateOnly x.brLatches := by
  apply SecState.GateOnly.foldl
  intro y b
  exact SecState.gateOnly_ite (y.gateOnly_brSafe b _) (SecState.GateOnly.refl y)

/-- A section stop takes its bridges to SAFE (R205). -/
theorem SecState.gateOnly_brStopAll (x : SecState) : x.GateOnly x.brStopAll := by
  apply SecState.GateOnly.foldl
  intro y b
  exact SecState.gateOnly_ite (y.gateOnly_brSafe b _) (SecState.GateOnly.refl y)

/-- A released leg is let go (R119). -/
theorem SecState.gateOnly_release (x : SecState) (l : Fin 4) (t : Nat) : x.GateOnly (x.release l t) := by
  unfold SecState.release
  exact (x.gateOnly_setLeg l _ (by rfl)).trans (SecState.gateOnly_evalLeg _ l _ _ _)

theorem SecState.gateOnly_tryRelease (x : SecState) (l : Fin 4) (was : Bool) (t : Nat) : x.GateOnly (x.tryRelease l was t) :=
  SecState.gateOnly_ite (x.gateOnly_release l t) (x.gateOnly_drive l t)

end Sys2Proof.Machine
end

