-- ==== Sys2Proof/Laws/Memory.lean ====
section
/-! SUPPORT. The memories: a byte reads as it was last written, every other byte is untouched, and every operation
keeps the canonical form, the ordered writes to non-volatile storage among them. -/

namespace Sys2Proof.Machine

@[simp] theorem Memory.read_write_same (m : Tbl Byte) (a : Nat) (b : Byte) : Memory.read (Memory.write m a b) a = b :=
  Tbl.get_set_same _ _ _ _

theorem Memory.read_write_other (m : Tbl Byte) {a a' : Nat} (h : a' ≠ a) (b : Byte) :
    Memory.read (Memory.write m a b) a' = Memory.read m a' := Tbl.get_set_other _ _ h _

theorem Memory.read_writeBytes_outside (m : Tbl Byte) (a a' : Nat) (bs : List Byte) (h : a' < a ∨ a + bs.length ≤ a') :
    Memory.read (Memory.writeBytes m a bs) a' = Memory.read m a' := Tbl.get_setList_outside _ _ _ _ _ h

theorem Memory.read_writeBytes_inside (m : Tbl Byte) (a i : Nat) (bs : List Byte) (h : i < bs.length) :
    Memory.read (Memory.writeBytes m a bs) (a + i) = bs[i] := Tbl.get_setList_inside _ _ _ _ _ h

theorem Memory.wf_write (m : Tbl Byte) (a : Nat) (b : Byte) (h : Memory.wf m = true) : Memory.wf (Memory.write m a b) = true :=
  Tbl.ok_set _ _ _ _ h

theorem Memory.wf_writeBytes (m : Tbl Byte) (a : Nat) (bs : List Byte) (h : Memory.wf m = true) :
    Memory.wf (Memory.writeBytes m a bs) = true := Tbl.ok_setList _ _ _ _ h

theorem Memory.wf_writeWord (m : Tbl Byte) (a : Nat) (w : W) (h : Memory.wf m = true) :
    Memory.wf (Memory.writeWord m a w) = true := Memory.wf_writeBytes _ _ _ h

theorem Memory.wf_empty : Memory.wf [] = true := rfl

/-- What is not an MRAM write leaves the MRAM alone. -/
theorem NonVol.apply_feram_mram (nv : NonVol) (o : Nat) (bs : List Byte) : (nv.apply (.feram o bs)).mram = nv.mram := rfl

theorem NonVol.apply_mram_feram (nv : NonVol) (o : Nat) (bs : List Byte) : (nv.apply (.mram o bs)).feram = nv.feram := rfl

/-- Every ordered write keeps both memories canonical. -/
theorem NonVol.apply_wf (nv : NonVol) (op : NvOp) (hm : Memory.wf nv.mram = true) (hf : Memory.wf nv.feram = true) :
    Memory.wf (nv.apply op).mram = true ∧ Memory.wf (nv.apply op).feram = true := by
  cases op with
  | mram off bs => exact ⟨Memory.wf_writeBytes _ _ _ hm, hf⟩
  | feram off bs => exact ⟨hm, Memory.wf_writeBytes _ _ _ hf⟩
  | proofStatus e st => exact ⟨Memory.wf_writeWord _ _ _ hm, hf⟩
  | arb i v => exact ⟨hm, hf⟩
  | owner e h => simp only [NonVol.apply]; split <;> exact ⟨hm, hf⟩
  | revoke m => exact ⟨hm, hf⟩
  | field => simp only [NonVol.apply]; split <;> exact ⟨hm, hf⟩
  | returned => simp only [NonVol.apply]; exact ⟨hm, Memory.wf_writeBytes _ _ _ hf⟩
  | plateKey k => exact ⟨hm, hf⟩
  | boot => exact ⟨hm, hf⟩

end Sys2Proof.Machine
end

