-- ==== Sys2Proof/Laws/Queue.lean ====
section
/-! SUPPORT. What the rings and the event records can change (R313 to R319): the registers of the queue block and of the
host ports, the packet pool and the pair of QUEUE_DROP. Nothing else of the device changes, and in particular no section. -/

namespace Sys2Proof.Machine

theorem Dev.QueueOnly.refl (d : Dev) : d.QueueOnly d := ⟨fun _ _ => rfl, rfl, fun _ _ => rfl, fun _ h => h⟩

theorem Dev.QueueOnly.trans {a b c : Dev} (h : a.QueueOnly b) (g : b.QueueOnly c) : a.QueueOnly c where
  regs x hx := (g.regs x hx).trans (h.regs x hx)
  rest := by
    have h1 := h.rest
    have g1 := g.rest
    rw [h1] at g1
    exact g1
  pairs n hn := (g.pairs n hn).trans (h.pairs n hn)
  kept n hn := g.kept n (h.kept n hn)

theorem Dev.QueueOnly.sec {d d' : Dev} (h : d.QueueOnly d') : d'.sec = d.sec := by rw [h.rest]

theorem Dev.QueueOnly.fld {d d' : Dev} (h : d.QueueOnly d') {a : Nat} (ha : queueReg a = false) (f : Field) :
    d'.fld a f = d.fld a f := by simp [Dev.fld, h.regs a ha]

theorem Dev.queueOnly_wr (d : Dev) {a : Nat} (h : queueReg a = true) (v : W) : d.QueueOnly (d.wr a v) where
  regs b hb := Dev.rd_wr_other d (by intro e; rw [e] at hb; rw [hb] at h; cases h) v
  rest := rfl
  pairs _ _ := rfl
  kept _ h := h

theorem Dev.queueOnly_put (d : Dev) {a : Nat} (h : queueReg a = true) (f : Field) (v : Nat) : d.QueueOnly (d.put a f v) :=
  Dev.queueOnly_wr d h _

theorem Dev.queueOnly_pool (d : Dev) (p : Tbl Byte) : d.QueueOnly { d with pool := p } :=
  ⟨fun _ _ => rfl, rfl, fun _ _ => rfl, fun _ h => h⟩

theorem Dev.queueOnly_drop (d : Dev) : d.QueueOnly (d.pulse 41) :=
  ⟨fun _ _ => rfl, rfl, Collector.pairsBut_pulse _ _ _, fun n h => Collector.raised_pulse_keep _ _ n _ h⟩

theorem queueReg_of {a : Nat} (h : 0x60000 ≤ a) (h' : a < 0x80000) : queueReg a = true := by
  unfold queueReg
  rw [decide_eq_true h, decide_eq_true h']
  rfl

theorem queueReg_ptr {q : Nat} (hq : q < 64) : queueReg (Reg.Q_PTR q) = true :=
  queueReg_of (by unfold Reg.Q_PTR; omega) (by unfold Reg.Q_PTR; omega)

theorem queueReg_stat {q : Nat} (hq : q < 64) : queueReg (Reg.Q_STAT q) = true :=
  queueReg_of (by unfold Reg.Q_STAT; omega) (by unfold Reg.Q_STAT; omega)

theorem queueReg_irq {k : Nat} (hk : k < 16) : queueReg (Reg.HP_IRQ_STAT k) = true :=
  queueReg_of (by unfold Reg.HP_IRQ_STAT; omega) (by unfold Reg.HP_IRQ_STAT; omega)

theorem Dev.queueOnly_qIrq (d : Dev) (q : Nat) : d.QueueOnly (d.qIrq q) := by
  unfold Dev.qIrq
  split
  · refine Dev.queueOnly_wr d (queueReg_irq ?_) _
    have : d.fld (Reg.Q_CFG q) Fld.Q_CFG_IRQ_PORT < 2 ^ Field.width Fld.Q_CFG_IRQ_PORT := Nat.mod_lt _ (Nat.two_pow_pos _)
    exact Nat.lt_of_lt_of_le this (by decide)
  · exact Dev.QueueOnly.refl d

theorem Dev.queueOnly_qPush (d : Dev) {q : Nat} (hq : q < 64) (w0 w1 w2 w3 : W) (data : List Byte) :
    d.QueueOnly (d.qPush q w0 w1 w2 w3 data) := by
  unfold Dev.qPush
  split
  · exact Dev.QueueOnly.refl d
  · split
    · exact (Dev.queueOnly_put d (queueReg_stat hq) _ _).trans (Dev.queueOnly_drop _)
    · exact ((Dev.queueOnly_pool d _).trans (Dev.queueOnly_put _ (queueReg_ptr hq) _ _)).trans (Dev.queueOnly_qIrq _ _)

/-- A record of a change of state touches the rings only (R319). -/
theorem Dev.queueOnly_stateEvent (d : Dev) (kind : Nat) (detail value : W) : d.QueueOnly (d.stateEvent kind detail value) := by
  unfold Dev.stateEvent
  have : ∀ (l : List Nat), (∀ k ∈ l, k < 4) → ∀ e : Dev, e.QueueOnly (l.foldl (fun d k =>
      if d.flag (Reg.HP_CFG k) Fld.HP_CFG_EV_STATE && !d.portCompat k then
        d.qPush (33 + 2 * k) (d.evWord kind) detail value d.stamp [] else d) e) := by
    intro l
    induction l with
    | nil => intro _ e; exact Dev.QueueOnly.refl e
    | cons k l ih =>
      intro hk e
      have h4 := hk k (by simp)
      refine Dev.QueueOnly.trans ?_ (ih (fun j hj => hk j (by simp [hj])) _)
      dsimp only
      split
      · exact Dev.queueOnly_qPush e (by omega) _ _ _ _ _
      · exact Dev.QueueOnly.refl e
  exact this _ (by simp [upTo]) d

/-- A log entry in the fault rings touches the rings only (R319). -/
theorem Dev.queueOnly_faultEvent (d : Dev) (sev : Nat) (head time : W) : d.QueueOnly (d.faultEvent sev head time) := by
  unfold Dev.faultEvent
  have : ∀ (l : List Nat), (∀ k ∈ l, k < 4) → ∀ e : Dev, e.QueueOnly (l.foldl (fun d k =>
      let ev := d.fld (Reg.HP_CFG k) Fld.HP_CFG_EV_SEV
      if ev = 0 ∨ sev < ev ∨ d.portCompat k then d else d.qPush (32 + 2 * k) (d.evWord 1) head 0 time []) e) := by
    intro l
    induction l with
    | nil => intro _ e; exact Dev.QueueOnly.refl e
    | cons k l ih =>
      intro hk e
      have h4 := hk k (by simp)
      refine Dev.QueueOnly.trans ?_ (ih (fun j hj => hk j (by simp [hj])) _)
      dsimp only
      split
      · exact Dev.QueueOnly.refl e
      · exact Dev.queueOnly_qPush e (by omega) _ _ _ _ _
  exact this _ (by simp [upTo]) d

/-- After a change of the device state, DEV_STATE.STATE is the new state. -/
theorem Dev.devState_setState (d : Dev) (st : Nat) : (d.setState st).devState = st % 2 ^ Field.width Fld.DEV_STATE_STATE := by
  unfold Dev.setState Dev.devState
  rw [(Dev.queueOnly_stateEvent _ _ _ _).fld (by decide), Dev.fld_put_same _ _ _ (by decide)]

/-- A change of the device state touches no section. -/
theorem Dev.sec_setState (d : Dev) (st : Nat) : (d.setState st).sec = d.sec := by
  unfold Dev.setState
  rw [(Dev.queueOnly_stateEvent _ _ _ _).sec]
  rfl

/-- After a change of a section's state, SEC_STATE.STATE is the new state, and no other section is touched. -/
theorem Dev.secSt_setSec (d : Dev) (s : Sec) (st : Nat) : (d.setSec s st).secSt s = st % 2 ^ Field.width Fld.SEC_STATE_STATE := by
  unfold Dev.setSec Dev.secSt SecState.state
  rw [show ∀ e : Dev, (e.stateEvent 3 0 e.secStates).sc s = e.sc s from fun e => by
    simp only [Dev.sc, (Dev.queueOnly_stateEvent _ _ _ _).sec]]
  simp only [Dev.secPut, Dev.sc_onSec_same]
  exact SecState.fld_put_same _ _ _ (by decide) _

theorem Dev.sc_setSec_other (d : Dev) {s s' : Sec} (h : s' ≠ s) (st : Nat) : (d.setSec s st).sc s' = d.sc s' := by
  unfold Dev.setSec
  simp only [Dev.sc, (Dev.queueOnly_stateEvent _ _ _ _).sec]
  exact (Dev.sc_onSec_other _ h _).trans (Dev.sc_onSec_other _ h _)

end Sys2Proof.Machine
end

