-- ==== Sys2Proof/Laws/Section.lean ====
section
/-! SUPPORT. What a command of a section can change outside it (R207, R287, R319, R365): the contactor requests at the
safety outputs, the rings, and the part of a claiming port. No other section changes. -/

namespace Sys2Proof.Machine

theorem Dev.SectionOnly.refl (s : Sec) (d : Dev) : Dev.SectionOnly s d d := ⟨fun _ _ => rfl, rfl, fun _ _ => rfl, fun _ h => h⟩

theorem Dev.SectionOnly.trans {s : Sec} {a b c : Dev} (h : Dev.SectionOnly s a b) (g : Dev.SectionOnly s b c) :
    Dev.SectionOnly s a c where
  regs x hx := (g.regs x hx).trans (h.regs x hx)
  rest := by
    have h1 := h.rest
    have g1 := g.rest
    rw [h1] at g1
    exact g1
  others k hk := (g.others k hk).trans (h.others k hk)
  kept n hn := g.kept n (h.kept n hn)

theorem Dev.SectionOnly.fld {s : Sec} {d d' : Dev} (h : Dev.SectionOnly s d d') {a : Nat} (ha : sectionReg a = false)
    (f : Field) : d'.fld a f = d.fld a f := by simp [Dev.fld, h.regs a ha]

theorem Dev.QueueOnly.sectionOnly {d d' : Dev} (s : Sec) (h : d.QueueOnly d') : Dev.SectionOnly s d d' where
  regs a ha := h.regs a (by simp [sectionReg] at ha; exact ha.2)
  rest := by
    have hr := h.rest
    rw [hr]
  others k _ := by simp only [Dev.sc, h.sec]
  kept := h.kept

theorem Dev.sectionOnly_onSec (s : Sec) (d : Dev) (f : SecState → SecState) : Dev.SectionOnly s d (d.onSec s f) :=
  ⟨fun _ _ => rfl, rfl, fun _ hk => Dev.sc_onSec_other d hk f, fun _ h => h⟩

theorem Dev.sectionOnly_setSo (s : Sec) (d : Dev) (so : BitVec 4) : Dev.SectionOnly s d (d.setSo so) where
  regs a ha := by
    have hne : a ≠ Reg.SAFE_OUT := by intro e; subst e; simp [sectionReg] at ha
    exact (Dev.rd_put_other _ hne _ _).trans (Dev.rd_put_other _ hne _ _)
  rest := rfl
  others _ _ := rfl
  kept _ h := h

theorem Dev.sectionOnly_soSync (s : Sec) (d : Dev) : Dev.SectionOnly s d d.soSync := by
  unfold Dev.soSync
  extract_lets req d1 old so d2
  have h1 : Dev.SectionOnly s d d1 := ⟨fun a ha => Dev.rd_put_other _ (by intro e; subst e; simp [sectionReg] at ha) _ _,
    rfl, fun _ _ => rfl, fun _ h => h⟩
  have h2 : Dev.SectionOnly s d d2 := h1.trans (Dev.sectionOnly_setSo s d1 so)
  split
  · exact h2.trans ⟨fun _ _ => rfl, rfl, fun _ _ => rfl, fun _ h => h⟩
  · exact h1

theorem Dev.queueOnly_bridgeEvents (d : Dev) (s : Sec) (old : SecState) : d.QueueOnly (d.bridgeEvents s old) := by
  unfold Dev.bridgeEvents
  generalize upTo 4 = l
  induction l generalizing d with
  | nil => exact Dev.QueueOnly.refl d
  | cons b l ih =>
    refine Dev.QueueOnly.trans ?_ (ih _)
    dsimp only
    split
    · exact Dev.QueueOnly.refl d
    · exact Dev.queueOnly_stateEvent d _ _ _

theorem Dev.sectionOnly_compatWatch (d : Dev) (s k : Sec) (old : SecState) : Dev.SectionOnly k d (d.compatWatch s old) := by
  unfold Dev.compatWatch
  split
  · exact ⟨fun _ _ => rfl, rfl, fun _ _ => rfl, fun _ h => h⟩
  · exact Dev.SectionOnly.refl k d

theorem Dev.sec_compatWatch (d : Dev) (s : Sec) (old : SecState) : (d.compatWatch s old).sec = d.sec := by
  unfold Dev.compatWatch
  split <;> rfl

theorem Dev.sec_soSync (d : Dev) : d.soSync.sec = d.sec := by
  unfold Dev.soSync
  extract_lets req d1 old so d2
  split <;> rfl

/-- What follows a change inside a section reaches no other section, and of the device only outputs, rings and port. -/
theorem Dev.sectionOnly_secAct (d : Dev) (s : Sec) (f : Dev → Dev) (h : Dev.SectionOnly s d (f d)) :
    Dev.SectionOnly s d (d.secAct s f) := by
  unfold Dev.secAct
  exact (((h.trans (Dev.sectionOnly_onSec s _ _)).trans (Dev.sectionOnly_soSync s _)).trans
    ((Dev.queueOnly_bridgeEvents _ s _).sectionOnly s)).trans (Dev.sectionOnly_compatWatch _ s s _)

/-- The section itself: the change, and then the bridges that a latch takes to SAFE. -/
theorem Dev.sc_secAct_same (d : Dev) (s : Sec) (f : Dev → Dev) : (d.secAct s f).sc s = ((f d).sc s).brLatches := by
  unfold Dev.secAct
  simp only [Dev.sc, Dev.sec_compatWatch, (Dev.queueOnly_bridgeEvents _ s _).sec, Dev.sec_soSync]
  exact Dev.sc_onSec_same _ _ _

theorem Dev.sectionOnly_secDo (d : Dev) (s : Sec) (f : SecState → SecState) : Dev.SectionOnly s d (d.secDo s f) :=
  Dev.sectionOnly_secAct d s _ (Dev.sectionOnly_onSec s d f)

theorem Dev.sc_secDo_same (d : Dev) (s : Sec) (f : SecState → SecState) : (d.secDo s f).sc s = (f (d.sc s)).brLatches := by
  unfold Dev.secDo
  rw [Dev.sc_secAct_same, Dev.sc_onSec_same]

/-- A section command where the section's logic is there. -/
theorem Dev.secIf_up (d : Dev) (s : Sec) (f : SecState → SecState) (h : d.secUp s = true) : d.secIf s f = d.secDo s f := by
  simp [Dev.secIf, h]

theorem Dev.secIf_down (d : Dev) (s : Sec) (f : SecState → SecState) (h : d.secUp s = false) : d.secIf s f = d := by
  simp [Dev.secIf, h]

/-- A register of the section that neither the gates nor the sequencers write reads as the command left it. -/
theorem Dev.secRd_secDo (d : Dev) (s : Sec) (f : SecState → SecState) {a : Nat} (h : gateLog a = false) :
    ((d.secDo s f).sc s).rd a = (f (d.sc s)).rd a := by
  rw [Dev.sc_secDo_same]
  exact (SecState.gateOnly_brLatches _).regs a h

/-- The section's state survives what follows a command. -/
theorem Dev.secSt_secDo (d : Dev) (s : Sec) (f : SecState → SecState) : (d.secDo s f).secSt s = (f (d.sc s)).state := by
  simp only [Dev.secSt, SecState.state, SecState.fld, Dev.secRd_secDo d s f (by decide : gateLog Reg.SEC_STATE = false)]

end Sys2Proof.Machine
end

