-- ==== Sys2Proof/Tests/Slice0.lean ====
section
/-! SUPPORT. Small states that meet the hypotheses of the statements, the ill-formed commands that each check refuses, and
tests whose expected results are worked out from the spec. -/

namespace Sys2Proof.Tests

open Sys2Proof Sys2Proof.Machine

/-- A state from reset with the device changed. -/
def mk (f : Dev → Dev) : State := State.reset.onDev f

/-- A device that has left BOOT for SERVICE. -/
def svc (f : Dev → Dev) : State := mk (fun d => f (d.put Reg.DEV_STATE Fld.DEV_STATE_STATE 3))

/-- A section in a state, in a device in SERVICE. -/
def inSt (st : Nat) (f : Dev → Dev) : State := svc (fun d => f (d.secPut 1 Reg.SEC_STATE Fld.SEC_STATE_STATE st))

/-! ### Clocks -/

def wRef : State := mk (fun d => d.put Reg.REF_STAT Fld.REF_STAT_REF_OK 1)
def wHold : State := mk (fun d => d.put Reg.REF_STAT Fld.REF_STAT_HOLDOVER 1)
def wFall : State :=
  svc (fun d => ((d.put Reg.REF_STAT Fld.REF_STAT_FALLBACK 1).put Reg.REF_STAT Fld.REF_STAT_REF_OK 1).put (Reg.PLL_CTRL 1)
    Fld.PLL_CTRL_EN 1)
def wAuto : State := wFall.onDev (fun d => d.put Reg.REF_CFG Fld.REF_CFG_AUTO_RETURN 1)
def wReturn : State := wFall.onDev (fun d => (d.put Reg.REF_STAT Fld.REF_STAT_RETURNING 1).setPll 1 { off := -1500 })
def wLast : State := wFall.onDev (fun d => (d.put Reg.REF_STAT Fld.REF_STAT_RETURNING 1).setPll 1 { off := 1000 })

/-- PLL_SEC1 on at 4,500 MHz, with one band entry that holds it and one below it that is not valid. -/
def wPll : State :=
  svc (fun d => (((d.put (Reg.PLL_CTRL 2) Fld.PLL_CTRL_EN 1).wr (Reg.PLL_FREQ 2) 0xB4000000).wr (Reg.BAND 2 0) 0x00096190).wr
    (Reg.BAND 2 3) 0x80096190)
def wNoBand : State := wPll.onDev (fun d => d.wr (Reg.BAND 2 3) 0)
def wLock : State := wPll.onDev (fun d => (d.put (Reg.PLL_STAT 2) Fld.PLL_STAT_LOCK 1).setPll 2 { band := some (400, 600) })
def wNet : State := svc (fun d => (d.put (Reg.PLL_STAT 6) Fld.PLL_STAT_LOCK 1).put Reg.TIME_STAT Fld.TIME_STAT_RUNNING 1)
def wAdc : State := svc (fun d => d.put (Reg.PLL_STAT 5) Fld.PLL_STAT_LOCK 1)
def wSys : State := inSt 4 (fun d => d.put (Reg.PLL_STAT 0) Fld.PLL_STAT_LOCK 1)
def wSettle : State := wLock.onDev (fun d => d.put (Reg.PLL_STAT 2) Fld.PLL_STAT_SETTLING 1)
def wSpread : State := wLock.onDev (fun d => (d.wr (Reg.PLL_SS 2) 0x80050BB8).setPll 2 { d.pll 2 with ssPend := true })
def wPhase : State := svc (fun d => (d.put (Reg.PLL_STAT 2) Fld.PLL_STAT_PH_BUSY 1).put (Reg.PLL_STAT 2) Fld.PLL_STAT_PH_REMAIN 0xFFFE)
def wOpen : State := wLock.onDev (fun d => { d with rwpBase := [(Reg.PLL_SS 2, Reg.PLL_SS 2)] })

/-! ### Reset, boot, security -/

def wPower : State := mk (fun d => { d with keep := { d.keep with hold := true }, crypto := [1] })
def wHeld : State := mk (fun d => { d with held := true })
def wBoot : State := State.reset
def badBoot : BaseBoot := ⟨false, 0, 0⟩
def noBoot : BaseBoot := ⟨true, 0, 0⟩
def wSafe : State := mk (fun d => (((d.put (Reg.PLL_STAT 0) Fld.PLL_STAT_LOCK 1).put Reg.DEV_STATE Fld.DEV_STATE_STATE 5).wr Reg.FC_LAST_SAFE 0xC0000000).setPll 6 { off := 7 })
def wOff : State := inSt 0 id
def wReady : State := inSt 3 id
def wOn : State := inSt 4 id
def wClaim : State := inSt 3 (fun d => d.put (Reg.HP_STAT 1) Fld.HP_STAT_COMPAT 1)
def wClock : State := inSt 1 (fun d =>
  { (d.put (Reg.PLL_STAT 2) Fld.PLL_STAT_LOCK 1).put (Reg.PLL_DIV 2) Fld.PLL_DIV_OUT0 20 with crypto := [1, 8] })
def wNoClock : State := inSt 1 (fun d => { d with crypto := [1, 8] })
def wBooting : State := inSt 1 (fun d => { d with crypto := [1, 8], cryptoOn := true })
def wBootClaim : State := wBooting.onDev (fun d => d.put (Reg.HP_STAT 1) Fld.HP_STAT_COMPAT 1)
/-- A section that boots with an entry of the proof bank that names no sheet. -/
def wBootBad : State :=
  { wBooting with nv := { mram := Memory.writeWord (Memory.writeWord (Memory.writeWord (Memory.writeWord [] 0x380000 0x44504753)
      0x38001C 0x40) 0x380020 0x100) 0x380024 0 } }
def wSafeSave : State := wSafe.onDev (fun d => { d with keep := { d.keep with waiting := [⟨4, false, []⟩] } })
def wStopping : State := inSt 5 id
def wToken : State := svc (fun d => { d.put Reg.TOKEN_PTR Fld.TOKEN_PTR_OFFSET 0x37FE00 with crypto := [8, 8] })
def wField : State := { svc id with nv := { fuses := { lcs := 1 } } }
def wReturned : State := { svc id with nv := { fuses := { lcs := 2 } } }
def wReport : State := svc (fun d => { d with rpt := 2 })
def wWait : State := svc (fun d => { d with rptWait := true, rptRecent := true })
def wRecent : State := svc (fun d => { d with rptRecent := true })

/-- A section whose policy allows couching, with a new proof image for it. -/
def wCouch : State :=
  { inSt 4 (fun d => { d with policy := ⟨0, 2, 0, 0⟩ }) with
    nv := { mram := Memory.writeWord (Memory.writeWord (Memory.writeWord (Memory.writeWord [] 0x380000 0x44504753)
      0x38001C 0x40) 0x380020 0x100) 0x380024 0 } }
def wNoPolicy : State := inSt 4 id
def wArmed : State := wCouch.onDev (fun d => 
  { (d.put (Reg.COUCH_STAT 1) Fld.COUCH_STAT_PHASE 1).put Reg.TIME_STAT Fld.TIME_STAT_HALTED 0 with time := { passes := 3 } })
def wPhase2 : State := inSt 7 (fun d => { d.put (Reg.COUCH_STAT 1) Fld.COUCH_STAT_PHASE 2 with crypto := [5] })
def wPhase3 : State := inSt 7 (fun d =>
  (((d.put (Reg.COUCH_STAT 1) Fld.COUCH_STAT_PHASE 3).put (Reg.COUCH_STAT 1) Fld.COUCH_STAT_PROOF 1024).onSec 1 (fun x =>
    { x with couch := { deadline := 5000, builds := (7, 8), fcmap := [3, 4] } })))
def wPhase4 : State := inSt 7 (fun d => d.put (Reg.COUCH_STAT 1) Fld.COUCH_STAT_PHASE 4)
def wPlaced : State := wPhase4.onDev (fun d => d.onSec 1 (fun x =>
  { x with couch := { place := (0x2000, 0x100), arbs := (3, 4) } }))

/-! ### Register access -/

def wDead : State := svc (fun d => d.secPut 1 Reg.SEC_STATE Fld.SEC_STATE_STATE 0)
def wRing : State := svc (fun d => (d.put (Reg.Q_CFG 0) Fld.Q_CFG_LOG2_DESC 2).put (Reg.Q_PTR 0) Fld.Q_PTR_GET 6 |>.put (Reg.Q_PTR 0) Fld.Q_PTR_PUT 7)
def wLocked : State := svc (fun d => { d with rwpBase := [(0x60000, 0x60FFF)] })
/-- Section 1 in couching, before takeover. -/
def wProofHeld : State := inSt 7 (fun d => d.onSec 1 (fun x => { x with couch := { x.couch with due := true } }))

/-! ### The engine -/

/-- What both engines hold: one program word, a few coefficients, an input map whose slot 0 names accumulator 0. -/
def img0 (w : Nat) : EngImg :=
  { count := 4, worst := 1000, entry := ⟨0, 1, 2, 3⟩, prog := [(0, natW w)]
    coef := [(0, 0xF8000000), (1, 0x08000000), (2, 0x04000000), (3, 0x0C000000), (16, 0x10100020), (17, 0x00000030), (18, 0x201),
             (32, 0x08000000), (33, 0x10000000), (34, 0x04000000), (35, 0x02000000)]
    imap := [(0, 0)] }
def r0 : EngRun := { st := { wreg := [(1, 0x08000000), (2, 0xF0000000), (3, 0x7FFFFFFF), (4, 0x02000000), (5, 0x20000000)] } }

/-- Section 1 with a run in progress whose next word is an instruction. -/
def wEngR (op : Nat) (a : BitVec 26) (r : EngRun) : State :=
  inSt 4 (fun d => d.onSec 1 (fun x => { x.wr Reg.TICK_DEADLINE 100000 with
    eng := { imgA := img0 (op * 2 ^ 26 + a.toNat), imgB := img0 (op * 2 ^ 26 + a.toNat), run := some r } }))
def wEng (op : Nat) (a : BitVec 26) : State := wEngR op a r0
/-- D = 4, A = 1, B = 2, two elements, and D = 3, A = 1: a destination that overlaps the source. -/
def VA : BitVec 26 := 0x402081
def VB : BitVec 26 := 0x302081

/-! ### Ticks -/

/-- Section 1 ENABLED, its tick cycle set, with a change of the section. -/
def wTick (f : SecState → SecState) : State :=
  inSt 4 (fun d => d.onSec 1 (fun x => f (x.wr Reg.TICK_DEADLINE 100000)))
def wRun (op : Nat) (a : BitVec 26) (r : EngRun) (f : SecState → SecState) : State := (wEngR op a r).onDev (fun d => d.onSec 1 f)
/-- Section 1 in couching, proof phase, with B's run in progress. -/
def wProof (op : Nat) (a : BitVec 26) : State :=
  (wEngR op a r0).onDev (fun d => d.onSec 1 (fun x => { x with eng := { x.eng with mode := 1, run := none, prun := some r0, pdead := 100000 } }))
def rBuf : EngRun := { r0 with buf := Quad.all (List.replicate 11 100) }
def rOut : EngRun := { r0 with outs := [(3, some 0x123)], reqs := 0x8001, ctx := 0, clk := 700 }
def qRes : AccRes := ⟨0x80000004, 400, 0, 0⟩
def wMsgTo (st : Nat) : State :=
  inSt 4 (fun d => ((((d.secPut 2 Reg.SEC_STATE Fld.SEC_STATE_STATE st).put (Reg.Q_CFG 58) Fld.Q_CFG_LOG2_DESC 2).put (Reg.Q_CFG 58)
    Fld.Q_CFG_DEST 10).put (Reg.Q_CFG 58) Fld.Q_CFG_BUF_UNITS 1).qPush 58 0x80000008 0 0 0 ([7, 8].flatMap wordBytes))
def wMsg : State := wMsgTo 4
def wMsgDead : State := wMsgTo 0
def wMsgClaim : State := (wMsgTo 4).onDev (fun d => d.put (Reg.HP_STAT 2) Fld.HP_STAT_COMPAT 1)
def rW : EngRun := { r0 with w := true }
def rBack : EngRun := { r0 with stack := [5] }
def rWait : EngRun := { r0 with wait := some 256 }
def rAgain : EngRun := { r0 with again := true }
def rRoll : EngRun := { r0 with roll := some 90 }
def rStall : EngRun := { r0 with stall := true }
def wNext : State := wRun 0x06 0 r0 (fun x => { x with bridges := x.bridges.set 1 { kind := 1 } })
def wGot : State := wRun 0x28 0x200000 r0 (fun x => x.setAcc 0 { got := qRes })
def wFixed : State := wRun 0x29 0x200001 r0 (fun x => x.setAcc 0 { fixed := some qRes })
def wPend : State := wRun 0x28 0x200000 r0 (fun x => (x.setAcc 0 { pend := true }).put (Reg.ACC_CFG 0) Fld.ACC_CFG_ARM 1)
def wArrive : State := wRun 0x04 0 rStall (fun x => { x with fifo := [[(3, qRes)], [(4, qRes)]] })
def wParam : State := wTick (fun x => x.wr (Reg.HOST_PARAM 4) 9)
def wOuts : State := wTick (fun x => { x with eng := { x.eng with outs := [(2, 5)], seq := 3 } })
def wIdle : State := wTick id
def wTrig : State := wTick (fun x => { x with trig := some 5 })
def wTb : State := wTick (fun x => (x.put Reg.TICK_CFG Fld.TICK_CFG_SRC 3).put Reg.TICK_CFG Fld.TICK_CFG_TB_PERIOD 600)
def wTrigRun : State := wRun 0x04 0 r0 (fun x => { x with trig := some 5 })

/-! ### Measurement -/

/-- Section 1 with converter 2 running. -/
def wAdcRun (f : SecState → SecState) : State := wTick (fun x => f (x.put (Reg.ADC_CFG 2) Fld.ADC_CFG_ADC_RUN 1))
def wClock1 (f : SecState → SecState) : State := (wAdcRun f).onDev (fun d => d.put Reg.TIME_STAT Fld.TIME_STAT_HALTED 0)
def wSat : State := wAdcRun id
def wSatBit : State := wAdcRun (fun x => { x with satPair := 4 })
def wCount : State := wAdcRun (fun x =>
  ((x.wr (Reg.ACC_CFG 9) 0xA1000000).wr (Reg.ACC_PARAM 9) 3 |>.setAcc 9 { isOpen := true, cnt := 2, sum := 40, mn := 5, mx := 20 }))
def wTimeOpen : State := wClock1 (fun x =>
  ((x.put (Reg.ACC_CFG 9) Fld.ACC_CFG_MODE 2).put (Reg.ACC_CFG 9) Fld.ACC_CFG_ARM 1).setAcc 9 { isOpen := true, cnt := 2, sum := 40, due := some 0 })
def wTimeFirst : State := wClock1 (fun x =>
  ((x.put (Reg.ACC_CFG 9) Fld.ACC_CFG_MODE 2).put (Reg.ACC_CFG 9) Fld.ACC_CFG_ARM 1).setAcc 9 { due := some 0 })
def c64 : List (BitVec 14) := List.replicate 64 100
def wForced : State := wAdcRun (fun x =>
  ((x.put (Reg.ACC_CFG 9) Fld.ACC_CFG_MODE 2).put (Reg.ACC_CFG 9) Fld.ACC_CFG_ARM 1).setAcc 9 { isOpen := true, cnt := 65534, sum := 40 })
def wArm : State := (wAdcRun (fun x => x.wr (Reg.ACC_PARAM 9) 3)).onDev (fun d =>
  { d with rwpSheet := d.rwpSheet.set 1 [(secBase 1, secBase 2)] })

/-! ### PWM, gates and protection -/

/-- Section 1 with leg 4 a running 2L triangle leg of PRD 100: positions 0 and 1 a pair with a floor of 10 PWM clocks. -/
def wLeg (f : LegState → LegState) (g : SecState → SecState) : State := wTick (fun x =>
  let x1 := ((((x.wr (Reg.LEG_W 0 0) 0x100).wr (Reg.LEG_W 0 1) 7).wr (Reg.LEG_W 0 3) 0x81).wr (Reg.LEG_W 0 4) 10).wr (Reg.ACT_PRD 0) 100 |>.wr (Reg.OC_LIVE 0) 0
    |>.wr (Reg.ACT_FORCE 0) 0
  g (({ x1 with safe5 := 0 } : SecState).setLeg 0 (f { run := true, map := 0x333340, nr1 := false, nr2 := false })))
/-- The same leg as a bootstrap leg that idles: T_REF 5 clocks, two train pulses, permission to drive. -/
def wBoot2 (f : LegState → LegState) : State := wLeg (fun L => f { L with perm := true }) (fun x =>
  ((x.wr (Reg.LEG_W 0 0) 0x101).wr (Reg.LEG_W 0 7) 0x00010005).wr (Reg.LEG_W 0 8) 0x00010200)
def lUp (L : LegState) : LegState := { L with next := some 1600, nextPeak := true }
def lDown (L : LegState) : LegState := { L with next := some 3200, nextPeak := false, up := false, tEv := 1600 }
def wPeak : State := wLeg lUp id
def wValley : State := wLeg (fun L => { lDown L with pend := some [120, 5, 6, 7, 8, 9, 10, 0, 1, 2, 3] }) id
def wValleyNone : State := wLeg lDown id
def wEdge : State := wLeg (fun L => { L with tEv := 0 }) (fun x => x.wr (Reg.ACT_CMP 0 0) (40 * 128))
def wDt : State := wLeg (fun L => { L with dt := [(0, 50)] }) id
def wFloor : State := wLeg (fun L => { L with wait := [(1, 60)], req := 2 }) id
def wImm : State := wLeg (fun L => { L with immWait := some [120, 5, 6, 7, 8, 9, 10, 0x24, 1, 2, 3] }) id
def wVp : State := wLeg (fun L => { L with cfg := 0x80000002, vps := 0x10, next := none }) id
def wVpEdge : State := wLeg (fun L => { L with cfg := 0x80000002, vps := 0x10, next := none, vpEdge := true }) id
def wGrid : State := (wLeg id (fun x => ((x.wr Reg.ALIGN_M 1).wr Reg.ALIGN_SPAN 889).wr Reg.ALIGN_T0 9)).onDev (fun d =>
  (d.wr (Reg.PLL_FREQ 2) 0xB4000000).put (Reg.PLL_DIV 2) Fld.PLL_DIV_OUT0 20)
def wTrip : State := wLeg id (fun x => (x.wr (Reg.TRIP_SRC 0) 0x0030).wr Reg.WM_LATCH 4)
def wTripped : State := wLeg (fun L => { L with trip := 2, step := 3 }) (fun x => x.wr (Reg.FORCE_STAT 0) 2)
def wForcedLeg : State := wLeg (fun L => { L with step := 3 }) (fun x => x.wr (Reg.FORCE_STAT 0) 2)
def wIdleLeg : State := wBoot2 id
def wPulse : State := wBoot2 (fun L => { L with bsPulse := true, bsEnd := some 90 })
def wPulseWait : State := wBoot2 (fun L => { L with bsPulse := true, wait := [(1, 60)], req := 2 })
def wTrain : State := wBoot2 (fun L => { L with trainDue := true, req1 := 1, loLast := 5 })
def wTrain2 : State := wBoot2 (fun L => { L with bsPulse := true, bsEnd := some 90, train := 2, req := 2, out := 2, req1 := 1 })
def wTrain1 : State := wBoot2 (fun L => { L with bsPulse := true, bsEnd := some 90, train := 1, req := 2, out := 2, req1 := 1 })
def wForcedLatch : State := wLeg (fun L => { L with step := 3, allOff := true }) (fun x =>
  (x.wr (Reg.PROT_STAT 0) 0x80000100).wr (Reg.FORCE_STAT 0) 2)
def wOn2 : State := wLeg (fun L => { L with out := 1, req := 1 }) id
def wFlt : State := wLeg (fun L => { L with ball := 1, out := 1 }) (fun x => x.wr (Reg.OC_CFG 0) 0xFFFFFFFF)
def wFltLatched : State := wLeg (fun L => { L with step := 1, allOff := true, frozen := 9 }) (fun x => x.wr (Reg.PROT_STAT 0) 0x80000100)
def wInner : State := wLeg (fun L => { L with step := 2, allOff := true, frozen := 9 }) (fun x =>
  (x.wr (Reg.PROT_STAT 0) 0x80000100).wr (Reg.LEG_W 0 0) 0x200)
def wInner1 : State := wLeg (fun L => { L with step := 1, allOff := true, frozen := 15 }) (fun x =>
  ((x.wr (Reg.PROT_STAT 0) 0x80000100).wr (Reg.LEG_W 0 0) 0x200).put (Reg.OC_CFG 0) Fld.OC_CFG_STEP2_INNER 4)
def wNotReady : State := wLeg (fun L => { L with nr1 := true }) (fun x => x.wr (Reg.OC_LIVE 0) 1)
def wBlank : State := wLeg (fun L => { L with blank := [(0, 70), (1, 80)] }) (fun x => x.wr (Reg.OC_CFG 0) 0xFFFFFFFF)
def wBlankOc : State := wLeg (fun L => { L with blank := [(0, 70)] }) (fun x => x.wr (Reg.OC_LIVE 0) 1)
def wDone3 : State := wLeg (fun L => { L with step := 3, allOff := true }) (fun x => x.wr (Reg.PROT_STAT 0) 0x80000100)
def wTestable : State := wLeg id id
def wTesting : State := wLeg id (fun x => (x.put (Reg.SELFTEST 0) Fld.SELFTEST_BUSY 1).put (Reg.PROT_STAT 0) Fld.PROT_STAT_TEST_HOLD 1)
def wMon : State := wLeg id (fun x => x.put (Reg.WM_CFG 2) Fld.WM_CFG_USE 1)

/-! ### Bridges and islanding -/

/-- Section 1 with bridge 0 of kind 1 on leg 0, in a state. -/
def wBr (st : Nat) (g : SecState → SecState) : State := wLeg id (fun x =>
  g ({ x with bridges := x.bridges.set 0 { kind := 1, mask := 1 } }.put (Reg.BR_STAT 0) Fld.BR_STAT_STATE st))
def wBrCmd (st n : Nat) : State := wBr st (fun x => x.onSeq 0 (fun q => { q with cmds := [n] }))
def wBrCmdT (st n : Nat) : State := (wBrCmd st n).onDev (fun d => d.onSec 1 (fun x => { x with trig := some 5 }))
def wBrClaim : State := (wBr 1 id).onDev (fun d => d.put (Reg.HP_STAT 1) Fld.HP_STAT_COMPAT 1)
def wBrPre : State := wBr 1 id
def wBrConn : State := wBr 3 id
def wBrStop : State := wBr 6 id
def wBrSync : State := wBr 2 (fun x => x.onSeq 0 (fun q => { q with syncOk := true }))
def wBrSyncMain : State := wBr 2 (fun x => (x.onSeq 0 (fun q => { q with syncOk := true })).put (Reg.BR_CFG 0) Fld.BR_CFG_USE_MAIN 1)
def wBrRide : State := wBr 5 (fun x => x.onSeq 0 (fun q => { q with rideOk := true, segs := 4 }))
def wObsHold : State := wBr 4 (fun x => { x with ast := { x.ast with st := { x.ast.st with obs := { x.ast.st.obs with mode := 1 } } } })
def wMppt (rec : Bool) : State := wBr 4 (fun x =>
  let x1 := (((x.put (Reg.BR_MPPT2 0) Fld.BR_MPPT2_MPPT_EN 1).put (Reg.BR_MPPT2 0) Fld.BR_MPPT2_PER 2).put (Reg.BR_MPPT1 0)
    Fld.BR_MPPT1_STEP 3).put (Reg.BR_MPPT0 0) Fld.BR_MPPT0_VMAX 100
  let a : BrAst := { mv := 8000, mi := 4000, mn := 2, mt := 2, mvPrev := 100, miPrev := 50, mrec := rec, vref := 50000 }
  { x1 with ast := { x1.ast with st := { x1.ast.st with br := x1.ast.st.br.set 0 a } } })
def wPassive : State := wBr 4 (fun x => { x.wr Reg.ISL_PSTAT 0x40 with ast := { x.ast with pasRun := 4 } })
/-- The correlator on, with section 1 its angle section. -/
def wIsl : State := (wBr 4 id).onDev (fun d =>
  { d with isl := { d.isl with present := true } }.islPut Reg.ISL_INFO Fld.ISL_INFO_ANGLE_SEC 1 |>.islPut Reg.ISL_CHIP Fld.ISL_CHIP_K 62)
def wIslAligned : State := wIsl.onDev (fun d => { d.put Reg.TIME_STAT Fld.TIME_STAT_HALTED 0 with isl := { d.isl with toAligned := true } })
def wIslBusy : State := wIsl.onDev (fun d => { d.onSec 2 (fun x => { x with eng := { x.eng with run := some r0, tin := { x.eng.tin with chip := 62 } } }) with
  isl := { d.isl with toFree := true, recs := [62, 3].map (fun c => { chip := c, sec := 1, i := 0, areq := 0, ride := false, vpos := 0, psi := 0, valid := true }) } })
/-- In ALIGNED mode, T past the start of chip 5 or still in chip 2. -/
def wIslOn (n c : Nat) : State := wIsl.onDev (fun d =>
  { (d.put Reg.TIME_STAT Fld.TIME_STAT_HALTED 0).islPut Reg.ISL_STAT Fld.ISL_STAT_ALIGNED 1 with
    isl := { (d.islPut Reg.ISL_STAT Fld.ISL_STAT_ALIGNED 1).isl with n := n }, time := { d.time with tb := c } })
def wIslTimed : State := wIslOn 2 (100000000 * 2 ^ 28)
def wIslEarly : State := wIslOn 5 0
def wRdiItem : State := wEng 0x2A 0x200061

/-! ### Metering -/

/-- Metering point 3 on, with N of 2 cycles, in a device in SERVICE. -/
def wPoint (f : Dev → Dev) : State := svc (fun d => f (((d.put (Reg.MP_STAT 3) Fld.MP_STAT_ON 1).wr (Reg.MP_W 3 4) 2).wr (Reg.MP_W 3 5) 0x10000))
def wFirst : State := wPoint id
/-- The seven channels 0 to 6 of section 0 serve the point, the last of them as its neutral. -/
def wMet (f : Dev → Dev) : State := wPoint (fun d =>
  f (((d.wr (Reg.MP_W 3 0) 1).wr (Reg.MP_W 3 1) 0x00020100).wr (Reg.MP_W 3 2) 0x06050403 |>.put Reg.TIME_STAT Fld.TIME_STAT_HALTED 0))
/-- Decimated streams of these channels, with the words given. -/
def withStreams (out : List (Int × Int)) (outs : Nat) (d : Dev) : Dev :=
  d.onSec 0 (fun x => { x with dec := (upTo 7).map (fun c => (c, { outs := outs, out := out })) })
def cyc0 : Cycle := { start := 1000, stop := 2000, smp := [1000, 1500] }
def wCyc (n : Nat) : State := wMet (fun d =>
  (withStreams [(3000, 100), (500, 90)] 20 (((d.put (Reg.PLL_STAT 0) Fld.PLL_STAT_LOCK 1).put (Reg.PLL_DIV 0) Fld.PLL_DIV_OUT1 8).wr Reg.DOM_EN 1)).put (Reg.MP_STAT 3) Fld.MP_STAT_RUN 1 |>.put (Reg.MP_STAT 3) Fld.MP_STAT_FREE 1
    |>.setPoint 3 { cycles := n, tot := [(2, 7 * 2 ^ 32)], tally := [0, 3, 0, 0, 0, 0, 0], live := [0, 5, 9, 0, 0, 0, 0]
                    ang := some {}, done := [cyc0] })
def cycDev (n : Nat) : Dev := (wCyc n).dev.pointNow 3
def cycEs (n : Nat) : List (Nat × Nat) := (cycDev n).cycleUnits 3 cyc0
/-- A point that is on and waits for its streams. -/
def wStart (outs : Nat) : State := wMet (withStreams [] outs)
def wBlock (n : Nat) : State := wMet (fun d => withStreams ((upTo n).map (fun k => ((((n - k : Nat) : Int)), 5))) 20
  (d.setPoint 3 { win := { on := true } }))
def wFreeing : State := (wCyc 0).onDev (fun d => d.put (Reg.MP_STAT 3) Fld.MP_STAT_FREE 0)
def wTot : State := wPoint (fun d => (d.setPoint 3 { tot := [(2, (5 * 2 ^ 32 + 7) * 2 ^ 32)], latched := [1, 2, 3, 4, 5, 6, 7], wrap := 0x30, wtime := 99 }).put
  Reg.MET_STAT Fld.MET_STAT_RESTORE 0)
def wTotField : State := { wTot with nv := { fuses := { lcs := 1 } } }
def wHarm : State := wPoint (fun d => d.setPoint 3 { res := some ⟨[(1, 5)], [(2, 6)], true, false, 77⟩, hseq := 4 })
def wPls (on : Bool) : State := svc (fun d =>
  { ((d.put (Reg.PLS_CFG 5) Fld.PLS_CFG_EN 1).put (Reg.PLS_CFG 5) Fld.PLS_CFG_POL 1).put (Reg.PLS_STAT 5) Fld.PLS_STAT_PENDING 2 with
    pulses := [(5, { on := on })] })

/-! ### Faults -/

/-- Device source 5 driven, with a map word. -/
def wSrc (m : W) : State := svc (fun d => { (d.wr (Reg.DFC_MAP 5) m).wr (Reg.DFC_CFG) 1 with fc := d.fc.pulse 5 })
def wSrcHeld (m : W) : State := inSt 4 (fun d => { (d.wr (Reg.DFC_MAP 10) m).wr (Reg.DFC_CFG) 1 with fc := d.fc.hold 10 true })
def wSecSrc (m : W) : State := inSt 4 (fun d => d.onSec 1 (fun x => { x.wr (Reg.FC_MAP 20) m with fc := x.fc.pulse 20 true }))
def wSticky (m : W) : State := (wSecSrc m).onDev (fun d => d.secPut 1 Reg.FC_CFG Fld.FC_CFG_STICKY 1)
def wEsc : State := inSt 4 (fun d => (d.wr (Reg.DFC_ESC 7) 0x80000003).onSec 1 (fun x => x.wr (Reg.FC_ESC 20) 0x80000003))
def wLevel : State := inSt 4 (fun d =>
  { d with fc := d.fc.setPair 7 { drive := true, level := true } }.onSec 1 (fun x => { x with fc := x.fc.setPair 20 { drive := true, level := true } }))
def wBroken : State := inSt 4 (fun d =>
  { d with fc := d.fc.setPair 7 { drive := true, level := true, broken := true } }.onSec 1 (fun x => { x with fc := x.fc.setPair 20 { broken := true } }))
def wLog : State := inSt 4 (fun d =>
  { d with fc := { d.fc with log := [⟨1, 2⟩, ⟨3, 4⟩] } }.onSec 1 (fun x => { x with fc := { x.fc with log := [⟨1, 2⟩, ⟨3, 4⟩] } }))
def wFire (g : Nat) : State := svc (fun d => d.put Reg.INJ_CFG Fld.INJ_CFG_TARGET g)
def wHolding (g : Nat) : State := (wFire g).onDev (fun d => { d with inj := { act := some (d.rd Reg.INJ_CFG) } }.onPair g (fun c n => c.hold n true true)) 

/-- The same with the pair arrived at its collector. -/
def wArrived (g : Nat) : State := (wHolding g).onDev (fun d => d.onPair g (fun c n => c.setPair n { c.pair n with level := true }))
def wFireField : State := { wFire 7 with nv := { fuses := { lcs := 1 } } }

/-! ### The safety block -/

/-- The block in a state, with a seal byte adopted, every input healthy and section 1 ENABLED. -/
def wSf (st sv : Nat) (f : Dev → Dev) : State := (wLeg id id).onDev (fun d =>
  f ((((d.put Reg.SAFE_STATE Fld.SAFE_STATE_STATE st).put Reg.SAFE_SEAL Fld.SAFE_SEAL_ADOPTED sv).put Reg.SAFE_SEAL
    Fld.SAFE_SEAL_LIVE sv).wr Reg.SAFE_IN 0x55))
def wInit : State := wSf 0 0 id
/-- Seal byte 0x0F: DOOR, RSD and ARC enabled, ESTOP of category 1 (parity is not checked by this command). -/
def wSfReady : State := wSf 2 0x0F id
def wSfTripped : State := wSf 1 0x0F id
def wSfRamp : State := wSf 3 0x0F (fun d => { d with safe := { d.safe with ramp := 5 } })
def wDisc : State := wSf 2 0x0F (fun d => d.put Reg.SAFE_IN Fld.SAFE_IN_DISC 2)
def wSealed : State := wSf 2 0x07 id
def wSfStep (k : Nat) : State := wSf 1 0x07 (fun d => { d with safe := { d.safe with step5 := k, offPend := true } })
def wSo : State := wSf 1 0x07 (fun d => { d.put Reg.SAFE_OUT Fld.SAFE_OUT_SO 15 with safe := { d.safe with offPend := true } })
def wFbk (st : Nat) : State := wSf st 0x20 (fun d => d.put Reg.SAFE_OUT Fld.SAFE_OUT_SO 2)
def wFbkMirror : State := wSf 2 0 (fun d => { (d.put Reg.SAFE_OUT Fld.SAFE_OUT_SO 2) with safe := { d.safe with win := 2 } })
def wWeld : State := wSf 1 0 (fun d => { (d.put Reg.SAFE_OUT Fld.SAFE_OUT_CLOSED 2) with safe := { d.safe with win := 2, weld := true } })
def wFollowed : State := wSf 2 0 (fun d => { (d.put Reg.SAFE_OUT Fld.SAFE_OUT_SO 1).put Reg.SAFE_OUT Fld.SAFE_OUT_CLOSED 1 with safe := { d.safe with win := 1 } })
def wShunt : State := wSf 1 0 (fun d => { d with safe := { d.safe with shunt := true } })
def wShuntOn : State := wSf 1 0 (fun d => d.put Reg.SAFE_OUT Fld.SAFE_OUT_SO 8)
def wSfLocked : State := wSf 4 0x01 id
def wAutoReset (fresh : Bool) : State := wSf 1 0x47 (fun d => { d with safe := { d.safe with fresh := fresh, since := 2 } })
def wSealLocked : State := wSf 4 0x07 (fun d => d.put Reg.SAFE_SEAL Fld.SAFE_SEAL_LIVE 6)

/-! ### Network time -/

/-- The counter runs with T at 2^30 ns. -/
def wTime (f : Dev → Dev) : State := svc (fun d =>
  f { (d.put Reg.TIME_STAT Fld.TIME_STAT_HALTED 0).wr Reg.TIME_ADJ 0xFFFF1A00 |>.wr Reg.TIME_ADJ_HI 0xFFFFFFFF with
      time := { c := 1000, cb := 10, tb := 2 ^ 58, wraps := ⟨0, 3, 15, 0⟩, stepped := ⟨true, false, true, false⟩ } })
def wTimeSet : State := wTime (fun d => (d.put Reg.TIME_STAT Fld.TIME_STAT_SET 1).wr Reg.JUMP_MAX 229)
def wTimeUnset : State := wTime id
def wSlewing : State := wTime (fun d => (d.wr Reg.TIME_SLEW_REM 0xFFFFFFFB).put Reg.TIME_STAT Fld.TIME_STAT_SLEW_BUSY 1)
def wWrap : State := wTime (fun d => { d with time := { c := 5, tb := 2 ^ 60 - 1, cb := 5, wraps := ⟨0, 14, 15, 2⟩ } })
def wHalt : State := svc id
def wTimeBegun : State := wTimeSet.onDev (fun d => d.onSec 1 (fun x => { x with align := { x.align with begun := true, t0New := true } }))

/-! ### Ethernet -/

/-- A ring of four entries with buffers of 128 bytes, at pool offset 0x1000. -/
def ringOn (q : Nat) (d : Dev) : Dev :=
  ((d.put (Reg.Q_CFG q) Fld.Q_CFG_LOG2_DESC 2).put (Reg.Q_CFG q) Fld.Q_CFG_BUF_UNITS 2).put (Reg.Q_BASE q) Fld.Q_BASE_OFFSET 0x1000
/-- Port 1 on with its link up, and one ring. -/
def wEth (q : Nat) (f : Dev → Dev) : State := svc (fun d =>
  f (ringOn q ((((((d.put (Reg.PLL_STAT 6) Fld.PLL_STAT_LOCK 1).wr (Reg.PLL_DIV 6) 0x0808).wr Reg.DOM_EN 0xFFFFFFFF).put (Reg.ETH_CFG 1) Fld.ETH_CFG_EN 1).put (Reg.ETH_STAT 1) Fld.ETH_STAT_LINK 1).put
    Reg.TIME_STAT Fld.TIME_STAT_HALTED 0)))
def ethBody : List Byte := List.replicate 6 0xFF ++ [2, 0, 0, 0, 0, 1, 0x12, 0x34] ++ List.replicate 46 7
def ethGood : List Byte := ethBody ++ natBytes 4 (crc32 ethBody)
def ethBad : List Byte := ethBody ++ [1, 2, 3, 4]
def wRx : State := wEth 14 id
/-- An entry of 20 bytes, its descriptor word 0 with the flags given, the launch time at T + 1 ms. -/
def wTx (flags : W) (f : Dev → Dev) : State := wEth 9 (fun d =>
  f ((d.qPush 9 (flags ||| 20) 1000000 0 0 (List.replicate 20 9))))
def wUntimed : State := wTx 0 id
def wTimed : State := wTx 0x10000000 (fun d => { d with eth := d.eth.upd 1 (fun e => { e with slots := [⟨0, 10, 0, 5⟩, ⟨2, 10, 1, 6⟩] }) })
def slot3 : LaunchSlot := ⟨3, 9, 0, 1000000⟩
def wSlot : State := wTx 0x10000000 (fun d => { d with eth := d.eth.upd 1 (fun e => { e with slots := [slot3] }) })
/-- T is 1 ms on, or 1 ms past the launch of the slot's frame. -/
def wSlotAt (ms : Nat) : State := wSlot.onDev (fun d => { d with time := { d.time with tb := ms * 1000000 * 2 ^ 28 } })
def wTimedLate : State := (wTx 0x10000000 id).onDev (fun d => { d with time := { d.time with tb := 2000000 * 2 ^ 28 } })
def wMasters : State := wEth 9 (fun d => ((d.wr (Reg.FM_STAT 1) 0x56).wr (Reg.FM_W2 1 1) 0x100280).wr (Reg.FM_W2 1 2) 0x100380)
def wLinkDown : State := svc id

/-! ### Field links -/

def wBus (q : Nat) (f : Dev → Dev) : State := svc (fun d => f (ringOn q ((d.put (Reg.PLL_STAT 6) Fld.PLL_STAT_LOCK 1).wr (Reg.PLL_DIV 6) 0x0808)))
def wCan (q : Nat) (f : Dev → Dev) : State := wBus q (fun d => f (d.put (Reg.CAN_CFG 1) Fld.CAN_CFG_EN 1))
def wCanRx : State := wCan 43 id
def wCanFilter : State := wCan 43 (fun d => (d.wr (Reg.CAN_FLT 1 0) 0x80000123).wr (Reg.CAN_MSK 1 0) 0x1FFFFFFF)
def wCanTx : State := wCan 42 (fun d => d.qPush 42 3 0x123 3 0 [1, 2, 3])
def wBusOff : State := wCan 42 (fun d => (d.put (Reg.CAN_STAT 1) Fld.CAN_STAT_BUSOFF 1).put (Reg.CAN_CFG 1) Fld.CAN_CFG_AUTO_REC 1)
def wUart (q : Nat) (f : Dev → Dev) : State := wBus q (fun d => f (d.put (Reg.UART_CFG 1) Fld.UART_CFG_EN 1))
def wUartTx : State := wUart 46 (fun d => d.qPush 46 3 0 0 0 [1, 2, 3])
def wUartRx : State := wUart 47 id
def wI2c : State := svc (fun d => d.wr (Reg.I2C_WDATA 1 0) 0x04030201)
def wI2cBusy : State := wI2c.onDev (fun d =>
  { d.put (Reg.I2C_STAT 1) Fld.I2C_STAT_BUSY 1 with i2c := Tbl.set (fun _ => ({} : I2cPort)) d.i2c 1 ⟨some (0x80020148, [1])⟩ })
def dlBody : List Byte := [0x30, 1, 2, 3, 4, 5, 6, 7, 8, 9, 10, 11, 12]
def dlGood : List Byte := 0xBC :: dlBody ++ beBytes 2 (crc16 dlBody)
def dlBad : List Byte := 0xBC :: dlBody ++ [0, 0]
def wDl : State := wBus 53 (fun d => d.put (Reg.DL_CFG 5) Fld.DL_CFG_EN 1)
def wDlValid : State := wDl.onDev (fun d => (d.put (Reg.DL_STAT 5) Fld.DL_STAT_VALID 1).wr (Reg.DL_DOWN 5 1) 0x11223344)
def wCanErr : State := wCan 43 (fun d => d.put (Reg.CAN_STAT 1) Fld.CAN_STAT_REC 125)
def wCanBad : State := wCan 42 (fun d => d.qPush 42 3 0x123 9 0 [1, 2, 3])
def wCanTxErr : State := wCanTx.onDev (fun d => d.put (Reg.CAN_STAT 1) Fld.CAN_STAT_TEC 250)
/-- Section 2 has a bridge on its legs 2 and 3, the boards of link 5. -/
def wDlBridge : State := wDl.onDev (fun d => (d.onSec 2 (fun x => { x with bridges := x.bridges.set 1 { kind := 1, mask := 0xC } })).secPut 2
  Reg.SEC_STATE Fld.SEC_STATE_STATE 4)

/-! ### The forerunner's port -/

/-- Port 1 in compatibility mode over section 1 with its monitors logic inputs and bridge 0, which has reached READY, in a state. -/
def wCp (st br : Nat) (f : CompatPort → CompatPort) (g : SecState → SecState) : State := (wBr br (fun x =>
  g (((upTo 4).foldl (fun x n => (x.wr (Reg.WM_CFG n) 0x80000000).put (Reg.WM_CFG n) Fld.WM_CFG_DIG 1) x).put Reg.SEC_STATE
    Fld.SEC_STATE_STATE st))).onDev (fun d =>
  (d.put (Reg.HP_STAT 1) Fld.HP_STAT_COMPAT 1).onCp 1 (fun p => f { p with live := true, reply := 0x30062, fresh := 0x81, tripEv := 3 }))
def wCpReady : State := wCp 3 0 id id
def wCpRun : State := wCp 4 4 (fun p => { p.wr 1 2 with run := true }) id
def wCpDead : State := wCp 1 0 (fun p => { p with live := false }) id
def wCpOvr : State := wCp 4 4 (fun p => (p.wr 9 0x8006).wr 5 100) id
def wCpNow : State := wCp 4 4 (fun p => { (p.wr 1 4).wr 4 40 with run := true }) id
def wCpTrip : State := wCp 4 4 id (fun x => x.wr Reg.WM_LATCH 0x102)
def wCpStopped : State := wCp 6 0 (fun p => (p.wr 3 99).wr 0xD 1) id
def wCpErr : State := wCp 4 7 (fun p => { p with spiErr := true, adcOvr := true, esd := true }) id
def wCpWin : State := wCp 4 4 (fun p => { (p.wr 0x20 2).wr 0x19 1 with win := true }) id
def wCodes : Samples := [(0, [0x0010, 0x0020]), (1, [0x3000])]

/-! ### The auxiliary supply -/

/-- The converter of the worked example in a state, SYS locked, its target reached, with a change. -/
def wAux (st retry : Nat) (f : Dev → Dev) : State := svc (fun d =>
  let d1 := (((((((d.wr Reg.AUX_CFG 0x303203E8).wr Reg.AUX_VREG 0x000A0D55).wr Reg.AUX_CUR 0x01330078).wr Reg.AUX_PROT 0x47E60F55).wr
    Reg.AUX_VSCALE 0x00070800).wr Reg.AUX_ISCALE 0x001D4C00).put Reg.AUX_STAT Fld.AUX_STAT_STATE st).put Reg.AUX_STAT
    Fld.AUX_STAT_RETRY retry
  let d2 := (d1.put Reg.AUX_CTRL Fld.AUX_CTRL_RUN (if st = 0 then 0 else 1)).put (Reg.PLL_STAT 0) Fld.PLL_STAT_LOCK 1
  f { d2 with aux := { d2.aux with code := 3413, ramp := d2.auxGoal, on := 5, icmd := 1000, per := true } })
def wAuxOff : State := wAux 0 0 id
def wAuxSoft : State := wAux 1 3 id
def wAuxLow (retry : Nat) : State := wAux 1 retry (fun d => { d with aux := { d.aux with code := 800 } })
def wAuxRun : State := wAux 2 1 id
def wAuxHicc : State := wAux 3 2 id
def wAuxLatched : State := wAux 4 8 (fun d => d.hold 32 true)
def wAuxLatchedOff : State := wAux 4 8 (fun d => (d.hold 32 true).put Reg.AUX_CTRL Fld.AUX_CTRL_RUN 0)
def wAuxLim (retry : Nat) : State := wAux 2 retry (fun d => { d with aux := { d.aux with limited := 63, lim := true, icmd := 307 * 65536 } })
def wAuxSteep : State := wAux 2 0 (fun d => { d with aux := { d.aux with code := 3342, lows := 2, off0 := 2 } })
def wAuxUv : State := wAux 2 0 (fun d => d.put Reg.AUX_STAT Fld.AUX_STAT_UV 1)
def wAuxOne : State := wAux 2 0 (fun d => d.wr Reg.AUX_TCFG 0x00000640)
def wAuxOpen : State := wAux 2 0 (fun d => { d with rwpBase := [(Reg.AUX_CFG, Reg.AUX_CFG)] })

/-! ### The keep domain -/

/-- The example cut: 220 uF, MARGIN 32, the last gasp on, main supply good or lost, in a READY section 1. -/
def wKeep (main : Nat) (f : Dev → Dev) : State := inSt 3 (fun d =>
  f ((((d.wr Reg.KEEP_CFG 0x602000DC).wr Reg.LG_CFG 0xE0000010).wr Reg.LG_EBIT 0x110).put Reg.KEEP_STAT Fld.KEEP_STAT_MAIN_OK main))
def wKeepMain : State := wKeep 1 id
def wKeepBat : State := wKeep 0 (fun d => d.put Reg.KEEP_STAT Fld.KEEP_STAT_ON_VBAT 1)
def wBursts (main : Nat) (bs : List Burst) : State := wKeep main (fun d => { d with keep := { d.keep with waiting := bs } })
def wBurst (b : Burst) : State := wKeep 0 (fun d => { d with keep := { d.keep with running := some b } })
def bLeaf : Burst := ⟨2, false, [1, 0, 0, 0, 0, 0, 0, 0]⟩
def bGasp : Burst := ⟨5, false, []⟩
def bMet : Burst := ⟨4, false, []⟩
/-- A leaf index committed once already. -/
def wLeafTwice : State := { wBurst bLeaf with nv := { (wBurst bLeaf).nv with feram := Memory.writeBytes [] (feCommit (wBurst bLeaf).nv 2 bLeaf.payload).1 (feCommit (wBurst bLeaf).nv 2 bLeaf.payload).2.2 } }
def wRefresh : State := wLeafTwice.onDev (fun d => { d.put Reg.KEEP_STAT Fld.KEEP_STAT_MAIN_OK 1 with keep := {} })
def wMetRun : State := (wBursts 0 [bMet, bLeaf]).onDev (fun d => { d.put Reg.MET_STAT Fld.MET_STAT_RESTORE 0 with keep := { d.keep with running := some bMet } })
def wAlarm : State := wKeep 1 (fun d => (d.wr Reg.RTC_SEC 5).wr Reg.RTC_ALARM 5)
def wTamp : State := wKeep 1 (fun d => (d.wr Reg.TAMP_CFG 2).wr Reg.RTC_SEC 77)
def wTampHeld : State := wTamp.onDev (fun d => { d with held := true })
def wTampDue : State := wTamp.onDev (fun d => { d with held := true, keep := { d.keep with tamper := true } })

/-! ### Ill-formed commands, one for each check -/

theorem test_unaligned_register_address_is_ill_formed : (Instr.registerWrite 0x402 0).wf = false := by decide
theorem test_word_beside_a_table_is_ill_formed : (Instr.scrubRead 0 false 2 257 .clean true).wf = false := by decide
theorem test_word_beside_the_program_is_ill_formed : (Instr.scrubRead 0 false 3 2048 .clean true).wf = false := by decide
theorem test_can_frame_of_nine_bytes_is_ill_formed : (Instr.canFrameRx 0 0 0 (List.replicate 9 0) 0 .frame).wf = false := by decide
theorem test_nine_read_bytes_are_ill_formed : (Instr.i2cDone 0 .done (List.replicate 9 0)).wf = false := by decide
theorem test_short_signature_is_ill_formed : (Instr.reportDone [] []).wf = false := by decide
theorem test_supply_beyond_its_field_is_ill_formed : (Instr.keepSupplyChange 65536 0 0).wf = false := by decide
theorem test_measurement_beyond_its_field_is_ill_formed : (Instr.keepMeasure 0 0 0 65536).wf = false := by decide
theorem test_burst_voltage_beyond_its_field_is_ill_formed : (Instr.burstStart 65536 0 0 0).wf = false := by decide
theorem test_register_write_is_well_formed : (Instr.registerWrite 0x400 0).wf = true := by decide

/-! ### Numbers of the spec's worked examples -/

/-- A duty of 0.5 and of 0.2, the same edge in absolute mode, and X_max (spec/05_pwm.md, cutting duty). -/
theorem test_duty_half_resolves : (resolveX 0x0B000000 0xF8000000 0x8000 33333).1 = 266664 := by decide
theorem test_duty_fifth_rounds_half_even : (resolveX 0x0B000000 0xF8000000 0x3333 33333).1 = 106664 := by decide
theorem test_absolute_compare_resolves : (resolveX 0x09000000 0xF8000000 0x00208D08 33333).1 = 266664 := by decide
theorem test_compare_is_clamped : resolveX 0x0B000000 0xF8000000 0xFFFF 33333 = (516662, true, false) := by decide

/-- The reactive-current curve at -0.3 pu, logical table 0 (spec/07_engine.md). The last word is KH 40, at C[80] and C[81]. -/
def wCurve : State := (wEng 0x21 0x604028).onDev (fun d => d.onSec 1 (fun x =>
  let img := { x.eng.imgA with
    coef := [(80, 0xFC000000), (81, 0x01000000)], lut := [(51, 80740352), (52, 79691776)] }
  { x with eng := { x.eng with imgA := img, run := some { r0 with st := { wreg := [(1, 0xFD99999A)] } } } }))
theorem test_curve_is_interpolated : ∃ t, exec (.lut 1 .run 0x604028) wCurve = .next t ∧
    ((t.dev.sc 1).runOf .run).reg 0 6 = 80530640 := ⟨_, rfl, by decide⟩

/-- The addresses of the ADC block of section 0 (spec/04_measurement.md) and of HP0's read (spec/15_host_links.md). -/
theorem test_adc_cfg0_of_section_0 : placeOf 0x120100 = .sec 0 (Reg.ADC_CFG 0) := by decide
theorem test_frame_address_is_the_acc_stat : placeOf (0x048403 * 4) = .sec 0 (Reg.ACC_STAT 0) := by decide

/-- The entry of two events within 10 s (spec/12_faults.md): severity 2, then 4. -/
theorem test_first_short_at_severity_2 :
    let x := ((wEsc.dev.onSec 1 (fun x => x.wr (Reg.FC_MAP 9) 0x000A80A2)).sc 1).fcIO 1
    x.nextSev 9 = 2 := by decide
theorem test_second_short_at_severity_4 :
    let x := ((wEsc.dev.onSec 1 (fun x => (x.wr (Reg.FC_MAP 9) 0x000A80A2).wr (Reg.FC_ESC 9) 0x80000001)).sc 1).fcIO 1
    x.nextSev 9 = 4 := by decide

/-- Emergency stop with the seal 0x4F (spec/13_safety.md): RAMP from READY, and TRIPPED after it. -/
def wStop (st : Nat) : State := (wSf st 0x4F id).onDev (fun d => { d.wr Reg.SAFE_SEAL 0x4F4F with safe := { d.safe with ramp := 1 } })
set_option maxRecDepth 20000 in
theorem test_emergency_stop_enters_ramp : ∃ t, exec (.safeInputChange 0 false) (wStop 2) = .next t ∧
    t.dev.rd Reg.SAFE_STATE = 0x23 := ⟨_, rfl, by decide⟩
theorem test_ramp_ends_in_tripped : ∃ t, exec .rampExpiry (wStop 3) = .next t ∧ t.dev.rd Reg.SAFE_STATE = 0x31 :=
  ⟨_, rfl, by decide⟩

/-- The needs of the example cut, and its decisions by day and by night (spec/19_keep.md). -/
theorem test_last_gasp_needs_131104_nj : wKeepMain.dev.burstNeed wKeepMain.nv bGasp = 131104 := by decide
theorem test_metering_commit_needs_43960_nj : wKeepMain.dev.burstNeed wKeepMain.nv bMet = 43960 := by decide
theorem test_store_at_5_volts_holds_2393600_nj : wKeepMain.dev.burstAvail 5000 = 2000 * 2393600 := by decide
theorem test_commit_by_night_is_admitted : ∃ t, exec (.burstStart 2100 3000 0 0) (wBursts 0 [bMet]) = .next t ∧
    t.dev.keep.running = some bMet := ⟨_, rfl, by decide⟩

set_option maxRecDepth 20000 in
/-- The write of CMPA 1,500 on HP3 (spec/17_forerunner.md), frame 0x04_05DC, as a read of it gives it. -/
theorem test_cmpa_reads_1500 : ∃ t, exec (.compatCmpWrite 1 0 0x05DC 0) wCpNow = .next t ∧
    (t.dev.cp 1).view (t.dev.sc 1) 4 = 0x05DC := ⟨_, rfl, by decide⟩

/-- A step of 5,000 ns is refused (spec/14_network_time.md). -/
theorem test_step_beyond_jump_max_is_refused : ∃ t, exec (.timeStep false)
      (wTimeSet.onDev (fun d => ((d.wr Reg.TIME_ADJ 1280000).wr Reg.TIME_ADJ_HI 0).wr Reg.JUMP_MAX 1000)) = .next t ∧
    t.dev.flag Reg.TIME_STAT Fld.TIME_STAT_JUMP_REFUSED = true := ⟨_, rfl, by decide⟩

/-- Where the balls of the example lie (spec/21_pins.md, the worked example), and how many balls each supply has (R413). -/
theorem test_ball_places :
    ([Ball.gate 54, .flt 54, .gate 59, .soft 9, .oc true false 9, .oc true true 9, .ain 30 false, .wm 20, .eth 0 false false,
      .dl 3 true true, .safeIn 0, .uartDe 1] : List Ball).map (fun b => (rowName b.place.1, b.place.2)) =
      [("AP", 34), ("AP", 33), ("AP", 24), ("AP", 22), ("AG", 32), ("AG", 31), ("AD", 34), ("AB", 31), ("F", 29), ("H", 22),
        ("AK", 29), ("AH", 11)] := by decide
theorem test_supply_balls :
    ([some Supply.vdd, some .vddsd, some .vdda18, some .vddio18, some .vddio33, some .vss, some .agnd, none] :
      List (Option Supply)).map
        (fun v => ((upTo 1156).filter (fun i => supplyAt (i / 289) (i % 289 / 17 + 1) (i % 17 + 1) == v)).length) =
      [120, 24, 32, 24, 56, 270, 48, 582] := by decide +kernel

/-- The published example of AES-256 (FIPS 197, C.3), and the digests of "abc" (FIPS 180-4). -/
theorem test_aes_256_example :
    aesRounds (aesKeys ((upTo 32).map (BitVec.ofNat 8))) ((upTo 16).map (fun i => i * 17)) =
      [0x8E, 0xA2, 0xB7, 0xCA, 0x51, 0x67, 0x45, 0xBF, 0xEA, 0xFC, 0x49, 0x90, 0x4B, 0x49, 0x60, 0x89] := by decide +kernel
theorem test_sha_384_of_abc : (sha384 [0x61, 0x62, 0x63]).take 8 = [0xCB, 0x00, 0x75, 0x3F, 0x45, 0xA3, 0x5E, 0x8B] := by
  decide +kernel
theorem test_sha_256_of_abc : (sha256 [0x61, 0x62, 0x63]).take 8 = [0xBA, 0x78, 0x16, 0xBF, 0x8F, 0x01, 0xCF, 0xEA] := by
  decide +kernel

/-! ### States and operands that meet the hypotheses of the statements, clause by clause -/

/-- A reset device with one command that waits. -/
def wQueued : State := { State.reset with pending := [.tamper 0] }
/-- Witness of StepsKeepMemoriesAndOnlyBurnFuses. -/
theorem wit_steps_keep_memories_and_only_burn_fuses : ∃ t, wQueued.nv.Inv ∧ step wQueued = .next t :=
  ⟨_, by decide, rfl⟩

/-- Witness of ReferenceLossHoldoverFallbackAndReturn. -/
theorem wit_reference_loss_holdover_fallback_and_return :
    (wRef.awake) ∧
    ((wHold.awake) ∧ (wHold.dev.flag Reg.REF_STAT Fld.REF_STAT_HOLDOVER = true) ∧ (wHold.dev.flag Reg.REF_STAT Fld.REF_STAT_REF_OK = false)) ∧
    ((wHold.awake) ∧ (wHold.dev.flag Reg.REF_STAT Fld.REF_STAT_FALLBACK = false)) ∧
    ((wAuto.awake) ∧ (wAuto.dev.flag Reg.REF_STAT Fld.REF_STAT_FALLBACK = true) ∧ (wAuto.dev.flag Reg.REF_STAT Fld.REF_STAT_RETURNING = false)) ∧
    ((wFall.awake) ∧ (wFall.dev.flag Reg.REF_STAT Fld.REF_STAT_FALLBACK = true) ∧ (wFall.dev.flag Reg.REF_STAT Fld.REF_STAT_RETURNING = false)) ∧
    ((wFall.ready) ∧ (keyIs (1522728961 : W) 23235 = true) ∧ (wbit (1522728961 : W) 0 = true) ∧ (wFall.dev.flag Reg.REF_STAT Fld.REF_STAT_REF_OK = true) ∧ (wFall.dev.flag Reg.REF_STAT Fld.REF_STAT_FALLBACK = true) ∧ (wFall.dev.flag Reg.REF_STAT Fld.REF_STAT_RETURNING = false)) ∧
    ((wReturn.awake) ∧ (wReturn.dev.flag Reg.REF_STAT Fld.REF_STAT_RETURNING = true)) ∧
    ((wLast.awake) ∧ (wLast.dev.flag Reg.REF_STAT Fld.REF_STAT_RETURNING = true)) := by
  refine ⟨?_, ?_, ?_, ?_, ?_, ?_, ?_, ?_⟩ <;> decide

/-- Witness of LockTakesLowestBand. -/
theorem wit_lock_takes_lowest_band :
    ((wPll.awake) ∧ (wPll.dev.pllOn (2 : Fin 7).val = true) ∧ (wPll.dev.locked (2 : Fin 7).val = false) ∧ (freqValid (wPll.dev.rd (Reg.PLL_FREQ (2 : Fin 7).val)) = true) ∧ (3 < 16) ∧ (wPll.dev.bandFits (2 : Fin 7).val 3 = true) ∧ (∀ (j : Nat), j < 3 → wPll.dev.bandFits ((2 : Fin 7).val) j = false)) ∧
    ((wNoBand.awake) ∧ (wNoBand.dev.pllOn (2 : Fin 7).val = true) ∧ (wNoBand.dev.locked (2 : Fin 7).val = false) ∧ (freqValid (wNoBand.dev.rd (Reg.PLL_FREQ (2 : Fin 7).val)) = true) ∧ (∀ (i : Nat), i < 16 → wNoBand.dev.bandFits ((2 : Fin 7).val) i = false)) := by
  refine ⟨?_, ?_⟩ <;> decide

/-- Witness of ClockLossRaisesAndStops. -/
theorem wit_clock_loss_raises_and_stops :
    ((wLock.awake) ∧ (wLock.dev.clockWatched (1 + (1 : Sec).val) = true)) ∧
    ((wAdc.awake) ∧ (wAdc.dev.clockWatched 5 = true)) ∧
    ((wNet.awake) ∧ (wNet.dev.clockWatched 6 = true)) ∧
    ((wSys.awake) ∧ (wSys.dev.clockWatched 0 = true) ∧ (wSys.dev.devState ≠ 5) ∧ (wSys.dev.devState ≠ 6)) ∧
    ((wSys.awake) ∧ (wSys.dev.secSt (1 : Sec) = 3 ∨ wSys.dev.secSt (1 : Sec) = 4 ∨ wSys.dev.secSt (1 : Sec) = 7)) := by
  refine ⟨?_, ?_, ?_, ?_, ?_⟩ <;> decide

/-- Witness of PllStepsComplete. -/
theorem wit_pll_steps_complete :
    (wSettle.awake) ∧
    ((wSpread.awake) ∧ ((wSpread.dev.pll (2 : Fin 7).val).ssPend = true)) ∧
    ((wPhase.awake) ∧ (wPhase.dev.flag (Reg.PLL_STAT (2 : Fin 7).val) Fld.PLL_STAT_PH_BUSY = true) ∧ (sgn 16 (wPhase.dev.fld (Reg.PLL_STAT (2 : Fin 7).val) Fld.PLL_STAT_PH_REMAIN) = (-2 : Int)) ∧ ((-2 : Int) ≠ (0 : Int))) := by
  refine ⟨?_, ?_, ?_⟩ <;> decide

/-- Witness of PllFreqWriteAppliesOrRefuses. -/
theorem wit_pll_freq_write_applies_or_refuses :
    ((wLock.ready) ∧ (freqValid (3020947456 : W) = true) ∧ (wLock.dev.flag (Reg.PLL_STAT (2 : Fin 7).val) Fld.PLL_STAT_SETTLING = false) ∧ (wLock.dev.smallStep (2 : Fin 7).val (3020947456 : W) = true)) ∧
    ((wLock.ready) ∧ (freqValid (3372220416 : W) = false ∨ wLock.dev.flag (Reg.PLL_STAT (2 : Fin 7).val) Fld.PLL_STAT_SETTLING = true ∨ wLock.dev.smallStep (2 : Fin 7).val (3372220416 : W) = false ∧ wLock.dev.domainRuns (2 : Fin 7).val = true)) ∧
    (((svc id).ready) ∧ (freqValid (3019898880 : W) = true) ∧ ((svc id).dev.flag (Reg.PLL_STAT (6 : Fin 7).val) Fld.PLL_STAT_SETTLING = false) ∧ ((svc id).dev.locked (6 : Fin 7).val = false) ∧ ((svc id).dev.pllOn (6 : Fin 7).val = false)) := by
  refine ⟨?_, ?_, ?_⟩ <;> decide

/-- Witness of PllSpreadAndPhaseWrites. -/
theorem wit_pll_spread_and_phase_writes :
    ((wOpen.ready) ∧ (wOpen.dev.rwpOpen (Reg.PLL_SS (2 : Fin 7).val) = true) ∧ (ssAllowed (2 : Fin 7).val (2147814328 : W) = true) ∧ (wOpen.dev.ssInBand (2 : Fin 7).val (2147814328 : W) = true)) ∧
    ((wOpen.ready) ∧ (wOpen.dev.rwpOpen (Reg.PLL_SS (2 : Fin 7).val) = true) ∧ ((ssAllowed (2 : Fin 7).val (2148862904 : W) && wOpen.dev.ssInBand (2 : Fin 7).val (2148862904 : W)) = false)) ∧
    ((wLock.ready) ∧ ((2 : Fin 7).val ≠ 6) ∧ (wLock.dev.phaseOwned (2 : Fin 7).val = false) ∧ (wLock.dev.flag (Reg.PLL_STAT (2 : Fin 7).val) Fld.PLL_STAT_PH_BUSY = false) ∧ (sgn 16 (fget Fld.PLL_PHASE_STEPS (65535 : W)) ≠ (0 : Int))) ∧
    ((wPhase.ready) ∧ ((2 : Fin 7).val = 6 ∨ wPhase.dev.phaseOwned (2 : Fin 7).val = true ∨ wPhase.dev.flag (Reg.PLL_STAT (2 : Fin 7).val) Fld.PLL_STAT_PH_BUSY = true)) := by
  refine ⟨?_, ?_, ?_, ?_⟩ <;> decide

/-- Witness of DeviceResetAndItsRelease. -/
theorem wit_device_reset_and_its_release :
    (ResetCause.keep ≠ ResetCause.keep ∨ wPower.dev.keep.hold = true) ∧
    (ResetCause.nrst ≠ ResetCause.keep ∨ wOn.dev.keep.hold = true) ∧
    (ResetCause.supply true ≠ ResetCause.keep ∨ wOn.dev.keep.hold = true) ∧
    (wOn.dev.keep.hold = false) ∧
    ((wHeld.dev.held = true) ∧ (wHeld.dev.holdEnded = true) ∧ (wHeld.dev.keep.tamper = false)) := by
  refine ⟨?_, ?_, ?_, ?_, ?_⟩ <;> decide

/-- Witness of BaseBootEndsInServiceOrRejected. -/
theorem wit_base_boot_ends_in_service_or_rejected :
    ((wBoot.awake) ∧ (wBoot.dev.devState = 1) ∧ (badBoot.katOk = false)) ∧
    ((wBoot.awake) ∧ (wBoot.dev.devState = 1) ∧ (noBoot.katOk = true) ∧ (wBoot.nv.proofNew 0 = false)) := by
  refine ⟨?_, ?_⟩ <;> decide

/-- Witness of InternalRestartKeepsTheListedBlocks. -/
theorem wit_internal_restart_keeps_the_listed_blocks :
    ((wSafe.awake) ∧ (wSafe.dev.devState = 5) ∧ (wSafe.dev.mayRestart = true)) ∧
    ((wSafeSave.awake) ∧ (wSafeSave.dev.locked 0 = false ∨ ∃ b, b ∈ wSafeSave.dev.keep.waiting ∧ b.kind = 4)) := by
  refine ⟨?_, ?_⟩ <;> decide

/-- Witness of SectionCommandsActInTheirStates. -/
theorem wit_section_commands_act_in_their_states :
    ((wOff.ready) ∧ (wOff.dev.claimed (1 : Sec) = false) ∧ (wOff.dev.secSt (1 : Sec) = 0 ∨ wOff.dev.secSt (1 : Sec) = 2 ∨ wOff.dev.secSt (1 : Sec) = 6)) ∧
    ((wReady.ready) ∧ (wReady.dev.claimed (1 : Sec) = false) ∧ (wReady.dev.secSt (1 : Sec) = 3)) ∧
    ((wOn.ready) ∧ (wOn.dev.claimed (1 : Sec) = false) ∧ (wOn.dev.secSt (1 : Sec) = 3 ∨ wOn.dev.secSt (1 : Sec) = 4 ∨ wOn.dev.secSt (1 : Sec) = 7)) := by
  refine ⟨?_, ?_, ?_⟩ <;> decide

/-- Witness of SectionCommandsAreRankedIgnoredAndRejected. -/
theorem wit_section_commands_are_ranked_ignored_and_rejected :
    ((wOn.ready) ∧ (keyIs (2781020723 : W) 42435 = true) ∧ (wbit (2781020723 : W) (8 + (1 : Sec).val) = true)) ∧
    ((wOn.ready) ∧ (wOn.dev.claimed (1 : Sec) = false) ∧ (4 = wOn.dev.secSt (1 : Sec)) ∧ (Instr.secCmdStart (1 : Sec) = Instr.secCmdStart (1 : Sec) ∧ 4 ≠ 0 ∧ 4 ≠ 2 ∧ 4 ≠ 6 ∨ Instr.secCmdStart (1 : Sec) = Instr.secCmdEnable (1 : Sec) ∧ 4 ≠ 3 ∨ Instr.secCmdStart (1 : Sec) = Instr.secCmdStop (1 : Sec) ∧ 4 ≠ 1 ∧ 4 ≠ 3 ∧ 4 ≠ 4 ∧ 4 ≠ 7)) ∧
    ((wOn.ready) ∧ (wOn.dev.claimed (1 : Sec) = false) ∧ (4 = wOn.dev.secSt (1 : Sec)) ∧ (Instr.secCmdEnable (1 : Sec) = Instr.secCmdStart (1 : Sec) ∧ 4 ≠ 0 ∧ 4 ≠ 2 ∧ 4 ≠ 6 ∨ Instr.secCmdEnable (1 : Sec) = Instr.secCmdEnable (1 : Sec) ∧ 4 ≠ 3 ∨ Instr.secCmdEnable (1 : Sec) = Instr.secCmdStop (1 : Sec) ∧ 4 ≠ 1 ∧ 4 ≠ 3 ∧ 4 ≠ 4 ∧ 4 ≠ 7)) ∧
    ((wOff.ready) ∧ (wOff.dev.claimed (1 : Sec) = false) ∧ (0 = wOff.dev.secSt (1 : Sec)) ∧ (Instr.secCmdStop (1 : Sec) = Instr.secCmdStart (1 : Sec) ∧ 0 ≠ 0 ∧ 0 ≠ 2 ∧ 0 ≠ 6 ∨ Instr.secCmdStop (1 : Sec) = Instr.secCmdEnable (1 : Sec) ∧ 0 ≠ 3 ∨ Instr.secCmdStop (1 : Sec) = Instr.secCmdStop (1 : Sec) ∧ 0 ≠ 1 ∧ 0 ≠ 3 ∧ 0 ≠ 4 ∧ 0 ≠ 7)) ∧
    ((wClaim.ready) ∧ (wClaim.dev.claimed (1 : Sec) = true) ∧ (Instr.secCmdStart (1 : Sec) = Instr.secCmdStart (1 : Sec) ∨ Instr.secCmdStart (1 : Sec) = Instr.secCmdEnable (1 : Sec) ∨ Instr.secCmdStart (1 : Sec) = Instr.secCmdStop (1 : Sec))) ∧
    ((wClaim.ready) ∧ (wClaim.dev.claimed (1 : Sec) = true) ∧ (Instr.secCmdStop (1 : Sec) = Instr.secCmdStart (1 : Sec) ∨ Instr.secCmdStop (1 : Sec) = Instr.secCmdEnable (1 : Sec) ∨ Instr.secCmdStop (1 : Sec) = Instr.secCmdStop (1 : Sec))) := by
  refine ⟨?_, ?_, ?_, ?_, ?_, ?_⟩ <;> decide

/-- Witness of SectionBootAndStopEnd. -/
theorem wit_section_boot_and_stop_end :
    ((wClock.awake) ∧ (wClock.dev.crypto = [(1 : Sec).val, 8]) ∧ (wClock.dev.cryptoOn = false) ∧ (wClock.dev.secClock (1 : Sec) = true)) ∧
    ((wNoClock.awake) ∧ (wNoClock.dev.crypto = [(1 : Sec).val, 8]) ∧ (wNoClock.dev.cryptoOn = false) ∧ (wNoClock.dev.secClock (1 : Sec) = false)) ∧
    ((wBooting.awake) ∧ (wBooting.dev.crypto = [(1 : Sec).val, 8]) ∧ (wBooting.dev.cryptoOn = true) ∧ (wBooting.dev.claimed (1 : Sec) = true ∨ wBooting.nv.proofNew ((1 : Sec).val + 1) = false)) ∧
    ((wBootClaim.awake) ∧ (wBootClaim.dev.crypto = [(1 : Sec).val, 8]) ∧ (wBootClaim.dev.cryptoOn = true) ∧ (wBootClaim.dev.claimed (1 : Sec) = true ∨ wBootClaim.nv.proofNew ((1 : Sec).val + 1) = false)) ∧
    ((wBootBad.awake) ∧ (wBootBad.dev.crypto = [(1 : Sec).val, 8]) ∧ (wBootBad.dev.cryptoOn = true) ∧ (wBootBad.dev.claimed (1 : Sec) = false) ∧ (wBootBad.nv.proofNew ((1 : Sec).val + 1) = true) ∧ (Except.isOk (wBootBad.dev.judgeSheet wBootBad.nv (1 : Sec) (wBootBad.dev.sc (1 : Sec)) (wBootBad.nv.proofImage ((1 : Sec).val + 1))) = false)) ∧
    ((wStopping.awake) ∧ (wStopping.dev.secSt (1 : Sec) = 5) ∧ (∀ (l : Fin 4), ((wStopping.dev.sc (1 : Sec)).lg l).step ≠ 1 ∧ ((wStopping.dev.sc (1 : Sec)).lg l).step ≠ 2)) := by
  refine ⟨?_, ?_, ?_, ?_, ?_, ?_⟩ <;> decide

set_option maxRecDepth 20000 in
/-- Witness of TokensAndFieldChangeTheSecurityState. -/
theorem wit_tokens_and_field_change_the_security_state :
    (wOff.ready) ∧
    ((wToken.awake) ∧ (wToken.dev.crypto = [8, 8]) ∧ (Memory.readBytes wToken.nv.mram (proofBank + 3669504) (7340032 - proofBank - 3669504) = Memory.readBytes wToken.nv.mram (proofBank + wToken.dev.fld Reg.TOKEN_PTR Fld.TOKEN_PTR_OFFSET) (7340032 - proofBank - wToken.dev.fld Reg.TOKEN_PTR Fld.TOKEN_PTR_OFFSET))) ∧
    ((wOff.ready) ∧ (wOff.nv.fuses.lcs = 0)) ∧
    ((wField.ready) ∧ (wField.nv.fuses.lcs ≠ 0)) := by
  refine ⟨?_, ?_, ?_, ?_⟩ <;> decide

/-- Witness of ReportsAreMadeOneAtATime. -/
theorem wit_reports_are_made_one_at_a_time :
    ((wOff.ready) ∧ (wOff.nv.fuses.lcs ≠ 2) ∧ (wOff.dev.rpt = 0) ∧ (wOff.dev.rptRecent = false)) ∧
    ((wRecent.ready) ∧ (wRecent.nv.fuses.lcs ≠ 2) ∧ (wRecent.dev.rpt ≠ 0 ∨ wRecent.dev.rptRecent = true)) ∧
    ((wReturned.ready) ∧ (wReturned.nv.fuses.lcs = 2)) ∧
    ((wWait.awake) ∧ (wWait.dev.rptWait = true) ∧ (wWait.dev.rpt = 0)) ∧
    ((wReport.awake) ∧ (wReport.dev.rpt = 2) ∧ ([(3 : Byte)].length ≤ 16384 - 900)) := by
  refine ⟨?_, ?_, ?_, ?_, ?_⟩ <;> decide

/-- Witness of CouchCommands. -/
theorem wit_couch_commands :
    ((wOn.ready) ∧ (wOn.dev.couchBusy (1 : Sec) = false)) ∧
    ((wCouch.ready) ∧ (wCouch.dev.couchBusy (1 : Sec) = false) ∧ (wCouch.dev.couchRefusal wCouch.nv (1 : Sec) = 0)) ∧
    ((wNoPolicy.ready) ∧ (wNoPolicy.dev.couchBusy (1 : Sec) = false) ∧ (wNoPolicy.dev.couchRefusal wNoPolicy.nv (1 : Sec) ≠ 0)) ∧
    ((wArmed.awake) ∧ (wArmed.dev.couchPhase (1 : Sec) = 1) ∧ ((wArmed.dev.sc (1 : Sec)).couch.due = false) ∧ (wArmed.dev.timeInv = false) ∧ ((wArmed.dev.sc (1 : Sec)).couch.passes < wArmed.dev.time.passes) ∧ (wArmed.dev.couchRefusal wArmed.nv (1 : Sec) = 0)) ∧
    ((wArmed.ready) ∧ (wArmed.dev.couchPhase (1 : Sec) = 1) ∧ ((wArmed.dev.sc (1 : Sec)).couch.due = false)) ∧
    ((wPhase2.ready) ∧ (wPhase2.dev.couchPhase (1 : Sec) = 2 ∨ wPhase2.dev.couchPhase (1 : Sec) = 3) ∧ ((wPhase2.dev.sc (1 : Sec)).couch.due = false)) := by
  refine ⟨?_, ?_, ?_, ?_, ?_, ?_⟩ <;> decide

/-- Witness of CouchingLoadsTakesOverAndSwitches. -/
theorem wit_couching_loads_takes_over_and_switches :
    ((wPhase2.awake) ∧ (wPhase2.dev.crypto = [4 + (1 : Sec).val]) ∧ (wPhase2.dev.cryptoOn = false) ∧ (wPhase2.dev.couchPhase (1 : Sec) = 2)) ∧
    ((wPhase3.awake) ∧ ((wPhase3.dev.sc (1 : Sec)).state = 7) ∧ (wPhase3.dev.couchPhase (1 : Sec) = 3) ∧ ((wPhase3.dev.sc (1 : Sec)).eng.run = none) ∧ ((wPhase3.dev.sc (1 : Sec)).eng.prun = none) ∧ (wPhase3.dev.proofTicks (1 : Sec) ≤ wPhase3.dev.fld (Reg.COUCH_STAT (1 : Sec).val) Fld.COUCH_STAT_PROOF) ∧ ((wPhase3.dev.sc (1 : Sec)).couch.fcmap.length ≤ 128)) ∧
    ((wPlaced.awake) ∧ (wPlaced.dev.couchPhase (1 : Sec) = 4) ∧ ((wPlaced.dev.sc (1 : Sec)).couch.place.snd ≠ 0)) ∧
    ((wPhase4.awake) ∧ (wPhase4.dev.couchPhase (1 : Sec) = 4) ∧ ((wPhase4.dev.sc (1 : Sec)).couch.place.snd = 0) ∧ ((wPhase4.dev.sc (1 : Sec)).couch.ready = false) ∧ ((wPhase4.dev.sc (1 : Sec)).state = 7)) ∧
    ((wPhase4.awake) ∧ (wPhase4.dev.couchPhase (1 : Sec) = 4) ∧ ((wPhase4.dev.sc (1 : Sec)).couch.place.snd = 0) ∧ ((wPhase4.dev.sc (1 : Sec)).couch.ready = false) ∧ ((wPhase4.dev.sc (1 : Sec)).couch.fails = 0)) := by
  refine ⟨?_, ?_, ?_, ?_, ?_⟩ <;> decide

/-- Witness of HeldResetStopsEveryOtherCommand. -/
theorem wit_held_reset_stops_every_other_command :
    ((wHeld.dev.held = true) ∧ (keepEvent (Instr.oc1Crossing (2 : Leg)) = false)) := by
  decide

/-- Witness of BusErrorsHaveTheirCauses. -/
theorem wit_bus_errors_have_their_causes :
    ((wOff.ready) ∧ (wOff.dev.flag Reg.BUS_ERR_STAT Fld.BUS_ERR_STAT_VALID = false) ∧ (placeOf (BitVec.toNat (9437184 : W)) = Place.nowhere)) ∧
    ((wDead.ready) ∧ (wDead.dev.flag Reg.BUS_ERR_STAT Fld.BUS_ERR_STAT_VALID = false) ∧ (placeOf (BitVec.toNat (2490368 : W)) = Place.sec (1 : Sec) 393216) ∧ (statusFile 393216 = false) ∧ (wDead.dev.secDead (1 : Sec) = true)) ∧
    ((wClaim.ready) ∧ (wClaim.dev.flag Reg.BUS_ERR_STAT Fld.BUS_ERR_STAT_VALID = false) ∧ (placeOf (BitVec.toNat (2490368 : W)) = Place.sec (1 : Sec) 393216) ∧ (statusFile 393216 = false) ∧ (wClaim.dev.secDead (1 : Sec) = false) ∧ (wClaim.dev.claimed (1 : Sec) = true) ∧ (brCmdAt 393216 = none)) ∧
    ((wOff.ready) ∧ (wOff.dev.flag Reg.BUS_ERR_STAT Fld.BUS_ERR_STAT_VALID = false) ∧ (placeOf (BitVec.toNat (16777216 : W)) = Place.mram 0) ∧ (BitVec.toNat (16777216 : W) % 4 = 0) ∧ (0 < proofBank ∨ 7340032 ≤ 0)) ∧
    ((wBoot.awake) ∧ (wBoot.dev.devState = 1)) := by
  refine ⟨?_, ?_, ?_, ?_, ?_⟩ <;> decide

/-- Witness of ProtectedProofBankWordsAreRefused. -/
theorem wit_protected_proof_bank_words_are_refused :
    ((wProofHeld.ready) ∧ (placeOf (BitVec.toNat (20447264 : W)) = Place.mram (proofBank + 32)) ∧ (BitVec.toNat (20447264 : W) % 4 = 0) ∧ (32 < 3670016) ∧ (2 = (1 : Sec).val + 1) ∧ (wProofHeld.nv.proof 2 = (0, 0, 0)) ∧ (wProofHeld.dev.cryptoOn = true ∧ wProofHeld.dev.crypto.head? = some (1 : Sec).val ∧ wProofHeld.dev.claimed (1 : Sec) = false ∧ wProofHeld.nv.proofNew 2 = true ∨ wProofHeld.dev.couchEarly (1 : Sec) = true) ∧ (4 + 12 * 2 ≤ 32 ∧ 32 < 4 + 12 * 2 + 12 ∨ 0 < 32 + 4 ∧ 32 < 0 + 0) ∧ (wProofHeld.dev.flag Reg.BUS_ERR_STAT Fld.BUS_ERR_STAT_VALID = false)) ∧
    ((wOff.ready) ∧ (placeOf (BitVec.toNat (20447296 : W)) = Place.mram (proofBank + 64)) ∧ (BitVec.toNat (20447296 : W) % 4 = 0) ∧ (64 < 3670016) ∧ (wOff.dev.quiet.proofRefused wOff.nv 64 = false)) := by
  refine ⟨?_, ?_⟩ <;> decide

/-- Witness of RwpCloseClosesTheRangesItNames. -/
theorem wit_rwp_close_closes_the_ranges_it_names :
    ((wOpen.ready) ∧ (keyIs (1012531216 : W) 15450 = true)) ∧
    ((wOpen.ready) ∧ (keyIs (1012596752 : W) 15450 = false)) := by
  refine ⟨?_, ?_⟩ <;> decide

set_option maxRecDepth 20000 in
/-- Witness of NativeFramesAccessRegistersOrChangeNothing. -/
theorem wit_native_frames_access_registers_or_change_nothing :
    ((wOff.ready) ∧ (wOff.dev.portCompat 0 = false) ∧ (cmdOp 2199023517697#48 = 2) ∧ (cmdLen 2199023517697#48 = 1)) ∧
    ((wOff.ready) ∧ (wOff.dev.portCompat (1 : Port).val = false) ∧ (cmdOp 3298534883331#48 = 3) ∧ (cmdLen 3298534883331#48 ≠ 0) ∧ (cmdAddr 3298534883331#48 + cmdLen 3298534883331#48 ≤ 2 ^ 24)) ∧
    ((wOff.ready) ∧ (wOff.dev.portCompat (1 : Port).val = false) ∧ (cmdOp 5497558138880#48 = 5) ∧ (cmdAddr 5497558138880#48 = 0) ∧ (cmdLen 5497558138880#48 = 0)) ∧
    ((wOff.awake) ∧ (wOff.dev.portCompat (1 : Port).val = false)) ∧
    ((wOff.awake) ∧ (wOff.dev.portCompat (1 : Port).val = false) ∧ (cmdOp 2199023517698#48 = 2) ∧ ([(5 : W)].length < cmdLen 2199023517698#48)) ∧
    ((wOff.awake) ∧ (wOff.dev.portCompat (1 : Port).val = false) ∧ (cmdOp 2199023517697#48 = 2) ∧ (cmdLen 2199023517697#48 ≤ [(7 : W)].length) ∧ (0#16 ≠ frameCrc 2199023517697#48 (List.take (cmdLen 2199023517697#48) [(7 : W)]))) ∧
    ((wOff.awake) ∧ (wOff.dev.portCompat (1 : Port).val = false) ∧ (cmdOp 2199023517696#48 = 2) ∧ (cmdLen 2199023517696#48 ≤ ([] : List W).length) ∧ (wOff.dev.devState = 1 ∨ cmdLen 2199023517696#48 = 0 ∨ 256 < cmdLen 2199023517696#48 ∨ 2 ^ 24 < cmdAddr 2199023517696#48 + cmdLen 2199023517696#48)) ∧
    ((wBoot.awake) ∧ (wBoot.dev.portCompat (1 : Port).val = false) ∧ (cmdOp 2199023517697#48 = 2) ∧ (cmdLen 2199023517697#48 ≤ [(4 : W)].length) ∧ (wBoot.dev.devState = 1 ∨ cmdLen 2199023517697#48 = 0 ∨ 256 < cmdLen 2199023517697#48 ∨ 2 ^ 24 < cmdAddr 2199023517697#48 + cmdLen 2199023517697#48)) ∧
    ((wOff.awake) ∧ (wOff.dev.portCompat (1 : Port).val = false) ∧ (cmdOp 4398046773249#48 ≠ 2) ∧ (cmdOp 4398046773249#48 ≠ 3) ∧ (cmdOp 4398046773249#48 ≠ 5)) ∧
    ((wBoot.awake) ∧ (wBoot.dev.portCompat (1 : Port).val = false) ∧ (cmdOp 4398046773249#48 ≠ 2) ∧ (cmdOp 4398046773249#48 ≠ 3) ∧ (cmdOp 4398046773249#48 ≠ 5)) := by
  refine ⟨?_, ?_, ?_, ?_, ?_, ?_, ?_, ?_, ?_, ?_⟩ <;> decide

/-- Witness of RingPointersMoveForwardOnly. -/
theorem wit_ring_pointers_move_forward_only :
    ((wRing.ready) ∧ (hostProduces (0 : Fin 64).val = true) ∧ (2 ≤ wRing.dev.qLog (0 : Fin 64).val) ∧ (bitsN (BitVec.toNat (65536 : W)) 31 16 ≠ wRing.dev.qPut (0 : Fin 64).val)) ∧
    ((wRing.ready) ∧ (hostProduces (0 : Fin 64).val = true) ∧ (2 ≤ wRing.dev.qLog (0 : Fin 64).val) ∧ (bitsN (BitVec.toNat (262144 : W)) 31 16 ≠ wRing.dev.qPut (0 : Fin 64).val)) ∧
    (((svc fun d => (d.put (Reg.Q_CFG 4) Fld.Q_CFG_LOG2_DESC 2).put (Reg.Q_PTR 4) Fld.Q_PTR_PUT 3).ready) ∧ ((svc fun d => (d.put (Reg.Q_CFG 4) Fld.Q_CFG_LOG2_DESC 2).put (Reg.Q_PTR 4) Fld.Q_PTR_PUT 3).dev.hostConsumes (4 : Fin 64).val = true) ∧ (2 ≤ (svc fun d => (d.put (Reg.Q_CFG 4) Fld.Q_CFG_LOG2_DESC 2).put (Reg.Q_PTR 4) Fld.Q_PTR_PUT 3).dev.qLog (4 : Fin 64).val) ∧ (bitsN (BitVec.toNat (2 : W)) 15 0 ≠ (svc fun d => (d.put (Reg.Q_CFG 4) Fld.Q_CFG_LOG2_DESC 2).put (Reg.Q_PTR 4) Fld.Q_PTR_PUT 3).dev.qGet (4 : Fin 64).val)) := by
  refine ⟨?_, ?_, ?_⟩ <;> decide

/-- Witness of RegisterWriteFollowsItsFieldTypes. -/
theorem wit_register_write_follows_its_field_types :
    (((svc fun d => d.put Reg.CMD_STAT Fld.CMD_STAT_BAD_KEY 1).ready) ∧ (plainReg (BitVec.toNat (20 : W)) = true) ∧ (devRow (BitVec.toNat (20 : W)) = some { off := 20, n1 := 1, s1 := 0, n2 := 1, s2 := 0, reset := 0, rw := 0, rwp := 0, w1c := 7, rc := 0, wo := 0, ro := 0 : RegRow }) ∧ ({ off := 20, n1 := 1, s1 := 0, n2 := 1, s2 := 0, reset := 0, rw := 0, rwp := 0, w1c := 7, rc := 0, wo := 0, ro := 0 : RegRow }.lockedHit ((svc fun d => d.put Reg.CMD_STAT Fld.CMD_STAT_BAD_KEY 1).dev.rwpOpen (BitVec.toNat (20 : W))) ((svc fun d => d.put Reg.CMD_STAT Fld.CMD_STAT_BAD_KEY 1).dev.rd (BitVec.toNat (20 : W))) (5 : W) = false)) ∧
    (((wOpen.onDev fun d => { regs := d.regs, snap := d.snap, sec := d.sec, fc := d.fc, isl := d.isl, safe := d.safe, points := d.points, pulses := d.pulses, aux := d.aux, inj := d.inj, keep := d.keep, mBase := d.mBase, report := d.report, rpt := d.rpt, rptWait := d.rptWait, rptRecent := d.rptRecent, crypto := d.crypto, cryptoOn := d.cryptoOn, nvOut := d.nvOut, policy := d.policy, plls := d.plls, rcPpm := d.rcPpm, time := d.time, eth := d.eth, pool := d.pool, can := d.can, uart := d.uart, i2c := d.i2c, dl := d.dl, hp := d.hp, rwpBase := [(66368, 66368)], rwpSheet := d.rwpSheet, held := d.held, up := d.up, freeCount := d.freeCount : Dev }).ready) ∧ (plainReg (BitVec.toNat (66368 : W)) = true) ∧ (devRow (BitVec.toNat (66368 : W)) = some { off := 65856, n1 := 7, s1 := 256, n2 := 16, s2 := 4, reset := 0, rw := 0, rwp := 3205496831, w1c := 0, rc := 0, wo := 0, ro := 0 : RegRow }) ∧ ({ off := 65856, n1 := 7, s1 := 256, n2 := 16, s2 := 4, reset := 0, rw := 0, rwp := 3205496831, w1c := 0, rc := 0, wo := 0, ro := 0 : RegRow }.lockedHit ((wOpen.onDev fun d => { regs := d.regs, snap := d.snap, sec := d.sec, fc := d.fc, isl := d.isl, safe := d.safe, points := d.points, pulses := d.pulses, aux := d.aux, inj := d.inj, keep := d.keep, mBase := d.mBase, report := d.report, rpt := d.rpt, rptWait := d.rptWait, rptRecent := d.rptRecent, crypto := d.crypto, cryptoOn := d.cryptoOn, nvOut := d.nvOut, policy := d.policy, plls := d.plls, rcPpm := d.rcPpm, time := d.time, eth := d.eth, pool := d.pool, can := d.can, uart := d.uart, i2c := d.i2c, dl := d.dl, hp := d.hp, rwpBase := [(66368, 66368)], rwpSheet := d.rwpSheet, held := d.held, up := d.up, freeCount := d.freeCount : Dev }).dev.rwpOpen (BitVec.toNat (66368 : W))) ((wOpen.onDev fun d => { regs := d.regs, snap := d.snap, sec := d.sec, fc := d.fc, isl := d.isl, safe := d.safe, points := d.points, pulses := d.pulses, aux := d.aux, inj := d.inj, keep := d.keep, mBase := d.mBase, report := d.report, rpt := d.rpt, rptWait := d.rptWait, rptRecent := d.rptRecent, crypto := d.crypto, cryptoOn := d.cryptoOn, nvOut := d.nvOut, policy := d.policy, plls := d.plls, rcPpm := d.rcPpm, time := d.time, eth := d.eth, pool := d.pool, can := d.can, uart := d.uart, i2c := d.i2c, dl := d.dl, hp := d.hp, rwpBase := [(66368, 66368)], rwpSheet := d.rwpSheet, held := d.held, up := d.up, freeCount := d.freeCount : Dev }).dev.rd (BitVec.toNat (66368 : W))) (50331653 : W) = false)) ∧
    ((wOpen.ready) ∧ (plainReg (BitVec.toNat (66368 : W)) = true) ∧ (devRow (BitVec.toNat (66368 : W)) = some { off := 65856, n1 := 7, s1 := 256, n2 := 16, s2 := 4, reset := 0, rw := 0, rwp := 3205496831, w1c := 0, rc := 0, wo := 0, ro := 0 : RegRow }) ∧ ({ off := 65856, n1 := 7, s1 := 256, n2 := 16, s2 := 4, reset := 0, rw := 0, rwp := 3205496831, w1c := 0, rc := 0, wo := 0, ro := 0 : RegRow }.lockedHit (wOpen.dev.rwpOpen (BitVec.toNat (66368 : W))) (wOpen.dev.rd (BitVec.toNat (66368 : W))) (50331653 : W) = true) ∧ (wOpen.dev.flag Reg.BUS_ERR_STAT Fld.BUS_ERR_STAT_VALID = false)) := by
  refine ⟨?_, ?_, ?_⟩ <;> decide

/-- Witness of VectorInstructionsActElementwise. -/
theorem wit_vector_instructions_act_elementwise :
    (((wEng 8 2105345#26).issues (1 : Sec) EngSel.run 8 2105345#26 r0 (vecClk (fN (BitVec.toNat 2105345#26)))) ∧ (vecFits (BitVec.toNat 2105345#26))) ∧
    (((wEng 16 VA).issues (1 : Sec) EngSel.run 16 VA r0 (vecClk (fN VA.toNat))) ∧ (vecFitsB VA.toNat)) ∧
    (((wEng 17 VB).issues (1 : Sec) EngSel.run 17 VB r0 (vecClk (fN VB.toNat))) ∧ (vecFitsB VB.toNat)) ∧
    (((wEng 18 VB).issues (1 : Sec) EngSel.run 18 VB r0 (vecClk (fN VB.toNat))) ∧ (vecFitsB VB.toNat)) ∧
    (((wEng 19 VB).issues (1 : Sec) EngSel.run 19 VB r0 (vecClk (fN VB.toNat))) ∧ (vecFitsB VB.toNat)) ∧
    (((wEng 20 2105345#26).issues (1 : Sec) EngSel.run 20 2105345#26 r0 (vecClk (fN (BitVec.toNat 2105345#26)))) ∧ (vecFits (BitVec.toNat 2105345#26))) ∧
    (((wEng 21 2105345#26).issues (1 : Sec) EngSel.run 21 2105345#26 r0 (vecClk (fN (BitVec.toNat 2105345#26)))) ∧ (vecFits (BitVec.toNat 2105345#26))) := by
  refine ⟨?_, ?_, ?_, ?_, ?_, ?_, ?_⟩ <;> decide

/-- Witness of LimitsAndRotations. -/
theorem wit_limits_and_rotations :
    (((wEng 25 2105345#26).issues (1 : Sec) EngSel.run 25 2105345#26 r0 1) ∧ (fK (BitVec.toNat 2105345#26) ≤ 4094)) ∧
    (((wEng 26 2121857#26).issues (1 : Sec) EngSel.run 26 2121857#26 r0 (vecClk (fN (BitVec.toNat 2121857#26)))) ∧ (vecFits (BitVec.toNat 2121857#26)) ∧ (fB (BitVec.toNat 2121857#26) % 64 ≤ 62)) ∧
    (((wEng 27 2121792#26).issues (1 : Sec) EngSel.run 27 2121792#26 r0 6) ∧ (fD (BitVec.toNat 2121792#26) ≤ 62) ∧ (fA (BitVec.toNat 2121792#26) % 64 ≤ 62)) ∧
    (((wEng 28 2121792#26).issues (1 : Sec) EngSel.run 28 2121792#26 r0 4) ∧ (fD (BitVec.toNat 2121792#26) ≤ 62) ∧ (fA (BitVec.toNat 2121792#26) % 64 ≤ 62)) := by
  refine ⟨?_, ?_, ?_, ?_⟩ <;> decide

/-- Witness of ScalarInstructionsGiveTheirResult. -/
theorem wit_scalar_instructions_give_their_result :
    ((wEng 9 2097152#26).issues (1 : Sec) EngSel.run 9 2097152#26 r0 1) ∧
    ((wEng 10 3145712#26).issues (1 : Sec) EngSel.run 10 3145712#26 r0 1) ∧
    ((wEng 11 2105344#26).issues (1 : Sec) EngSel.run 11 2105344#26 r0 1) ∧
    ((wEng 22 2121728#26).issues (1 : Sec) EngSel.run 22 2121728#26 r0 1) ∧
    ((wEng 23 2121729#26).issues (1 : Sec) EngSel.run 23 2121729#26 r0 1) ∧
    ((wEng 24 8320#26).issues (1 : Sec) EngSel.run 24 8320#26 r0 1) ∧
    ((wEng 1 0#26).issues (1 : Sec) EngSel.run 1 0#26 r0 1) ∧
    ((wEng 33 2113536#26).issues (1 : Sec) EngSel.run 33 2113536#26 r0 3) ∧
    ((wEng 39 2097152#26).issues (1 : Sec) EngSel.run 39 2097152#26 r0 1) ∧
    (((wEng 42 2097153#26).issues (1 : Sec) EngSel.run 42 2097153#26 r0 1) ∧ (BitVec.toNat 2097153#26 % 256 < 64)) := by
  refine ⟨?_, ?_, ?_, ?_, ?_, ?_, ?_, ?_, ?_, ?_⟩ <;> decide

/-- Witness of MatrixAccumulatesAndRoundsOnce. -/
theorem wit_matrix_accumulates_and_rounds_once :
    ((2 = bitsN ((fun k => BitVec.toNat (Tbl.get (fun _ => (0 : W)) (((wEng 32 2097168#26).dev.sc (1 : Sec)).imgOf EngSel.run).coef k)) (fK (BitVec.toNat 2097168#26))) 31 28 + 1) ∧ (2 = bitsN ((fun k => BitVec.toNat (Tbl.get (fun _ => (0 : W)) (((wEng 32 2097168#26).dev.sc (1 : Sec)).imgOf EngSel.run).coef k)) (fK (BitVec.toNat 2097168#26))) 25 20 + 1) ∧ (32 = (fun k => BitVec.toNat (Tbl.get (fun _ => (0 : W)) (((wEng 32 2097168#26).dev.sc (1 : Sec)).imgOf EngSel.run).coef k)) (fK (BitVec.toNat 2097168#26)) % 4096) ∧ (48 = (fun k => BitVec.toNat (Tbl.get (fun _ => (0 : W)) (((wEng 32 2097168#26).dev.sc (1 : Sec)).imgOf EngSel.run).coef k)) (fK (BitVec.toNat 2097168#26) + 1) % 4096) ∧ (false = ((fun k => BitVec.toNat (Tbl.get (fun _ => (0 : W)) (((wEng 32 2097168#26).dev.sc (1 : Sec)).imgOf EngSel.run).coef k)) (fK (BitVec.toNat 2097168#26))).testBit 16) ∧ ((fun k => BitVec.toNat (Tbl.get (fun _ => (0 : W)) (((wEng 32 2097168#26).dev.sc (1 : Sec)).imgOf EngSel.run).coef k)) (fK (BitVec.toNat 2097168#26)) &&& 202305536 = 0) ∧ ((fun k => BitVec.toNat (Tbl.get (fun _ => (0 : W)) (((wEng 32 2097168#26).dev.sc (1 : Sec)).imgOf EngSel.run).coef k)) (fK (BitVec.toNat 2097168#26) + 1) &&& 4294963200 = 0) ∧ (2 ≤ 36) ∧ (fK (BitVec.toNat 2097168#26) + 2 + (2 + 3) / 4 ≤ 4096) ∧ ([1, 2, 0, 0] = List.flatMap (fun i => [bitsN ((fun k => BitVec.toNat (Tbl.get (fun _ => (0 : W)) (((wEng 32 2097168#26).dev.sc (1 : Sec)).imgOf EngSel.run).coef k)) (fK (BitVec.toNat 2097168#26) + 2 + i)) 7 0, bitsN ((fun k => BitVec.toNat (Tbl.get (fun _ => (0 : W)) (((wEng 32 2097168#26).dev.sc (1 : Sec)).imgOf EngSel.run).coef k)) (fK (BitVec.toNat 2097168#26) + 2 + i)) 15 8, bitsN ((fun k => BitVec.toNat (Tbl.get (fun _ => (0 : W)) (((wEng 32 2097168#26).dev.sc (1 : Sec)).imgOf EngSel.run).coef k)) (fK (BitVec.toNat 2097168#26) + 2 + i)) 23 16, bitsN ((fun k => BitVec.toNat (Tbl.get (fun _ => (0 : W)) (((wEng 32 2097168#26).dev.sc (1 : Sec)).imgOf EngSel.run).coef k)) (fK (BitVec.toNat 2097168#26) + 2 + i)) 31 24]) (upTo ((2 + 3) / 4))) ∧ (gatherOk [1, 2, 0, 0] 2 = true) ∧ (32 + 2 * 2 ≤ 4096) ∧ (false = true → 48 + 2 ≤ 4096) ∧ (fD (BitVec.toNat 2097168#26) + 2 ≤ 64) ∧ ((wEng 32 2097168#26).issues (1 : Sec) EngSel.run 32 2097168#26 r0 (4 + (2 * 2 + 7) / 8))) ∧
    ((-(2 : Int) ^ 71 ≤ (-2000000000000000000000 : Int)) ∧ ((-2000000000000000000000 : Int) < (2 : Int) ^ 71)) ∧
    ((-(2 : Int) ^ 71 ≤ (-288230376218820608 : Int)) ∧ ((-288230376218820608 : Int) < (2 : Int) ^ 71)) ∧
    ((-(2 : Int) ^ 71 ≤ (288230376084602879 : Int)) ∧ ((288230376084602879 : Int) < (2 : Int) ^ 71)) ∧
    ((-(2 : Int) ^ 71 ≤ (288230376084602880 : Int)) ∧ ((288230376084602880 : Int) < (2 : Int) ^ 71)) := by
  refine ⟨?_, ?_, ?_, ?_, ?_⟩ <;> decide

/-- Witness of ProfileAndSelectorInstructions. -/
theorem wit_profile_and_selector_instructions :
    (((wEng 36 16777232#26).issues (1 : Sec) EngSel.run 36 16777232#26 r0 6) ∧ (1 = 4 * r0.ctx + bitsN (BitVec.toNat 16777232#26) 25 24) ∧ (fK (BitVec.toNat 16777232#26) ≤ 4092) ∧ (r0.stepped.getLsbD 1 = false)) ∧
    (((wEng 37 16785408#26).issues (1 : Sec) EngSel.run 37 16785408#26 r0 1) ∧ (1 = 4 * r0.ctx + bitsN (BitVec.toNat 16785408#26) 25 24)) ∧
    (((wEng 38 16785408#26).issues (1 : Sec) EngSel.run 38 16785408#26 r0 1) ∧ (1 = 4 * r0.ctx + bitsN (BitVec.toNat 16785408#26) 25 24)) ∧
    ((wEng 34 30408704#26).issues (1 : Sec) EngSel.run 34 30408704#26 r0 1) := by
  refine ⟨?_, ?_, ?_, ?_⟩ <;> decide

/-- Witness of ResultInstructionsFillTheRun. -/
theorem wit_result_instructions_fill_the_run :
    (((wEngR 44 16809984#26 rBuf).issues (1 : Sec) EngSel.run 44 16809984#26 rBuf 1) ∧ ((1 : Fin 4).val = bitsN (BitVec.toNat 16809984#26) 25 24)) ∧
    (((wEngR 45 17833984#26 rBuf).issues (1 : Sec) EngSel.run 45 17833984#26 rBuf 1) ∧ ((1 : Fin 4).val = bitsN (BitVec.toNat 17833984#26) 25 24) ∧ (dsetWord (bitsN (BitVec.toNat 17833984#26) 23 20) = some (8, (4294967295 : W))) ∧ (8 < (rBuf.buf.get (1 : Fin 4)).length)) ∧
    ((wEng 46 6299649#26).issues (1 : Sec) EngSel.run 46 6299649#26 r0 1) ∧
    ((wEng 47 5#26).issues (1 : Sec) EngSel.run 47 5#26 r0 1) ∧
    ((2 = BitVec.toNat 33562625#26 % 16 + 1) ∧ ((wEng 48 33562625#26).issues (1 : Sec) EngSel.run 48 33562625#26 r0 (vecClk 2)) ∧ (fA (BitVec.toNat 33562625#26) % 64 + 2 ≤ 64) ∧ ((List.map (fun m => m.snd.length) (List.filter (fun m => decide (m.fst = bitsN (BitVec.toNat 33562625#26) 25 25)) r0.sends)).sum + 2 ≤ 64)) := by
  refine ⟨?_, ?_, ?_, ?_, ?_⟩ <;> decide

/-- Witness of ControlInstructionsMoveTheRun. -/
theorem wit_control_instructions_move_the_run :
    (((wEng 2 1#26).issues (1 : Sec) EngSel.run 2 1#26 r0 (if r0.cond (((wEng 2 1#26).dev.sc (1 : Sec)).envOf EngSel.run (fun _ => (0 : W)) none 0).first (bitsN (BitVec.toNat 1#26) 25 22) = true then 2 else 1)) ∧ (bitsN (BitVec.toNat 1#26) 10 0 < (((wEng 2 1#26).dev.sc (1 : Sec)).imgOf EngSel.run).count)) ∧
    (((wEngR 2 46137345#26 rW).issues (1 : Sec) EngSel.run 2 46137345#26 rW (if rW.cond (((wEngR 2 46137345#26 rW).dev.sc (1 : Sec)).envOf EngSel.run (fun _ => (0 : W)) none 0).first (bitsN (BitVec.toNat 46137345#26) 25 22) = true then 2 else 1)) ∧ (bitsN (BitVec.toNat 46137345#26) 10 0 < (((wEngR 2 46137345#26 rW).dev.sc (1 : Sec)).imgOf EngSel.run).count)) ∧
    (((wEng 3 1#26).issues (1 : Sec) EngSel.run 3 1#26 r0 2) ∧ (bitsN (BitVec.toNat 1#26) 10 0 < (((wEng 3 1#26).dev.sc (1 : Sec)).imgOf EngSel.run).count) ∧ (r0.stack.length < 8)) ∧
    (((wEngR 4 0#26 rBack).issues (1 : Sec) EngSel.run 4 0#26 rBack 2) ∧ (rBack.stack = [5])) ∧
    ((wEng 5 256#26).issues (1 : Sec) EngSel.run 5 256#26 r0 1) ∧
    (((wEngR 5 256#26 rWait).awake) ∧ (((wEngR 5 256#26 rWait).dev.sc (1 : Sec)).engRun EngSel.run = some rWait) ∧ (rWait.wait = some 256) ∧ (256 ≤ ((wEngR 5 256#26 rWait).dev.sc (1 : Sec)).deadlineOf EngSel.run)) ∧
    ((wNext.issues (1 : Sec) EngSel.run 6 0#26 r0 2) ∧ ((wNext.dev.sc (1 : Sec)).nextCtx r0.ctx = some 1)) := by
  refine ⟨?_, ?_, ?_, ?_, ?_, ?_, ?_⟩ <;> decide

/-- Witness of WindowReadsGiveTheResult. -/
theorem wit_window_reads_give_the_result :
    ((wGot.issues (1 : Sec) EngSel.run 40 2097152#26 r0 1) ∧ ((0 : W) = Tbl.get (fun _ => (4294967295 : W)) ((wGot.dev.sc (1 : Sec)).imgOf EngSel.run).imap (bitsN (BitVec.toNat 2097152#26) 4 0)) ∧ ((0 : W) ≠ (4294967295 : W)) ∧ (0 = 4 * bitsN (BitVec.toNat (0 : W)) 5 2 + bitsN (BitVec.toNat (0 : W)) 1 0) ∧ (((wGot.dev.sc (1 : Sec)).acc 0).fixed = none) ∧ (((wGot.dev.sc (1 : Sec)).acc 0).pend = false)) ∧
    ((wFixed.issues (1 : Sec) EngSel.run 41 2097153#26 r0 4) ∧ ((0 : W) = Tbl.get (fun _ => (4294967295 : W)) ((wFixed.dev.sc (1 : Sec)).imgOf EngSel.run).imap (bitsN (BitVec.toNat 2097153#26) 16 12)) ∧ ((0 : W) ≠ (4294967295 : W)) ∧ (0 = 4 * bitsN (BitVec.toNat (0 : W)) 5 2 + bitsN (BitVec.toNat (0 : W)) 1 0) ∧ (((wFixed.dev.sc (1 : Sec)).acc 0).fixed = some qRes) ∧ (BitVec.toNat qRes.stat % 65536 ≠ 0)) ∧
    (((wEng 40 2097153#26).issues (1 : Sec) EngSel.run 40 2097153#26 r0 1) ∧ (Tbl.get (fun _ => (4294967295 : W)) (((wEng 40 2097153#26).dev.sc (1 : Sec)).imgOf EngSel.run).imap (bitsN (BitVec.toNat 2097153#26) 4 0) = (4294967295 : W))) ∧
    ((wPend.issues (1 : Sec) EngSel.run 40 2097152#26 r0 1) ∧ ((0 : W) = Tbl.get (fun _ => (4294967295 : W)) ((wPend.dev.sc (1 : Sec)).imgOf EngSel.run).imap (bitsN (BitVec.toNat 2097152#26) 4 0)) ∧ ((0 : W) ≠ (4294967295 : W)) ∧ (0 = 4 * bitsN (BitVec.toNat (0 : W)) 5 2 + bitsN (BitVec.toNat (0 : W)) 1 0) ∧ (((wPend.dev.sc (1 : Sec)).acc 0).fixed = none) ∧ (((wPend.dev.sc (1 : Sec)).acc 0).pend = true) ∧ ((wPend.dev.sc (1 : Sec)).armed 0 = true) ∧ ((wPend.dev.sc (1 : Sec)).accMode 0 = 0)) := by
  refine ⟨?_, ?_, ?_, ?_⟩ <;> decide

/-- Witness of TriggersStartTicks. -/
theorem wit_triggers_start_ticks :
    ((wTrig.awake) ∧ ((wTrig.dev.sc (1 : Sec)).ticks = true) ∧ ((wTrig.dev.sc (1 : Sec)).selects 600) ∧ (500 ≤ 600) ∧ ((wTrig.dev.sc (1 : Sec)).eng.run = none)) ∧
    ((wTb.awake) ∧ ((wTb.dev.sc (1 : Sec)).ticks = true) ∧ ((wTb.dev.sc (1 : Sec)).selects 600) ∧ (500 ≤ 600) ∧ ((wTb.dev.sc (1 : Sec)).eng.run = none)) ∧
    ((wTrig.awake) ∧ ((wTrig.dev.sc (1 : Sec)).ticks = true) ∧ ((wTrig.dev.sc (1 : Sec)).selects 400) ∧ (400 < 500 ∨ (wTrig.dev.sc (1 : Sec)).eng.run.isSome = true)) ∧
    ((wTrigRun.awake) ∧ ((wTrigRun.dev.sc (1 : Sec)).ticks = true) ∧ ((wTrigRun.dev.sc (1 : Sec)).selects 900) ∧ (900 < 500 ∨ (wTrigRun.dev.sc (1 : Sec)).eng.run.isSome = true)) ∧
    ((wIdle.awake) ∧ ((wIdle.dev.sc (1 : Sec)).ticks = false ∨ ¬(wIdle.dev.sc (1 : Sec)).selects 600)) ∧
    ((wOff.awake) ∧ ((wOff.dev.sc (1 : Sec)).ticks = false ∨ ¬(wOff.dev.sc (1 : Sec)).selects 600)) := by
  refine ⟨?_, ?_, ?_, ?_, ?_, ?_⟩ <;> decide

/-- Witness of CommitPublishesTheRun. -/
theorem wit_commit_publishes_the_run :
    (((wEngR 7 17#26 rOut).issues (1 : Sec) EngSel.run 7 17#26 rOut 1) ∧ (((wEngR 7 17#26 rOut).dev.sc (1 : Sec)).nextCtx rOut.ctx = none) ∧ (((wEngR 7 17#26 rOut).dev.sc (1 : Sec)).eng.mode ≠ 0 ∨ true = true ∧ ((wEngR 7 17#26 rOut).dev.sc (1 : Sec)).eng.injMis = false)) ∧
    (((wProof 7 1#26).issues (1 : Sec) EngSel.proof 7 1#26 r0 1) ∧ (((wProof 7 1#26).dev.sc (1 : Sec)).nextCtx r0.ctx = none) ∧ (((wProof 7 1#26).dev.sc (1 : Sec)).couch.aDone = false)) := by
  refine ⟨?_, ?_⟩ <;> decide

/-- Witness of FailedTicksLeaveTheCommittedState. -/
theorem wit_failed_ticks_leave_the_committed_state :
    (((wEng 7 1#26).issues (1 : Sec) EngSel.run 7 1#26 r0 1) ∧ (((wEng 7 1#26).dev.sc (1 : Sec)).nextCtx r0.ctx = none) ∧ (((wEng 7 1#26).dev.sc (1 : Sec)).eng.mode = 0) ∧ (r0.again = false)) ∧
    (((wEngR 7 1#26 rAgain).issues (1 : Sec) EngSel.run 7 1#26 rAgain 1) ∧ (((wEngR 7 1#26 rAgain).dev.sc (1 : Sec)).nextCtx rAgain.ctx = none) ∧ (((wEngR 7 1#26 rAgain).dev.sc (1 : Sec)).eng.mode = 0) ∧ (rAgain.again = true)) ∧
    (((wEng 8 0#26).awake) ∧ (engineOp (Instr.mov (1 : Sec) EngSel.split 0#26) = some ((1 : Sec), EngSel.split, 8, 0#26)) ∧ (((wEng 8 0#26).dev.sc (1 : Sec)).issue EngSel.split 8 0#26 = Issue.go r0) ∧ (((wEng 8 0#26).dev.sc (1 : Sec)).eng.mode = 0)) ∧
    (((wEngR 8 0#26 rAgain).awake) ∧ (engineOp (Instr.mov (1 : Sec) EngSel.split 0#26) = some ((1 : Sec), EngSel.split, 8, 0#26)) ∧ (((wEngR 8 0#26 rAgain).dev.sc (1 : Sec)).issue EngSel.split 8 0#26 = Issue.go rAgain) ∧ (((wEngR 8 0#26 rAgain).dev.sc (1 : Sec)).eng.mode = 0)) ∧
    (((wEngR 7 1#26 rRoll).awake) ∧ (((wEngR 7 1#26 rRoll).dev.sc (1 : Sec)).eng.run = some rRoll) ∧ (rRoll.roll = some 90) ∧ (90 ≤ ((wEngR 7 1#26 rRoll).dev.sc (1 : Sec)).deadlineOf EngSel.run)) ∧
    (((wEng 7 1#26).awake) ∧ (((wEng 7 1#26).dev.sc (1 : Sec)).eng.run.isSome = true)) ∧
    (((wEng 4 0#26).issues (1 : Sec) EngSel.run 4 0#26 r0 2) ∧ (r0.stack = []) ∧ (((wEng 4 0#26).dev.sc (1 : Sec)).flag Reg.PROG_FAULT Fld.PROG_FAULT_VALID = false) ∧ (r0.ctx < 4)) := by
  refine ⟨?_, ?_, ?_, ?_, ?_, ?_, ?_⟩ <;> decide

/-- Witness of EngineInputsOutputsAndScrubs. -/
theorem wit_engine_inputs_outputs_and_scrubs :
    ((wArrive.awake) ∧ ((wArrive.dev.sc (1 : Sec)).fifo = [[(3, qRes)], [(4, qRes)]]) ∧ ((List.map (fun x => x.fst) [(3, qRes)]).Nodup)) ∧
    (wParam.reach (1 : Sec)) ∧
    ((wOuts.ready) ∧ (wOuts.dev.secDead (1 : Sec) = false)) ∧
    ((wMsg.awake) ∧ (wMsg.dev.fld (Reg.Q_CFG (ringQ (1 : Sec) (0 : Fin 2).val)) Fld.Q_CFG_DEST = 8 + (2 : Sec).val) ∧ (wMsg.dev.qHas (ringQ (1 : Sec) (0 : Fin 2).val) = true) ∧ ((bytesWords (wMsg.dev.qPayload (ringQ (1 : Sec) (0 : Fin 2).val))).length ≤ 32) ∧ (wMsg.dev.secDead (2 : Sec) = false) ∧ (wMsg.dev.claimed (2 : Sec) = false)) ∧
    ((wMsgDead.awake) ∧ (wMsgDead.dev.fld (Reg.Q_CFG (ringQ (1 : Sec) (0 : Fin 2).val)) Fld.Q_CFG_DEST = 8 + (2 : Sec).val) ∧ (wMsgDead.dev.qHas (ringQ (1 : Sec) (0 : Fin 2).val) = true) ∧ (wMsgDead.dev.secDead (2 : Sec) = true ∨ wMsgDead.dev.claimed (2 : Sec) = true)) ∧
    ((wMsgClaim.awake) ∧ (wMsgClaim.dev.fld (Reg.Q_CFG (ringQ (1 : Sec) (0 : Fin 2).val)) Fld.Q_CFG_DEST = 8 + (2 : Sec).val) ∧ (wMsgClaim.dev.qHas (ringQ (1 : Sec) (0 : Fin 2).val) = true) ∧ (wMsgClaim.dev.secDead (2 : Sec) = true ∨ wMsgClaim.dev.claimed (2 : Sec) = true)) ∧
    ((wIdle.awake) ∧ (true = false ∨ wIdle.dev.injAt (1 : Sec).val (2 : Fin 4).val (7 : Fin 4096).val = none)) ∧
    ((wIdle.awake) ∧ ((2 : Fin 4).val ≠ 0)) := by
  refine ⟨?_, ?_, ?_, ?_, ?_, ?_, ?_, ?_⟩ <;> decide

/-- Witness of MeasurementWindowsCloseAndReport. -/
theorem wit_measurement_windows_close_and_report :
    ((wSat.awake) ∧ ((wSat.dev.sc (1 : Sec)).delivers (2 : Fin 12).val = true) ∧ (∃ w, w ∈ [100#14, 8191#14] ∧ (correct ((wSat.dev.sc (1 : Sec)).cal (2 : Fin 12).val) w).snd = true)) ∧
    ((wSatBit.awake) ∧ (∀ (a : Nat), a < 4 → (wSatBit.dev.sc (1 : Sec)).armed (4 * (2 : Fin 12).val + a) = false)) ∧
    ((wArm.reach (1 : Sec)) ∧ (wArm.dev.rwpOpen (secBase (1 : Sec) + Reg.ACC_CFG (9 : Fin 48).val) = true) ∧ ((wArm.dev.sc (1 : Sec)).armed (9 : Fin 48).val = false) ∧ (wbit (2701131776 : W) 31 = true) ∧ ((wArm.dev.sc (1 : Sec)).armOk ((9 : Fin 48).val) ((2701131776 : W) &&& (2131693312 : W)) = true)) ∧
    ((wCount.reach (1 : Sec)) ∧ ((wCount.dev.sc (1 : Sec)).armed (9 : Fin 48).val = true) ∧ (wbit (553648128 : W) 31 = false) ∧ ((wCount.dev.sc (1 : Sec)).rd (Reg.ACC_CFG (9 : Fin 48).val) &&& (2131693312 : W) = (553648128 : W) &&& (2131693312 : W))) ∧
    (wArm.reach (1 : Sec)) ∧
    ((wCount.awake) ∧ ((2 : Fin 12).val = (9 : Fin 48).val / 4) ∧ ((wCount.dev.sc (1 : Sec)).delivers (2 : Fin 12).val = true) ∧ ((wCount.dev.sc (1 : Sec)).armed (9 : Fin 48).val = true) ∧ ((wCount.dev.sc (1 : Sec)).accMode (9 : Fin 48).val = 1) ∧ ((wCount.dev.sc (1 : Sec)).acc 9 = (wCount.dev.sc (1 : Sec)).acc (9 : Fin 48).val) ∧ (((wCount.dev.sc (1 : Sec)).acc 9).isOpen = true) ∧ ([((16 : Int), false)] = List.map (correct ((wCount.dev.sc (1 : Sec)).cal (2 : Fin 12).val)) [16#14]) ∧ ([16#14] ≠ []) ∧ (((wCount.dev.sc (1 : Sec)).acc 9).cnt + [16#14].length = BitVec.toNat ((wCount.dev.sc (1 : Sec)).rd (Reg.ACC_PARAM (9 : Fin 48).val)) % 65536)) ∧
    (wCount.awake) ∧
    ((wSat.awake) ∧ ((wSat.dev.sc (1 : Sec)).delivers (2 : Fin 12).val = true) ∧ ((wSat.dev.sc (1 : Sec)).lowPower (2 : Fin 12).val = false) ∧ (((wSat.dev.sc (1 : Sec)).decim (2 : Fin 12).val).cnt = 0) ∧ (((wSat.dev.sc (1 : Sec)).decim (2 : Fin 12).val).half = false) ∧ (c64.length = 64)) ∧
    ((wTimeOpen.awake) ∧ (wTimeOpen.dev.timeInv = false) ∧ ((wTimeOpen.dev.sc (1 : Sec)).armed (9 : Fin 48).val = true) ∧ ((wTimeOpen.dev.sc (1 : Sec)).accMode (9 : Fin 48).val = 2) ∧ (∀ (e : Fin 12 × List (BitVec 14)), e ∈ [] → ↑e.fst ≠ (9 : Fin 48).val / 4) ∧ ((wTimeOpen.dev.sc (1 : Sec)).acc 9 = (wTimeOpen.dev.sc (1 : Sec)).acc (9 : Fin 48).val) ∧ (((wTimeOpen.dev.sc (1 : Sec)).acc 9).due = some 0) ∧ (0 ≤ wTimeOpen.dev.timeNs) ∧ (((wTimeOpen.dev.sc (1 : Sec)).acc 9).isOpen = true) ∧ (((wTimeOpen.dev.sc (1 : Sec)).acc 9).cnt < 65536)) ∧
    ((wTimeOpen.awake) ∧ (wTimeOpen.dev.timeInv = false) ∧ ((wTimeOpen.dev.sc (1 : Sec)).armed (9 : Fin 48).val = true) ∧ ((wTimeOpen.dev.sc (1 : Sec)).accMode (9 : Fin 48).val = 2) ∧ (∀ (e : Fin 12 × List (BitVec 14)), e ∈ [((4 : Fin 12), [100#14])] → ↑e.fst ≠ (9 : Fin 48).val / 4) ∧ ((wTimeOpen.dev.sc (1 : Sec)).acc 9 = (wTimeOpen.dev.sc (1 : Sec)).acc (9 : Fin 48).val) ∧ (((wTimeOpen.dev.sc (1 : Sec)).acc 9).due = some 0) ∧ (0 ≤ wTimeOpen.dev.timeNs) ∧ (((wTimeOpen.dev.sc (1 : Sec)).acc 9).isOpen = true) ∧ (((wTimeOpen.dev.sc (1 : Sec)).acc 9).cnt < 65536)) ∧
    ((wTimeFirst.awake) ∧ (wTimeFirst.dev.timeInv = false) ∧ ((wTimeFirst.dev.sc (1 : Sec)).armed (9 : Fin 48).val = true) ∧ ((wTimeFirst.dev.sc (1 : Sec)).accMode (9 : Fin 48).val = 2) ∧ (((wTimeFirst.dev.sc (1 : Sec)).acc (9 : Fin 48).val).due = some 0) ∧ (0 ≤ wTimeFirst.dev.timeNs) ∧ (((wTimeFirst.dev.sc (1 : Sec)).acc (9 : Fin 48).val).isOpen = false)) ∧
    ((wSat.awake) ∧ (wSat.dev.timeInv = true)) ∧
    ((wForced.awake) ∧ ((2 : Fin 12).val = (9 : Fin 48).val / 4) ∧ ((wForced.dev.sc (1 : Sec)).delivers (2 : Fin 12).val = true) ∧ ((wForced.dev.sc (1 : Sec)).armed (9 : Fin 48).val = true) ∧ ((wForced.dev.sc (1 : Sec)).accMode (9 : Fin 48).val ≠ 1) ∧ ((wForced.dev.sc (1 : Sec)).acc 9 = (wForced.dev.sc (1 : Sec)).acc (9 : Fin 48).val) ∧ (((wForced.dev.sc (1 : Sec)).acc 9).isOpen = true) ∧ ([((16 : Int), false)] = List.map (correct ((wForced.dev.sc (1 : Sec)).cal (2 : Fin 12).val)) [16#14]) ∧ ([16#14] ≠ []) ∧ (((wForced.dev.sc (1 : Sec)).acc 9).cnt + [16#14].length = 65535)) ∧
    ((wSat.ready) ∧ (wSat.dev.secDead (1 : Sec) = false)) := by
  refine ⟨?_, ?_, ?_, ?_, ?_, ?_, ?_, ?_, ?_, ?_, ?_, ?_, ?_, ?_⟩ <;> decide

/-- Witness of PeaksValleysAndReloads. -/
theorem wit_peaks_valleys_and_reloads :
    ((wPeak.awake) ∧ ((wPeak.dev.sc (Leg.sec (4 : Leg))).lg (Leg.loc (4 : Leg)) = (wPeak.dev.sc (1 : Sec)).lg (0 : Fin 4)) ∧ (((wPeak.dev.sc (1 : Sec)).lg (0 : Fin 4)).run = true) ∧ (((wPeak.dev.sc (1 : Sec)).lg (0 : Fin 4)).next = some ↑1600) ∧ (((wPeak.dev.sc (1 : Sec)).lg (0 : Fin 4)).nextPeak = true) ∧ (carMode ((wPeak.dev.sc (1 : Sec)).lg (0 : Fin 4)).cfg = 0) ∧ (isReload ((wPeak.dev.sc (1 : Sec)).lg (0 : Fin 4)).cfg true = false)) ∧
    ((wValley.awake) ∧ ((wValley.dev.sc (Leg.sec (4 : Leg))).lg (Leg.loc (4 : Leg)) = (wValley.dev.sc (1 : Sec)).lg (0 : Fin 4)) ∧ (((wValley.dev.sc (1 : Sec)).lg (0 : Fin 4)).run = true) ∧ (((wValley.dev.sc (1 : Sec)).lg (0 : Fin 4)).next = some ↑3200) ∧ (((wValley.dev.sc (1 : Sec)).lg (0 : Fin 4)).nextPeak = false) ∧ (isReload ((wValley.dev.sc (1 : Sec)).lg (0 : Fin 4)).cfg false = true) ∧ (((wValley.dev.sc (1 : Sec)).lg (0 : Fin 4)).pend = some [(120 : W), (5 : W), (6 : W), (7 : W), (8 : W), (9 : W), (10 : W), (0 : W), (1 : W), (2 : W), (3 : W)]) ∧ (BitVec.getLsbD 1#4 ↑(Leg.loc (4 : Leg)) = true)) ∧
    ((wValley.awake) ∧ ((wValley.dev.sc (Leg.sec (4 : Leg))).lg (Leg.loc (4 : Leg)) = (wValley.dev.sc (1 : Sec)).lg (0 : Fin 4)) ∧ (((wValley.dev.sc (1 : Sec)).lg (0 : Fin 4)).run = true) ∧ (((wValley.dev.sc (1 : Sec)).lg (0 : Fin 4)).next = some ↑3200) ∧ (((wValley.dev.sc (1 : Sec)).lg (0 : Fin 4)).nextPeak = false) ∧ (isReload ((wValley.dev.sc (1 : Sec)).lg (0 : Fin 4)).cfg false = true) ∧ (((wValley.dev.sc (1 : Sec)).lg (0 : Fin 4)).pend = none ∨ BitVec.getLsbD 0#4 ↑(Leg.loc (4 : Leg)) = false)) ∧
    ((wValleyNone.awake) ∧ ((wValleyNone.dev.sc (Leg.sec (4 : Leg))).lg (Leg.loc (4 : Leg)) = (wValleyNone.dev.sc (1 : Sec)).lg (0 : Fin 4)) ∧ (((wValleyNone.dev.sc (1 : Sec)).lg (0 : Fin 4)).run = true) ∧ (((wValleyNone.dev.sc (1 : Sec)).lg (0 : Fin 4)).next = some ↑3200) ∧ (((wValleyNone.dev.sc (1 : Sec)).lg (0 : Fin 4)).nextPeak = false) ∧ (isReload ((wValleyNone.dev.sc (1 : Sec)).lg (0 : Fin 4)).cfg false = true) ∧ (((wValleyNone.dev.sc (1 : Sec)).lg (0 : Fin 4)).pend = none ∨ BitVec.getLsbD 1#4 ↑(Leg.loc (4 : Leg)) = false)) := by
  refine ⟨?_, ?_, ?_, ?_⟩ <;> decide

/-- Witness of SwitchRequestsFollowTheCompares. -/
theorem wit_switch_requests_follow_the_compares :
    ((wEdge.up (Leg.sec (4 : Leg))) ∧ ((wEdge.dev.sc (Leg.sec (4 : Leg))).lg (Leg.loc (4 : Leg)) = (wEdge.dev.sc (1 : Sec)).lg (0 : Fin 4)) ∧ (((wEdge.dev.sc (1 : Sec)).lg (0 : Fin 4)).run = true) ∧ ((0 : Fin 3).val < ((wEdge.dev.sc (1 : Sec)).lg (0 : Fin 4)).u.length) ∧ (((wEdge.dev.sc (1 : Sec)).lg (0 : Fin 4)).doneA.length = 3) ∧ (((wEdge.dev.sc (1 : Sec)).lg (0 : Fin 4)).doneB.length = 3) ∧ ((if false = true then ((wEdge.dev.sc (1 : Sec)).lg (0 : Fin 4)).doneB else ((wEdge.dev.sc (1 : Sec)).lg (0 : Fin 4)).doneA).getD ((0 : Fin 3).val) false = false) ∧ (levelOf ((wEdge.dev.sc (Leg.sec (4 : Leg))).forceNow (Leg.loc (4 : Leg))) (0 : Fin 3).val = 0) ∧ ((wEdge.dev.sc (Leg.sec (4 : Leg))).direct (Leg.loc (4 : Leg)) = false) ∧ ((wEdge.dev.sc (Leg.sec (4 : Leg))).edgeAt (Leg.loc (4 : Leg)) ((0 : Fin 3).val) false = some ↑640)) ∧
    ((wDt.up (Leg.sec (4 : Leg))) ∧ (((0 : Fin 6).val, 50) ∈ ((wDt.dev.sc (Leg.sec (4 : Leg))).lg (Leg.loc (4 : Leg))).dt)) ∧
    ((wFloor.up (Leg.sec (4 : Leg))) ∧ ((wFloor.dev.sc (Leg.sec (4 : Leg))).calm) ∧ (((1 : Fin 6).val, 60) ∈ ((wFloor.dev.sc (Leg.sec (4 : Leg))).lg (Leg.loc (4 : Leg))).wait)) := by
  refine ⟨?_, ?_, ?_⟩ <;> decide

/-- Witness of CommitsImmediateSetsAndVariablePeriods. -/
theorem wit_commits_immediate_sets_and_variable_periods :
    (wPeak.reach (1 : Sec)) ∧
    ((wImm.up (Leg.sec (4 : Leg))) ∧ (((wImm.dev.sc (Leg.sec (4 : Leg))).lg (Leg.loc (4 : Leg))).immWait = some [(120 : W), (5 : W), (6 : W), (7 : W), (8 : W), (9 : W), (10 : W), (36 : W), (1 : W), (2 : W), (3 : W)])) ∧
    ((wVpEdge.up (Leg.sec (4 : Leg))) ∧ ((wVpEdge.dev.sc (Leg.sec (4 : Leg))).lg (Leg.loc (4 : Leg)) = (wVpEdge.dev.sc (1 : Sec)).lg (0 : Fin 4)) ∧ (((wVpEdge.dev.sc (1 : Sec)).lg (0 : Fin 4)).run = true) ∧ (fbit Fld.VP_SRC_EN ((wVpEdge.dev.sc (1 : Sec)).lg (0 : Fin 4)).vps = true) ∧ (((wVpEdge.dev.sc (1 : Sec)).lg (0 : Fin 4)).vpEdge = true) ∧ (carMode ((wVpEdge.dev.sc (1 : Sec)).lg (0 : Fin 4)).cfg = 2 ∨ carMode ((wVpEdge.dev.sc (1 : Sec)).lg (0 : Fin 4)).cfg = 3) ∧ (((wVpEdge.dev.sc (1 : Sec)).lg (0 : Fin 4)).next = none) ∧ (((wVpEdge.dev.sc (1 : Sec)).lg (0 : Fin 4)).tEv ≤ ↑100) ∧ ((0 : Int) = ((wVpEdge.dev.sc (1 : Sec)).lg (0 : Fin 4)).tVal + ↑((wVpEdge.dev.sc (Leg.sec (4 : Leg))).tMin (Leg.loc (4 : Leg))) - if carMode ((wVpEdge.dev.sc (1 : Sec)).lg (0 : Fin 4)).cfg = 3 then ↑((wVpEdge.dev.sc (Leg.sec (4 : Leg))).tA (Leg.loc (4 : Leg))) else (0 : Int))) ∧
    ((wVp.up (Leg.sec (4 : Leg))) ∧ ((wVp.dev.sc (Leg.sec (4 : Leg))).lg (Leg.loc (4 : Leg)) = (wVp.dev.sc (1 : Sec)).lg (0 : Fin 4)) ∧ (((wVp.dev.sc (1 : Sec)).lg (0 : Fin 4)).run = true) ∧ (carMode ((wVp.dev.sc (1 : Sec)).lg (0 : Fin 4)).cfg = 2 ∨ carMode ((wVp.dev.sc (1 : Sec)).lg (0 : Fin 4)).cfg = 3) ∧ (((wVp.dev.sc (1 : Sec)).lg (0 : Fin 4)).next = none) ∧ (↑1600 = ((wVp.dev.sc (1 : Sec)).lg (0 : Fin 4)).tVal + ↑((wVp.dev.sc (Leg.sec (4 : Leg))).full (Leg.loc (4 : Leg))) - if carMode ((wVp.dev.sc (1 : Sec)).lg (0 : Fin 4)).cfg = 3 then ↑((wVp.dev.sc (Leg.sec (4 : Leg))).tA (Leg.loc (4 : Leg))) else (0 : Int))) ∧
    ((wGrid.reach (1 : Sec)) ∧ (wbit (2147483648 : W) 31 = true) ∧ (wGrid.dev.gridOk (1 : Sec) = true) ∧ (wGrid.dev.alignAhead (1 : Sec) ≠ 0) ∧ (wGrid.dev.alignAhead (1 : Sec) ≤ BitVec.toNat ((wGrid.dev.sc (1 : Sec)).rd Reg.ALIGN_SPAN))) ∧
    ((wPeak.reach (1 : Sec)) ∧ (wbit (2147483648 : W) 31 = true) ∧ (wPeak.dev.gridOk (1 : Sec) = false)) := by
  refine ⟨?_, ?_, ?_, ?_, ?_, ?_⟩ <;> decide

/-- Witness of TripsForceLegsUntilCleared. -/
theorem wit_trips_force_legs_until_cleared :
    ((wTrip.up (Leg.sec (4 : Leg))) ∧ ((wTrip.dev.sc (Leg.sec (4 : Leg))).lg (Leg.loc (4 : Leg)) = (wTrip.dev.sc (1 : Sec)).lg (0 : Fin 4)) ∧ (((wTrip.dev.sc (1 : Sec)).lg (0 : Fin 4)).run = true) ∧ ((wTrip.dev.sc (Leg.sec (4 : Leg))).tripSource (Leg.loc (4 : Leg)) (1 : Fin 4).val = true) ∧ (((wTrip.dev.sc (1 : Sec)).lg (0 : Fin 4)).trip.getLsbD (1 : Fin 4).val = false)) ∧
    ((wTripped.up (Leg.sec (4 : Leg))) ∧ ((wTripped.dev.sc (Leg.sec (4 : Leg))).tripSource (Leg.loc (4 : Leg)) (1 : Fin 4).val = false)) ∧
    (wTestable.reach (Leg.sec (4 : Leg))) ∧
    ((wForcedLeg.reach (Leg.sec (4 : Leg))) ∧ ((wForcedLeg.dev.sc (Leg.sec (4 : Leg))).calm) ∧ (((wForcedLeg.dev.sc (Leg.sec (4 : Leg))).lg (Leg.loc (4 : Leg))).trip = 0#4) ∧ ((wForcedLeg.dev.sc (Leg.sec (4 : Leg))).forced (Leg.loc (4 : Leg)) = true)) ∧
    ((wTripped.reach (Leg.sec (4 : Leg))) ∧ ((wTripped.dev.sc (Leg.sec (4 : Leg))).calm) ∧ (((wTripped.dev.sc (Leg.sec (4 : Leg))).lg (Leg.loc (4 : Leg))).trip ≠ 0#4)) := by
  refine ⟨?_, ?_, ?_, ?_, ?_⟩ <;> decide

/-- Witness of BootstrapPulsesRefresh. -/
theorem wit_bootstrap_pulses_refresh :
    ((wIdleLeg.up (Leg.sec (4 : Leg))) ∧ ((wIdleLeg.dev.sc (Leg.sec (4 : Leg))).calm) ∧ ((wIdleLeg.dev.sc (Leg.sec (4 : Leg))).bsOn (Leg.loc (4 : Leg)) = true) ∧ (bitsN ((wIdleLeg.dev.sc (Leg.sec (4 : Leg))).legW (Leg.loc (4 : Leg)) 8) 31 16 ≠ 0) ∧ ((wIdleLeg.dev.sc (Leg.sec (4 : Leg))).mayDrive (Leg.loc (4 : Leg)) = true) ∧ ((wIdleLeg.dev.sc (Leg.sec (4 : Leg))).heldOff (Leg.loc (4 : Leg)) = false) ∧ ((wIdleLeg.dev.sc (Leg.sec (4 : Leg))).stage1 (Leg.loc (4 : Leg)) = 0#6) ∧ (((wIdleLeg.dev.sc (Leg.sec (4 : Leg))).lg (Leg.loc (4 : Leg))).bsPulse = false) ∧ (((wIdleLeg.dev.sc (Leg.sec (4 : Leg))).lg (Leg.loc (4 : Leg))).train = 0)) ∧
    ((wPulseWait.up (Leg.sec (4 : Leg))) ∧ (wPulseWait.dev.sc (Leg.sec (4 : Leg)) = wPulseWait.dev.sc (1 : Sec)) ∧ ((wPulseWait.dev.sc (1 : Sec)).calm) ∧ (((wPulseWait.dev.sc (1 : Sec)).lg (Leg.loc (4 : Leg))).bsPulse = true) ∧ ((1 : Fin 6).val = (wPulseWait.dev.sc (1 : Sec)).bsLo (Leg.loc (4 : Leg))) ∧ (((1 : Fin 6).val, 60) ∈ ((wPulseWait.dev.sc (1 : Sec)).lg (Leg.loc (4 : Leg))).wait)) ∧
    ((wPulse.up (Leg.sec (4 : Leg))) ∧ ((wPulse.dev.sc (Leg.sec (4 : Leg))).calm) ∧ (((wPulse.dev.sc (Leg.sec (4 : Leg))).lg (Leg.loc (4 : Leg))).bsPulse = true) ∧ (((wPulse.dev.sc (Leg.sec (4 : Leg))).lg (Leg.loc (4 : Leg))).bsEnd = some 90) ∧ (((wPulse.dev.sc (Leg.sec (4 : Leg))).lg (Leg.loc (4 : Leg))).train = 0)) ∧
    ((wTrain.up (Leg.sec (4 : Leg))) ∧ (wTrain.dev.sc (Leg.sec (4 : Leg)) = wTrain.dev.sc (1 : Sec)) ∧ ((wTrain.dev.sc (1 : Sec)).calm) ∧ (((wTrain.dev.sc (1 : Sec)).stage1 (Leg.loc (4 : Leg))).getLsbD ((wTrain.dev.sc (1 : Sec)).bsHi (Leg.loc (4 : Leg))) = true) ∧ ((wTrain.dev.sc (1 : Sec)).trainIsDue (Leg.loc (4 : Leg)) 90 = true) ∧ ((wTrain.dev.sc (1 : Sec)).heldOff (Leg.loc (4 : Leg)) = false) ∧ (((wTrain.dev.sc (1 : Sec)).lg (Leg.loc (4 : Leg))).bsPulse = false)) ∧
    ((wTrain.up (Leg.sec (4 : Leg))) ∧ (wTrain.dev.sc (Leg.sec (4 : Leg)) = wTrain.dev.sc (1 : Sec)) ∧ ((wTrain.dev.sc (1 : Sec)).calm) ∧ (((wTrain.dev.sc (1 : Sec)).stage1 (Leg.loc (4 : Leg))).getLsbD ((wTrain.dev.sc (1 : Sec)).bsHi (Leg.loc (4 : Leg))) = true) ∧ ((wTrain.dev.sc (1 : Sec)).trainIsDue (Leg.loc (4 : Leg)) 900 = true) ∧ ((wTrain.dev.sc (1 : Sec)).heldOff (Leg.loc (4 : Leg)) = false) ∧ (((wTrain.dev.sc (1 : Sec)).lg (Leg.loc (4 : Leg))).bsPulse = false)) ∧
    ((wTrain2.up (Leg.sec (4 : Leg))) ∧ (wTrain2.dev.sc (Leg.sec (4 : Leg)) = wTrain2.dev.sc (1 : Sec)) ∧ ((wTrain2.dev.sc (1 : Sec)).calm) ∧ ((wTrain2.dev.sc (1 : Sec)).mayDrive (Leg.loc (4 : Leg)) = true) ∧ (((wTrain2.dev.sc (1 : Sec)).lg (Leg.loc (4 : Leg))).bsPulse = true) ∧ (((wTrain2.dev.sc (1 : Sec)).lg (Leg.loc (4 : Leg))).bsEnd = some 90) ∧ (2 ≤ ((wTrain2.dev.sc (1 : Sec)).lg (Leg.loc (4 : Leg))).train)) ∧
    ((wTrain1.up (Leg.sec (4 : Leg))) ∧ (wTrain1.dev.sc (Leg.sec (4 : Leg)) = wTrain1.dev.sc (1 : Sec)) ∧ ((wTrain1.dev.sc (1 : Sec)).calm) ∧ (((wTrain1.dev.sc (1 : Sec)).lg (Leg.loc (4 : Leg))).bsPulse = true) ∧ (((wTrain1.dev.sc (1 : Sec)).lg (Leg.loc (4 : Leg))).bsEnd = some 90) ∧ (((wTrain1.dev.sc (1 : Sec)).lg (Leg.loc (4 : Leg))).train = 1)) := by
  refine ⟨?_, ?_, ?_, ?_, ?_, ?_, ?_⟩ <;> decide

/-- Witness of ProtectionTurnsOffInTwoSteps. -/
theorem wit_protection_turns_off_in_two_steps :
    ((wFlt.up (Leg.sec (4 : Leg))) ∧ (wbit ((wFlt.dev.sc (Leg.sec (4 : Leg))).rd (Reg.OC_CFG ↑(Leg.loc (4 : Leg)))) (Fld.OC_CFG_FLT_EN.lo + (0 : Fin 6).val) = true) ∧ (((wFlt.dev.sc (Leg.sec (4 : Leg))).legPos (Leg.loc (4 : Leg))).getLsbD (0 : Fin 6).val = true) ∧ ((wFlt.dev.sc (Leg.sec (4 : Leg))).blanked (Leg.loc (4 : Leg)) (0 : Fin 6).val = false)) ∧
    (wBlankOc.up (Leg.sec (4 : Leg))) ∧
    ((wFlt.up (Leg.sec (4 : Leg))) ∧ ((wFlt.dev.sc (Leg.sec (4 : Leg))).testing (Leg.loc (4 : Leg)) = false) ∧ ((wFlt.dev.sc (Leg.sec (4 : Leg))).flag (Reg.OC_LIVE ↑(Leg.loc (4 : Leg))) Fld.OC_LIVE_OC1 = false)) ∧
    ((wBlank.up (Leg.sec (4 : Leg))) ∧ ((wBlank.dev.sc (Leg.sec (4 : Leg))).testing (Leg.loc (4 : Leg)) = false) ∧ ((wBlank.dev.sc (Leg.sec (4 : Leg))).flag (Reg.OC_LIVE ↑(Leg.loc (4 : Leg))) Fld.OC_LIVE_OC1 = false)) ∧
    ((wFlt.up (Leg.sec (4 : Leg))) ∧ ((wFlt.dev.sc (Leg.sec (4 : Leg))).testing (Leg.loc (4 : Leg)) = false) ∧ ((wFlt.dev.sc (Leg.sec (4 : Leg))).flag (Reg.OC_LIVE ↑(Leg.loc (4 : Leg))) Fld.OC_LIVE_OC2 = false)) ∧
    ((wFltLatched.up (Leg.sec (4 : Leg))) ∧ ((wFltLatched.dev.sc (Leg.sec (4 : Leg))).lg (Leg.loc (4 : Leg)) = (wFltLatched.dev.sc (1 : Sec)).lg (0 : Fin 4)) ∧ (((wFltLatched.dev.sc (1 : Sec)).lg (0 : Fin 4)).step = 1) ∧ (((wFltLatched.dev.sc (1 : Sec)).lg (0 : Fin 4)).clockDead = false) ∧ (((wFltLatched.dev.sc (1 : Sec)).lg (0 : Fin 4)).allOff = true) ∧ ((wFltLatched.dev.sc (Leg.sec (4 : Leg))).latched (Leg.loc (4 : Leg)) = true)) ∧
    ((wInner1.up (Leg.sec (4 : Leg))) ∧ ((wInner1.dev.sc (Leg.sec (4 : Leg))).lg (Leg.loc (4 : Leg)) = (wInner1.dev.sc (1 : Sec)).lg (0 : Fin 4)) ∧ (((wInner1.dev.sc (1 : Sec)).lg (0 : Fin 4)).step = 1) ∧ (((wInner1.dev.sc (1 : Sec)).lg (0 : Fin 4)).clockDead = false) ∧ (((wInner1.dev.sc (1 : Sec)).lg (0 : Fin 4)).allOff = true) ∧ ((wInner1.dev.sc (Leg.sec (4 : Leg))).latched (Leg.loc (4 : Leg)) = true)) ∧
    ((wFltLatched.up (Leg.sec (4 : Leg))) ∧ ((wFltLatched.dev.sc (Leg.sec (4 : Leg))).lg (Leg.loc (4 : Leg)) = (wFltLatched.dev.sc (1 : Sec)).lg (0 : Fin 4)) ∧ (((wFltLatched.dev.sc (1 : Sec)).lg (0 : Fin 4)).step = 1) ∧ (((wFltLatched.dev.sc (1 : Sec)).lg (0 : Fin 4)).allOff = true) ∧ ((wFltLatched.dev.sc (Leg.sec (4 : Leg))).latched (Leg.loc (4 : Leg)) = true)) ∧
    ((wInner.up (Leg.sec (4 : Leg))) ∧ ((wInner.dev.sc (Leg.sec (4 : Leg))).lg (Leg.loc (4 : Leg)) = (wInner.dev.sc (1 : Sec)).lg (0 : Fin 4)) ∧ (((wInner.dev.sc (1 : Sec)).lg (0 : Fin 4)).step = 2) ∧ (((wInner.dev.sc (1 : Sec)).lg (0 : Fin 4)).allOff = true) ∧ ((wInner.dev.sc (Leg.sec (4 : Leg))).latched (Leg.loc (4 : Leg)) = true)) := by
  refine ⟨?_, ?_, ?_, ?_, ?_, ?_, ?_, ?_, ?_⟩ <;> decide

/-- Witness of HoldsEndSelfTestsAndMonitors. -/
theorem wit_holds_end_self_tests_and_monitors :
    ((wNotReady.up (Leg.sec (4 : Leg))) ∧ ((wNotReady.dev.sc (Leg.sec (4 : Leg))).calm) ∧ ((wNotReady.dev.sc (Leg.sec (4 : Leg))).testing (Leg.loc (4 : Leg)) = false)) ∧
    ((wBlank.up (Leg.sec (4 : Leg))) ∧ ((wBlank.dev.sc (Leg.sec (4 : Leg))).calm) ∧ (((0 : Fin 6).val, 70) ∈ ((wBlank.dev.sc (Leg.sec (4 : Leg))).lg (Leg.loc (4 : Leg))).blank) ∧ ((wBlank.dev.sc (Leg.sec (4 : Leg))).flag (Reg.OC_LIVE ↑(Leg.loc (4 : Leg))) Fld.OC_LIVE_OC1 = false)) ∧
    ((wBlank.up (Leg.sec (4 : Leg))) ∧ (((0 : Fin 6).val, 70) ∈ ((wBlank.dev.sc (Leg.sec (4 : Leg))).lg (Leg.loc (4 : Leg))).blank) ∧ (wbit ((wBlank.dev.sc (Leg.sec (4 : Leg))).rd (Reg.OC_CFG ↑(Leg.loc (4 : Leg)))) (Fld.OC_CFG_FLT_EN.lo + (0 : Fin 6).val) = true) ∧ (((wBlank.dev.sc (Leg.sec (4 : Leg))).legPos (Leg.loc (4 : Leg))).getLsbD (0 : Fin 6).val = true)) ∧
    ((wBlankOc.up (Leg.sec (4 : Leg))) ∧ (((wBlankOc.dev.sc (Leg.sec (4 : Leg))).lg (Leg.loc (4 : Leg))).blank = [((0 : Fin 6).val, 70)]) ∧ ((wBlankOc.dev.sc (Leg.sec (4 : Leg))).flag (Reg.OC_LIVE ↑(Leg.loc (4 : Leg))) Fld.OC_LIVE_OC1 = true) ∧ (((wBlankOc.dev.sc (Leg.sec (4 : Leg))).lg (Leg.loc (4 : Leg))).nr1 = false) ∧ ((wBlankOc.dev.sc (Leg.sec (4 : Leg))).testing (Leg.loc (4 : Leg)) = false)) ∧
    ((wDone3.reach (Leg.sec (4 : Leg))) ∧ ((wDone3.dev.sc (Leg.sec (4 : Leg))).calm) ∧ (((wDone3.dev.sc (Leg.sec (4 : Leg))).lg (Leg.loc (4 : Leg))).step = 0 ∨ ((wDone3.dev.sc (Leg.sec (4 : Leg))).lg (Leg.loc (4 : Leg))).step = 3) ∧ ((wDone3.dev.sc (Leg.sec (4 : Leg))).flag (Reg.OC_LIVE ↑(Leg.loc (4 : Leg))) Fld.OC_LIVE_OC1 = false) ∧ ((wDone3.dev.sc (Leg.sec (4 : Leg))).flag (Reg.OC_LIVE ↑(Leg.loc (4 : Leg))) Fld.OC_LIVE_OC2 = false) ∧ (0#6 = 0#6) ∧ ((wDone3.dev.sc (Leg.sec (4 : Leg))).testHold (Leg.loc (4 : Leg)) = false) ∧ ((wDone3.dev.sc (Leg.sec (4 : Leg))).latched (Leg.loc (4 : Leg)) = true)) ∧
    ((wForcedLatch.reach (Leg.sec (4 : Leg))) ∧ ((wForcedLatch.dev.sc (Leg.sec (4 : Leg))).calm) ∧ (((wForcedLatch.dev.sc (Leg.sec (4 : Leg))).lg (Leg.loc (4 : Leg))).step = 0 ∨ ((wForcedLatch.dev.sc (Leg.sec (4 : Leg))).lg (Leg.loc (4 : Leg))).step = 3) ∧ ((wForcedLatch.dev.sc (Leg.sec (4 : Leg))).flag (Reg.OC_LIVE ↑(Leg.loc (4 : Leg))) Fld.OC_LIVE_OC1 = false) ∧ ((wForcedLatch.dev.sc (Leg.sec (4 : Leg))).flag (Reg.OC_LIVE ↑(Leg.loc (4 : Leg))) Fld.OC_LIVE_OC2 = false) ∧ (0#6 = 0#6) ∧ ((wForcedLatch.dev.sc (Leg.sec (4 : Leg))).testHold (Leg.loc (4 : Leg)) = false) ∧ ((wForcedLatch.dev.sc (Leg.sec (4 : Leg))).latched (Leg.loc (4 : Leg)) = true)) ∧
    ((wFltLatched.reach (Leg.sec (4 : Leg))) ∧ (((wFltLatched.dev.sc (Leg.sec (4 : Leg))).lg (Leg.loc (4 : Leg))).step = 1 ∨ ((wFltLatched.dev.sc (Leg.sec (4 : Leg))).lg (Leg.loc (4 : Leg))).step = 2 ∨ (wFltLatched.dev.sc (Leg.sec (4 : Leg))).flag (Reg.OC_LIVE ↑(Leg.loc (4 : Leg))) Fld.OC_LIVE_OC1 = true ∨ (wFltLatched.dev.sc (Leg.sec (4 : Leg))).flag (Reg.OC_LIVE ↑(Leg.loc (4 : Leg))) Fld.OC_LIVE_OC2 = true ∨ (wFltLatched.dev.sc (Leg.sec (4 : Leg))).testHold (Leg.loc (4 : Leg)) = true ∨ 0#6 &&& BitVec.ofNat 6 ((wFltLatched.dev.sc (Leg.sec (4 : Leg))).fld (Reg.OC_CFG ↑(Leg.loc (4 : Leg))) Fld.OC_CFG_FLT_EN) &&& (wFltLatched.dev.sc (Leg.sec (4 : Leg))).legPos (Leg.loc (4 : Leg)) ≠ 0#6)) ∧
    ((wTestable.reach (Leg.sec (4 : Leg))) ∧ ((wTestable.dev.sc (Leg.sec (4 : Leg))).testing (Leg.loc (4 : Leg)) = false) ∧ (((wTestable.dev.sc (Leg.sec (4 : Leg))).lg (Leg.loc (4 : Leg))).out = 0#6) ∧ ((wTestable.dev.sc (Leg.sec (4 : Leg))).state ≠ 4 ∨ ((wTestable.dev.sc (Leg.sec (4 : Leg))).lg (Leg.loc (4 : Leg))).perm = false ∨ (wTestable.dev.sc (Leg.sec (4 : Leg))).latched (Leg.loc (4 : Leg)) = true ∨ (wTestable.dev.sc (Leg.sec (4 : Leg))).forced (Leg.loc (4 : Leg)) = true)) ∧
    ((wOn2.reach (Leg.sec (4 : Leg))) ∧ (((wOn2.dev.sc (Leg.sec (4 : Leg))).lg (Leg.loc (4 : Leg))).out ≠ 0#6)) ∧
    ((wTesting.up (Leg.sec (4 : Leg))) ∧ ((wTesting.dev.sc (Leg.sec (4 : Leg))).testing (Leg.loc (4 : Leg)) = true)) ∧
    ((wMon.up (1 : Sec)) ∧ (true = true ∨ (wMon.dev.sc (1 : Sec)).flag (Reg.WM_CFG (2 : Fin 8).val) Fld.WM_CFG_DIG = false) ∧ ([true] ≠ []) ∧ ((wMon.dev.sc (1 : Sec)).rd (Reg.WM_CFG 2) = (wMon.dev.sc (1 : Sec)).rd (Reg.WM_CFG (2 : Fin 8).val)) ∧ (([true], true) = List.foldl (fun q b => (List.take 15 (b :: q.fst), majority (fget Fld.WM_CFG_N ((wMon.dev.sc (1 : Sec)).rd (Reg.WM_CFG 2))) (fget Fld.WM_CFG_K ((wMon.dev.sc (1 : Sec)).rd (Reg.WM_CFG 2))) (List.take 15 (b :: q.fst)) q.snd)) ((wMon.dev.sc (1 : Sec)).wmHist ((2 : Fin 8).val) true, (wMon.dev.sc (1 : Sec)).filt ((2 : Fin 8).val) true) [true])) := by
  refine ⟨?_, ?_, ?_, ?_, ?_, ?_, ?_, ?_, ?_, ?_, ?_⟩ <;> decide

/-- Witness of BridgeCommandsTakeEffectAtTicks. -/
theorem wit_bridge_commands_take_effect_at_ticks :
    ((wBrPre.reach (1 : Sec)) ∧ (((wBrPre.dev.sc (1 : Sec)).bridges.get (0 : Bridge)).kind ≠ 0)) ∧
    ((wBrPre.ready) ∧ (wBrPre.dev.secDead (1 : Sec) = false) ∧ (wBrPre.dev.claimed (1 : Sec) = true ∧ Fld.BR_STAT_CMD_IGN = Fld.BR_STAT_CMD_REJ ∨ wBrPre.dev.claimed (1 : Sec) = false ∧ ((wBrPre.dev.sc (1 : Sec)).bridges.get (1 : Bridge)).kind = 0 ∧ Fld.BR_STAT_CMD_IGN = Fld.BR_STAT_CMD_IGN)) ∧
    ((wBrClaim.ready) ∧ (wBrClaim.dev.secDead (1 : Sec) = false) ∧ (wBrClaim.dev.claimed (1 : Sec) = true ∧ Fld.BR_STAT_CMD_REJ = Fld.BR_STAT_CMD_REJ ∨ wBrClaim.dev.claimed (1 : Sec) = false ∧ ((wBrClaim.dev.sc (1 : Sec)).bridges.get (1 : Bridge)).kind = 0 ∧ Fld.BR_STAT_CMD_REJ = Fld.BR_STAT_CMD_IGN)) ∧
    (((wBrCmdT 0 1).awake) ∧ (((wBrCmdT 0 1).dev.sc (1 : Sec)).state = 3 ∨ ((wBrCmdT 0 1).dev.sc (1 : Sec)).state = 4) ∧ (((wBrCmdT 0 1).dev.sc (1 : Sec)).couch.due = false) ∧ (((wBrCmdT 0 1).dev.sc (1 : Sec)).eng.prun = none) ∧ (((wBrCmdT 0 1).dev.sc (1 : Sec)).selects 600) ∧ (500 ≤ 600) ∧ (((wBrCmdT 0 1).dev.sc (1 : Sec)).eng.run = none) ∧ (((wBrCmdT 0 1).dev.sc (1 : Sec)).calm) ∧ (((wBrCmdT 0 1).dev.sc (1 : Sec)).brLatch (0 : Bridge) = 0) ∧ ((((wBrCmdT 0 1).dev.sc (1 : Sec)).bridges.get (0 : Bridge)).kind ≠ 0) ∧ ((((wBrCmdT 0 1).dev.sc (1 : Sec)).ast.seq.get (0 : Bridge)).cmds = [1]) ∧ (∀ (k : Bridge), k ≠ (0 : Bridge) → (((wBrCmdT 0 1).dev.sc (1 : Sec)).ast.seq.get k).cmds = []) ∧ (((wBrCmdT 0 1).dev.sc (1 : Sec)).brState (0 : Bridge).val = 0) ∧ (1 = 1 ∧ 0 = 0 ∧ 1 = 1 ∨ 1 = 2 ∧ (0 = 4 ∨ 0 = 5) ∧ 1 = 6 ∨ 1 = 2 ∧ 1 ≤ 0 ∧ 0 ≤ 3 ∧ 1 = 0 ∨ 1 = 4 ∧ 0 = 7 ∧ 1 = 0 ∨ 1 = 8 ∧ 0 ≠ 8 ∧ 1 = 8)) ∧
    (((wBrCmdT 4 2).awake) ∧ (((wBrCmdT 4 2).dev.sc (1 : Sec)).state = 3 ∨ ((wBrCmdT 4 2).dev.sc (1 : Sec)).state = 4) ∧ (((wBrCmdT 4 2).dev.sc (1 : Sec)).couch.due = false) ∧ (((wBrCmdT 4 2).dev.sc (1 : Sec)).eng.prun = none) ∧ (((wBrCmdT 4 2).dev.sc (1 : Sec)).selects 600) ∧ (500 ≤ 600) ∧ (((wBrCmdT 4 2).dev.sc (1 : Sec)).eng.run = none) ∧ (((wBrCmdT 4 2).dev.sc (1 : Sec)).calm) ∧ (((wBrCmdT 4 2).dev.sc (1 : Sec)).brLatch (0 : Bridge) = 0) ∧ ((((wBrCmdT 4 2).dev.sc (1 : Sec)).bridges.get (0 : Bridge)).kind ≠ 0) ∧ ((((wBrCmdT 4 2).dev.sc (1 : Sec)).ast.seq.get (0 : Bridge)).cmds = [2]) ∧ (∀ (k : Bridge), k ≠ (0 : Bridge) → (((wBrCmdT 4 2).dev.sc (1 : Sec)).ast.seq.get k).cmds = []) ∧ (((wBrCmdT 4 2).dev.sc (1 : Sec)).brState (0 : Bridge).val = 4) ∧ (2 = 1 ∧ 4 = 0 ∧ 6 = 1 ∨ 2 = 2 ∧ (4 = 4 ∨ 4 = 5) ∧ 6 = 6 ∨ 2 = 2 ∧ 1 ≤ 4 ∧ 4 ≤ 3 ∧ 6 = 0 ∨ 2 = 4 ∧ 4 = 7 ∧ 6 = 0 ∨ 2 = 8 ∧ 4 ≠ 8 ∧ 6 = 8)) ∧
    (((wBrCmdT 3 2).awake) ∧ (((wBrCmdT 3 2).dev.sc (1 : Sec)).state = 3 ∨ ((wBrCmdT 3 2).dev.sc (1 : Sec)).state = 4) ∧ (((wBrCmdT 3 2).dev.sc (1 : Sec)).couch.due = false) ∧ (((wBrCmdT 3 2).dev.sc (1 : Sec)).eng.prun = none) ∧ (((wBrCmdT 3 2).dev.sc (1 : Sec)).selects 600) ∧ (500 ≤ 600) ∧ (((wBrCmdT 3 2).dev.sc (1 : Sec)).eng.run = none) ∧ (((wBrCmdT 3 2).dev.sc (1 : Sec)).calm) ∧ (((wBrCmdT 3 2).dev.sc (1 : Sec)).brLatch (0 : Bridge) = 0) ∧ ((((wBrCmdT 3 2).dev.sc (1 : Sec)).bridges.get (0 : Bridge)).kind ≠ 0) ∧ ((((wBrCmdT 3 2).dev.sc (1 : Sec)).ast.seq.get (0 : Bridge)).cmds = [2]) ∧ (∀ (k : Bridge), k ≠ (0 : Bridge) → (((wBrCmdT 3 2).dev.sc (1 : Sec)).ast.seq.get k).cmds = []) ∧ (((wBrCmdT 3 2).dev.sc (1 : Sec)).brState (0 : Bridge).val = 3) ∧ (2 = 1 ∧ 3 = 0 ∧ 0 = 1 ∨ 2 = 2 ∧ (3 = 4 ∨ 3 = 5) ∧ 0 = 6 ∨ 2 = 2 ∧ 1 ≤ 3 ∧ 3 ≤ 3 ∧ 0 = 0 ∨ 2 = 4 ∧ 3 = 7 ∧ 0 = 0 ∨ 2 = 8 ∧ 3 ≠ 8 ∧ 0 = 8)) ∧
    (((wBrCmdT 7 4).awake) ∧ (((wBrCmdT 7 4).dev.sc (1 : Sec)).state = 3 ∨ ((wBrCmdT 7 4).dev.sc (1 : Sec)).state = 4) ∧ (((wBrCmdT 7 4).dev.sc (1 : Sec)).couch.due = false) ∧ (((wBrCmdT 7 4).dev.sc (1 : Sec)).eng.prun = none) ∧ (((wBrCmdT 7 4).dev.sc (1 : Sec)).selects 600) ∧ (500 ≤ 600) ∧ (((wBrCmdT 7 4).dev.sc (1 : Sec)).eng.run = none) ∧ (((wBrCmdT 7 4).dev.sc (1 : Sec)).calm) ∧ (((wBrCmdT 7 4).dev.sc (1 : Sec)).brLatch (0 : Bridge) = 0) ∧ ((((wBrCmdT 7 4).dev.sc (1 : Sec)).bridges.get (0 : Bridge)).kind ≠ 0) ∧ ((((wBrCmdT 7 4).dev.sc (1 : Sec)).ast.seq.get (0 : Bridge)).cmds = [4]) ∧ (∀ (k : Bridge), k ≠ (0 : Bridge) → (((wBrCmdT 7 4).dev.sc (1 : Sec)).ast.seq.get k).cmds = []) ∧ (((wBrCmdT 7 4).dev.sc (1 : Sec)).brState (0 : Bridge).val = 7) ∧ (4 = 1 ∧ 7 = 0 ∧ 0 = 1 ∨ 4 = 2 ∧ (7 = 4 ∨ 7 = 5) ∧ 0 = 6 ∨ 4 = 2 ∧ 1 ≤ 7 ∧ 7 ≤ 3 ∧ 0 = 0 ∨ 4 = 4 ∧ 7 = 7 ∧ 0 = 0 ∨ 4 = 8 ∧ 7 ≠ 8 ∧ 0 = 8)) ∧
    (((wBrCmdT 6 8).awake) ∧ (((wBrCmdT 6 8).dev.sc (1 : Sec)).state = 3 ∨ ((wBrCmdT 6 8).dev.sc (1 : Sec)).state = 4) ∧ (((wBrCmdT 6 8).dev.sc (1 : Sec)).couch.due = false) ∧ (((wBrCmdT 6 8).dev.sc (1 : Sec)).eng.prun = none) ∧ (((wBrCmdT 6 8).dev.sc (1 : Sec)).selects 600) ∧ (500 ≤ 600) ∧ (((wBrCmdT 6 8).dev.sc (1 : Sec)).eng.run = none) ∧ (((wBrCmdT 6 8).dev.sc (1 : Sec)).calm) ∧ (((wBrCmdT 6 8).dev.sc (1 : Sec)).brLatch (0 : Bridge) = 0) ∧ ((((wBrCmdT 6 8).dev.sc (1 : Sec)).bridges.get (0 : Bridge)).kind ≠ 0) ∧ ((((wBrCmdT 6 8).dev.sc (1 : Sec)).ast.seq.get (0 : Bridge)).cmds = [8]) ∧ (∀ (k : Bridge), k ≠ (0 : Bridge) → (((wBrCmdT 6 8).dev.sc (1 : Sec)).ast.seq.get k).cmds = []) ∧ (((wBrCmdT 6 8).dev.sc (1 : Sec)).brState (0 : Bridge).val = 6) ∧ (8 = 1 ∧ 6 = 0 ∧ 8 = 1 ∨ 8 = 2 ∧ (6 = 4 ∨ 6 = 5) ∧ 8 = 6 ∨ 8 = 2 ∧ 1 ≤ 6 ∧ 6 ≤ 3 ∧ 8 = 0 ∨ 8 = 4 ∧ 6 = 7 ∧ 8 = 0 ∨ 8 = 8 ∧ 6 ≠ 8 ∧ 8 = 8)) := by
  refine ⟨?_, ?_, ?_, ?_, ?_, ?_, ?_, ?_⟩ <;> decide

/-- Witness of BridgeTimersMoveTheSequencers. -/
theorem wit_bridge_timers_move_the_sequencers :
    ((wBrPre.up (1 : Sec)) ∧ ((wBrPre.dev.sc (1 : Sec)).brState (0 : Bridge).val = 1)) ∧
    ((wBrConn.up (1 : Sec)) ∧ ((wBrConn.dev.sc (1 : Sec)).brState (0 : Bridge).val = 3)) ∧
    ((wBrStop.up (1 : Sec)) ∧ ((wBrStop.dev.sc (1 : Sec)).brState (0 : Bridge).val = 6)) ∧
    ((wBrSync.up (1 : Sec)) ∧ ((wBrSync.dev.sc (1 : Sec)).calm) ∧ ((wBrSync.dev.sc (1 : Sec)).brState (0 : Bridge).val = 2) ∧ (((wBrSync.dev.sc (1 : Sec)).ast.seq.get (0 : Bridge)).syncOk = true)) ∧
    ((wBrSyncMain.up (1 : Sec)) ∧ ((wBrSyncMain.dev.sc (1 : Sec)).calm) ∧ ((wBrSyncMain.dev.sc (1 : Sec)).brState (0 : Bridge).val = 2) ∧ (((wBrSyncMain.dev.sc (1 : Sec)).ast.seq.get (0 : Bridge)).syncOk = true)) ∧
    ((wBrRide.up (1 : Sec)) ∧ ((wBrRide.dev.sc (1 : Sec)).calm) ∧ ((wBrRide.dev.sc (1 : Sec)).brState (0 : Bridge).val = 5) ∧ (((wBrRide.dev.sc (1 : Sec)).ast.seq.get (0 : Bridge)).rideOk = true)) ∧
    ((wBrRide.up (1 : Sec)) ∧ ((wBrRide.dev.sc (1 : Sec)).brState (0 : Bridge).val = 5) ∧ (((wBrRide.dev.sc (1 : Sec)).ast.seq.get (0 : Bridge)).segs ≠ 0#5)) ∧
    ((wBrRide.up (1 : Sec)) ∧ (((wBrRide.dev.sc (1 : Sec)).bridges.get (0 : Bridge)).kind ≠ 0)) := by
  refine ⟨?_, ?_, ?_, ?_, ?_, ?_, ?_, ?_⟩ <;> decide

/-- Witness of AssistAndIslandingUnits. -/
theorem wit_assist_and_islanding_units :
    (((wEng 0 0#26).awake) ∧ (((wEng 0 0#26).dev.sc (1 : Sec)).eng.run = some r0) ∧ (((wEng 0 0#26).dev.sc (1 : Sec)).eng.tin.assist = false) ∧ (∀ (k : Nat), k ∈ ((wEng 0 0#26).dev.sc (1 : Sec)).assistAccs → ((wEng 0 0#26).dev.sc (1 : Sec)).awaited k = false)) ∧
    ((wRdiItem.issues (1 : Sec) EngSel.run 42 2097249#26 r0 1) ∧ (96 ≤ BitVec.toNat 2097249#26 % 256) ∧ (BitVec.toNat 2097249#26 % 256 = 101 → (wRdiItem.dev.sc (1 : Sec)).eng.tin.assist = true ∨ (wRdiItem.dev.sc (1 : Sec)).gridOn = false) ∧ (Tbl.get (fun _ => none) (wRdiItem.dev.sc (1 : Sec)).eng.tin.items (itemKey r0.ctx (BitVec.toNat 2097249#26 % 256)) = none) ∧ (BitVec.getLsbD 2097249#26 19 = false)) ∧
    ((wObsHold.up (1 : Sec)) ∧ ((wObsHold.dev.sc (1 : Sec)).ast.st.obs.mode = 1)) ∧
    (((wMppt true).up (1 : Sec)) ∧ (((wMppt true).dev.sc (1 : Sec)).ast.st.br.get (0 : Bridge) = ((wMppt true).dev.sc (1 : Sec)).ast.st.br.get (0 : Fin 4)) ∧ (((wMppt true).dev.sc (1 : Sec)).mpptHeld (0 : Bridge).val = false) ∧ ((((wMppt true).dev.sc (1 : Sec)).ast.st.br.get (0 : Fin 4)).mn ≠ 0) ∧ (((wMppt true).dev.sc (1 : Sec)).fld (Reg.BR_MPPT2 (0 : Bridge).val) Fld.BR_MPPT2_PER ≤ (((wMppt true).dev.sc (1 : Sec)).ast.st.br.get (0 : Fin 4)).mt)) ∧
    (((wMppt false).up (1 : Sec)) ∧ (((wMppt false).dev.sc (1 : Sec)).ast.st.br.get (0 : Bridge) = ((wMppt false).dev.sc (1 : Sec)).ast.st.br.get (0 : Fin 4)) ∧ (((wMppt false).dev.sc (1 : Sec)).mpptHeld (0 : Bridge).val = false) ∧ ((((wMppt false).dev.sc (1 : Sec)).ast.st.br.get (0 : Fin 4)).mn ≠ 0) ∧ (((wMppt false).dev.sc (1 : Sec)).fld (Reg.BR_MPPT2 (0 : Bridge).val) Fld.BR_MPPT2_PER ≤ (((wMppt false).dev.sc (1 : Sec)).ast.st.br.get (0 : Fin 4)).mt)) ∧
    ((wPassive.up (1 : Sec)) ∧ ((wPassive.dev.sc (1 : Sec)).flag Reg.ISL_PSTAT Fld.ISL_PSTAT_ARMED = true) ∧ ((1 : Fin 6).val < 5) ∧ (2 < 9) ∧ (stageCheck 2 = (1 : Fin 6).val) ∧ ((wPassive.dev.sc (1 : Sec)).ast.pasRun.getLsbD 2 = true)) ∧
    ((wIsl.reach (1 : Sec)) ∧ (wIsl.dev.islOn = true)) ∧
    ((wIsl.awake) ∧ (wIsl.dev.islOn = true) ∧ (wIsl.dev.islDue = false) ∧ (wIsl.dev.islTimed = false) ∧ (62 = wIsl.dev.islFld Reg.ISL_CHIP Fld.ISL_CHIP_K)) ∧
    ((wIslBusy.awake) ∧ (wIslBusy.dev.islOn = true) ∧ (wIslBusy.dev.islDue = false) ∧ (wIslBusy.dev.islTimed = false) ∧ (62 = wIslBusy.dev.islFld Reg.ISL_CHIP Fld.ISL_CHIP_K)) ∧
    ((wIslTimed.awake) ∧ (wIslTimed.dev.islOn = true) ∧ (wIslTimed.dev.islDue = false) ∧ (wIslTimed.dev.islTimed = true) ∧ (5 = wIslTimed.dev.islNow wIslTimed.dev.isl.base) ∧ (wIslTimed.dev.isl.n < 5)) ∧
    ((wIslAligned.awake) ∧ (wIslAligned.dev.islOn = true) ∧ (wIslAligned.dev.islDue = true)) ∧
    ((wIslEarly.awake) ∧ (wIslEarly.dev.islOn = true) ∧ (wIslEarly.dev.islDue = false) ∧ (wIslEarly.dev.islTimed = true) ∧ (wIslEarly.dev.islNow wIslEarly.dev.isl.base ≤ wIslEarly.dev.isl.n)) := by
  refine ⟨?_, ?_, ?_, ?_, ?_, ?_, ?_, ?_, ?_, ?_, ?_, ?_⟩ <;> decide

/-- Witness of MeteringPointsTotalsAndPulses. -/
theorem wit_metering_points_totals_and_pulses :
    (((wStart 16).awake) ∧ ((wStart 16).dev.pointOn (3 : Fin 8).val = true) ∧ ((wStart 16).dev.flag (Reg.MP_STAT (3 : Fin 8).val) Fld.MP_STAT_RUN = false)) ∧
    (((wStart 15).awake) ∧ ((wStart 15).dev.pointOn (3 : Fin 8).val = true) ∧ ((wStart 15).dev.flag (Reg.MP_STAT (3 : Fin 8).val) Fld.MP_STAT_RUN = false)) ∧
    (((wCyc 0).awake) ∧ ((wCyc 0).dev.pointRun (3 : Fin 8).val = true) ∧ (cycDev 0 = (wCyc 0).dev.pointNow (3 : Fin 8).val) ∧ (((cycDev 0).point (3 : Fin 8).val).done = [cyc0]) ∧ ((cycDev 0).cycleReady ((3 : Fin 8).val) cyc0 = true) ∧ (cycEs 0 = (cycDev 0).cycleUnits ((3 : Fin 8).val) cyc0)) ∧
    (((wCyc 1).awake) ∧ ((wCyc 1).dev.pointRun (3 : Fin 8).val = true) ∧ (cycDev 1 = (wCyc 1).dev.pointNow (3 : Fin 8).val) ∧ (((cycDev 1).point (3 : Fin 8).val).done = [cyc0]) ∧ ((cycDev 1).cycleReady ((3 : Fin 8).val) cyc0 = true) ∧ (cycEs 1 = (cycDev 1).cycleUnits ((3 : Fin 8).val) cyc0)) ∧
    (((wBlock 50).awake) ∧ ((wBlock 50).dev.pointOn (3 : Fin 8).val = true) ∧ (((wBlock 50).dev.point 3).win = ((wBlock 50).dev.point (3 : Fin 8).val).win) ∧ (((wBlock 50).dev.point 3).win.on = true) ∧ (((wBlock 50).dev.point 3).win.next.length = 7) ∧ (((wBlock 50).dev.point 3).win.blks.length = 7)) ∧
    ((wFreeing.awake) ∧ (wFreeing.dev.pointRun (3 : Fin 8).val = true) ∧ (wFreeing.dev.flag (Reg.MP_STAT (3 : Fin 8).val) Fld.MP_STAT_FREE = false) ∧ (wFreeing.dev.sourceFor (3 : Fin 8).val = none)) ∧
    ((wTot.ready) ∧ (qselIndex (BitVec.toNat (2 : W) % 128) = some 2)) ∧
    (wTot.ready) ∧
    ((wHarm.ready) ∧ ((wHarm.dev.point (BitVec.toNat (3 : W) % 8)).hseq < 65536)) ∧
    ((wTot.ready) ∧ ((wTot.dev.point (BitVec.toNat (3 : W) % 8)).hseq < 65536)) ∧
    (wHarm.awake) ∧
    ((wTot.ready) ∧ (keyIs (1849360385 : W) 28219 = true) ∧ (wbit (1849360385 : W) 0 = true) ∧ (wbit (1849360385 : W) 1 = false)) ∧
    ((wTotField.ready) ∧ (keyIs (1849360385 : W) 28219 = true) ∧ (wbit (1849360385 : W) 0 = true) ∧ (wbit (1849360385 : W) 1 = false)) ∧
    ((wTot.ready) ∧ (keyIs (1849360386 : W) 28219 = true) ∧ (wbit (1849360386 : W) 0 = false) ∧ (wbit (1849360386 : W) 1 = true)) ∧
    ((wTot.awake) ∧ (wTot.dev.fld Reg.MET_STAT Fld.MET_STAT_RESTORE ≠ 3)) ∧
    (((wPls false).awake) ∧ ((wPls false).dev.flag (Reg.PLS_CFG (5 : Fin 8).val) Fld.PLS_CFG_EN = true) ∧ ((Tbl.get pulseReset (wPls false).dev.pulses (5 : Fin 8).val).on = false) ∧ ((wPls false).dev.fld (Reg.PLS_STAT (5 : Fin 8).val) Fld.PLS_STAT_PENDING ≠ 0)) ∧
    ((wPls true).awake) := by
  refine ⟨?_, ?_, ?_, ?_, ?_, ?_, ?_, ?_, ?_, ?_, ?_, ?_, ?_, ?_, ?_, ?_, ?_⟩ <;>
    first | decide | exact ⟨by decide, by decide, rfl, by decide, by decide, rfl⟩

/-- Witness of FaultEventsAndInjections. -/
theorem wit_fault_events_and_injections :
    (((wSrc (0 : W)).awake) ∧ ((5 : Fin 576).val < 64) ∧ (((wSrc (0 : W)).dev.fc.pair (5 : Fin 576).val).drive = true) ∧ (((wSrc (0 : W)).dev.fc.pair (5 : Fin 576).val).level = false) ∧ (((wSrc (0 : W)).dev.fc.pair (5 : Fin 576).val).broken = false) ∧ ((wSrc (0 : W)).dev.fcIO.nextSev (5 : Fin 576).val = 0)) ∧
    (((wSrc (1 : W)).awake) ∧ ((5 : Fin 576).val < 64) ∧ (((wSrc (1 : W)).dev.fc.pair (5 : Fin 576).val).drive = true) ∧ (((wSrc (1 : W)).dev.fc.pair (5 : Fin 576).val).level = false) ∧ (((wSrc (1 : W)).dev.fc.pair (5 : Fin 576).val).broken = false) ∧ ((wSrc (1 : W)).dev.fcIO.nextSev (5 : Fin 576).val = 1)) ∧
    (((wSrc (2 : W)).awake) ∧ ((5 : Fin 576).val < 64) ∧ (((wSrc (2 : W)).dev.fc.pair (5 : Fin 576).val).drive = true) ∧ (((wSrc (2 : W)).dev.fc.pair (5 : Fin 576).val).level = false) ∧ (((wSrc (2 : W)).dev.fc.pair (5 : Fin 576).val).broken = false) ∧ ((wSrc (2 : W)).dev.fcIO.nextSev (5 : Fin 576).val = 2)) ∧
    (((wSrc (91 : W)).awake) ∧ ((5 : Fin 576).val < 64) ∧ (((wSrc (91 : W)).dev.fc.pair (5 : Fin 576).val).drive = true) ∧ (((wSrc (91 : W)).dev.fc.pair (5 : Fin 576).val).level = false) ∧ (((wSrc (91 : W)).dev.fc.pair (5 : Fin 576).val).broken = false) ∧ ((wSrc (91 : W)).dev.fcIO.nextSev (5 : Fin 576).val = 3)) ∧
    (((wSrcHeld (3 : W)).awake) ∧ ((10 : Fin 576).val < 64) ∧ (((wSrcHeld (3 : W)).dev.fc.pair (10 : Fin 576).val).drive = true) ∧ (((wSrcHeld (3 : W)).dev.fc.pair (10 : Fin 576).val).level = false) ∧ (((wSrcHeld (3 : W)).dev.fc.pair (10 : Fin 576).val).broken = false) ∧ ((wSrcHeld (3 : W)).dev.fcIO.nextSev (10 : Fin 576).val = 3)) ∧
    (((wSrcHeld (4 : W)).awake) ∧ ((10 : Fin 576).val < 64) ∧ (((wSrcHeld (4 : W)).dev.fc.pair (10 : Fin 576).val).drive = true) ∧ (((wSrcHeld (4 : W)).dev.fc.pair (10 : Fin 576).val).level = false) ∧ (((wSrcHeld (4 : W)).dev.fc.pair (10 : Fin 576).val).broken = false) ∧ ((wSrcHeld (4 : W)).dev.fcIO.nextSev (10 : Fin 576).val = 4)) ∧
    (((wSrcHeld (5 : W)).awake) ∧ ((10 : Fin 576).val < 64) ∧ (((wSrcHeld (5 : W)).dev.fc.pair (10 : Fin 576).val).drive = true) ∧ (((wSrcHeld (5 : W)).dev.fc.pair (10 : Fin 576).val).level = false) ∧ (((wSrcHeld (5 : W)).dev.fc.pair (10 : Fin 576).val).broken = false) ∧ ((wSrcHeld (5 : W)).dev.fcIO.nextSev (10 : Fin 576).val = 5)) ∧
    (((wSrcHeld (6 : W)).awake) ∧ ((10 : Fin 576).val < 64) ∧ (((wSrcHeld (6 : W)).dev.fc.pair (10 : Fin 576).val).drive = true) ∧ (((wSrcHeld (6 : W)).dev.fc.pair (10 : Fin 576).val).level = false) ∧ (((wSrcHeld (6 : W)).dev.fc.pair (10 : Fin 576).val).broken = false) ∧ ((wSrcHeld (6 : W)).dev.fcIO.nextSev (10 : Fin 576).val = 6)) ∧
    (((wSecSrc (0 : W)).up (1 : Sec)) ∧ (20 < 128) ∧ ((212 : Fin 576).val = 64 + 128 * (1 : Sec).val + 20) ∧ ((((wSecSrc (0 : W)).dev.sc (1 : Sec)).fc.pair 20).drive = true) ∧ ((((wSecSrc (0 : W)).dev.sc (1 : Sec)).fc.pair 20).level = false) ∧ ((((wSecSrc (0 : W)).dev.sc (1 : Sec)).fc.pair 20).broken = false) ∧ ((((wSecSrc (0 : W)).dev.sc (1 : Sec)).fcIO (1 : Sec)).nextSev 20 = 0)) ∧
    (((wSecSrc (3 : W)).up (1 : Sec)) ∧ (20 < 128) ∧ ((212 : Fin 576).val = 64 + 128 * (1 : Sec).val + 20) ∧ ((((wSecSrc (3 : W)).dev.sc (1 : Sec)).fc.pair 20).drive = true) ∧ ((((wSecSrc (3 : W)).dev.sc (1 : Sec)).fc.pair 20).level = false) ∧ ((((wSecSrc (3 : W)).dev.sc (1 : Sec)).fc.pair 20).broken = false) ∧ ((((wSecSrc (3 : W)).dev.sc (1 : Sec)).fcIO (1 : Sec)).nextSev 20 = 3)) ∧
    (((wSticky (1 : W)).up (1 : Sec)) ∧ (20 < 128) ∧ ((212 : Fin 576).val = 64 + 128 * (1 : Sec).val + 20) ∧ ((((wSticky (1 : W)).dev.sc (1 : Sec)).fc.pair 20).drive = true) ∧ ((((wSticky (1 : W)).dev.sc (1 : Sec)).fc.pair 20).level = false) ∧ ((((wSticky (1 : W)).dev.sc (1 : Sec)).fc.pair 20).broken = false) ∧ ((((wSticky (1 : W)).dev.sc (1 : Sec)).fcIO (1 : Sec)).nextSev 20 = 1)) ∧
    (((wSecSrc (4 : W)).up (1 : Sec)) ∧ (20 < 128) ∧ ((212 : Fin 576).val = 64 + 128 * (1 : Sec).val + 20) ∧ ((((wSecSrc (4 : W)).dev.sc (1 : Sec)).fc.pair 20).drive = true) ∧ ((((wSecSrc (4 : W)).dev.sc (1 : Sec)).fc.pair 20).level = false) ∧ ((((wSecSrc (4 : W)).dev.sc (1 : Sec)).fc.pair 20).broken = false) ∧ ((((wSecSrc (4 : W)).dev.sc (1 : Sec)).fcIO (1 : Sec)).nextSev 20 = 4)) ∧
    (((wSecSrc (5 : W)).up (1 : Sec)) ∧ (20 < 128) ∧ ((212 : Fin 576).val = 64 + 128 * (1 : Sec).val + 20) ∧ ((((wSecSrc (5 : W)).dev.sc (1 : Sec)).fc.pair 20).drive = true) ∧ ((((wSecSrc (5 : W)).dev.sc (1 : Sec)).fc.pair 20).level = false) ∧ ((((wSecSrc (5 : W)).dev.sc (1 : Sec)).fc.pair 20).broken = false) ∧ ((((wSecSrc (5 : W)).dev.sc (1 : Sec)).fcIO (1 : Sec)).nextSev 20 = 5)) ∧
    (((wSecSrc (6 : W)).up (1 : Sec)) ∧ (20 < 128) ∧ ((212 : Fin 576).val = 64 + 128 * (1 : Sec).val + 20) ∧ ((((wSecSrc (6 : W)).dev.sc (1 : Sec)).fc.pair 20).drive = true) ∧ ((((wSecSrc (6 : W)).dev.sc (1 : Sec)).fc.pair 20).level = false) ∧ ((((wSecSrc (6 : W)).dev.sc (1 : Sec)).fc.pair 20).broken = false) ∧ ((((wSecSrc (6 : W)).dev.sc (1 : Sec)).fcIO (1 : Sec)).nextSev 20 = 6)) ∧
    ((wEsc.awake) ∧ (wEsc.dev.fcUp (7 : Fin 576).val = true) ∧ (fbit Fld.FC_ESC_OPEN ((wEsc.dev.ioOf (7 : Fin 576).val).rd (1024 + 4 * locOf (7 : Fin 576).val)) = true)) ∧
    ((wEsc.awake) ∧ (wEsc.dev.fcUp (212 : Fin 576).val = true) ∧ (fbit Fld.FC_ESC_OPEN ((wEsc.dev.ioOf (212 : Fin 576).val).rd (1024 + 4 * locOf (212 : Fin 576).val)) = true)) ∧
    ((wLevel.awake) ∧ (wLevel.dev.fcUp (7 : Fin 576).val = true) ∧ (((wLevel.dev.ioOf (7 : Fin 576).val).fc.pair (locOf (7 : Fin 576).val)).broken = false) ∧ (((wLevel.dev.ioOf (7 : Fin 576).val).fc.pair (locOf (7 : Fin 576).val)).level = true)) ∧
    ((wLevel.awake) ∧ (wLevel.dev.fcUp (212 : Fin 576).val = true) ∧ (((wLevel.dev.ioOf (212 : Fin 576).val).fc.pair (locOf (212 : Fin 576).val)).broken = false) ∧ (((wLevel.dev.ioOf (212 : Fin 576).val).fc.pair (locOf (212 : Fin 576).val)).level = true)) ∧
    ((wEsc.awake) ∧ (wEsc.dev.fcUp (6 : Fin 576).val = true) ∧ (((wEsc.dev.ioOf (6 : Fin 576).val).fc.pair (locOf (6 : Fin 576).val)).broken = false) ∧ (((wEsc.dev.ioOf (6 : Fin 576).val).fc.pair (locOf (6 : Fin 576).val)).level = false)) ∧
    ((wEsc.awake) ∧ (wEsc.dev.fcUp (212 : Fin 576).val = true) ∧ (((wEsc.dev.ioOf (212 : Fin 576).val).fc.pair (locOf (212 : Fin 576).val)).broken = false) ∧ (((wEsc.dev.ioOf (212 : Fin 576).val).fc.pair (locOf (212 : Fin 576).val)).level = false)) ∧
    ((wBroken.awake) ∧ (wBroken.dev.fcUp (7 : Fin 576).val = true) ∧ (((wBroken.dev.ioOf (7 : Fin 576).val).fc.pair (locOf (7 : Fin 576).val)).broken = true)) ∧
    ((wBroken.awake) ∧ (wBroken.dev.fcUp (212 : Fin 576).val = true) ∧ (((wBroken.dev.ioOf (212 : Fin 576).val).fc.pair (locOf (212 : Fin 576).val)).broken = true)) ∧
    (wLog.ready) ∧
    (wLog.reach (1 : Sec)) ∧
    ((wLog.awake) ∧ (wLog.dev.inj.pend = [])) ∧
    ((wLog.up (1 : Sec)) ∧ (wLog.dev.inj.pend = [])) ∧
    (((wFire 7).ready) ∧ (keyIs (3016032257 : W) 46021 = true) ∧ (wbit (3016032257 : W) 0 = true) ∧ (wbit (3016032257 : W) 1 = false) ∧ ((wFire 7).dev.injOk (wFire 7).nv.fuses.lcs = true) ∧ ((wFire 7).dev.inj.act = none) ∧ (injKind ((wFire 7).dev.rd Reg.INJ_CFG) = 0) ∧ (injTarget ((wFire 7).dev.rd Reg.INJ_CFG) = 7) ∧ (7 < 576) ∧ (((wFire 7).dev.pairOf 7).drive = false)) ∧
    (((wFire 212).ready) ∧ (keyIs (3016032257 : W) 46021 = true) ∧ (wbit (3016032257 : W) 0 = true) ∧ (wbit (3016032257 : W) 1 = false) ∧ ((wFire 212).dev.injOk (wFire 212).nv.fuses.lcs = true) ∧ ((wFire 212).dev.inj.act = none) ∧ (injKind ((wFire 212).dev.rd Reg.INJ_CFG) = 0) ∧ (injTarget ((wFire 212).dev.rd Reg.INJ_CFG) = 212) ∧ (212 < 576) ∧ (((wFire 212).dev.pairOf 212).drive = false)) ∧
    ((wFireField.ready) ∧ (keyIs (3016032257 : W) 46021 = true) ∧ (wbit (3016032257 : W) 0 = true) ∧ (wbit (3016032257 : W) 1 = false) ∧ (wFireField.dev.injOk wFireField.nv.fuses.lcs = false ∨ wFireField.dev.inj.act.isSome = true ∨ injValid (wFireField.dev.rd Reg.INJ_CFG) = false)) ∧
    (((wHolding 7).ready) ∧ (keyIs (3016032257 : W) 46021 = true) ∧ (wbit (3016032257 : W) 0 = true) ∧ (wbit (3016032257 : W) 1 = false) ∧ ((wHolding 7).dev.injOk (wHolding 7).nv.fuses.lcs = false ∨ (wHolding 7).dev.inj.act.isSome = true ∨ injValid ((wHolding 7).dev.rd Reg.INJ_CFG) = false)) ∧
    (((wHolding 7).ready) ∧ (keyIs (3016032258 : W) 46021 = true) ∧ (wbit (3016032258 : W) 0 = false) ∧ (wbit (3016032258 : W) 1 = true) ∧ ((wHolding 7).dev.inj.act = some (natW (7 * 65536))) ∧ ((wHolding 7).dev.inj.noEff = false) ∧ (injKind (natW (7 * 65536)) = 0) ∧ (((wHolding 7).dev.pairOf (injTarget (natW (7 * 65536)))).inj = true)) ∧
    (((wHolding 212).awake) ∧ ((wHolding 212).dev.inj.act = some (natW (212 * 65536))) ∧ ((wHolding 212).dev.inj.noEff = false) ∧ (injKind (natW (212 * 65536)) = 0) ∧ (((wHolding 212).dev.pairOf (injTarget (natW (212 * 65536)))).inj = true)) := by
  refine ⟨?_, ?_, ?_, ?_, ?_, ?_, ?_, ?_, ?_, ?_, ?_, ?_, ?_, ?_, ?_, ?_, ?_, ?_, ?_, ?_, ?_, ?_, ?_, ?_, ?_, ?_, ?_, ?_, ?_, ?_, ?_, ?_⟩ <;> decide

/-- Witness of SafetyInputsSealAndTrips. -/
theorem wit_safety_inputs_seal_and_trips :
    ((wInit.awake) ∧ (wInit.dev.safeSt = 0)) ∧
    ((wSfReady.awake) ∧ (wSfReady.dev.inj.act = none) ∧ ((7 : Fin 8).val = 7 ∨ wSfReady.dev.safeSt = 0 ∨ wSfReady.dev.safeEnabled (if (7 : Fin 8).val < 6 then (7 : Fin 8).val / 2 else 3) = false ∨ wSfReady.dev.inputOk (if (7 : Fin 8).val < 6 then (7 : Fin 8).val / 2 else 3) = false ∨ wSfReady.dev.safeLevel (7 : Fin 8).val = true)) ∧
    ((wInit.awake) ∧ (wInit.dev.inj.act = none) ∧ ((0 : Fin 8).val = 7 ∨ wInit.dev.safeSt = 0 ∨ wInit.dev.safeEnabled (if (0 : Fin 8).val < 6 then (0 : Fin 8).val / 2 else 3) = false ∨ wInit.dev.inputOk (if (0 : Fin 8).val < 6 then (0 : Fin 8).val / 2 else 3) = false ∨ wInit.dev.safeLevel (0 : Fin 8).val = false)) ∧
    ((wSfReady.awake) ∧ (wSfReady.dev.inj.act = none) ∧ ((3 : Fin 8).val = 7 ∨ wSfReady.dev.safeSt = 0 ∨ wSfReady.dev.safeEnabled (if (3 : Fin 8).val < 6 then (3 : Fin 8).val / 2 else 3) = false ∨ wSfReady.dev.inputOk (if (3 : Fin 8).val < 6 then (3 : Fin 8).val / 2 else 3) = false ∨ wSfReady.dev.safeLevel (3 : Fin 8).val = false)) ∧
    ((wSfReady.awake) ∧ (wSfReady.dev.inj.act = none) ∧ ((0 : Fin 8).val < 7) ∧ (0 = if (0 : Fin 8).val < 6 then (0 : Fin 8).val / 2 else 3) ∧ (wSfReady.dev.safeSt ≠ 0) ∧ (wSfReady.dev.safeEnabled 0 = true) ∧ (wSfReady.dev.inputOk 0 = true) ∧ (wSfReady.dev.safeLevel (0 : Fin 8).val ≠ false)) ∧
    ((wSfReady.awake) ∧ (wSfReady.dev.inj.act = none) ∧ ((3 : Fin 8).val < 7) ∧ (1 = if (3 : Fin 8).val < 6 then (3 : Fin 8).val / 2 else 3) ∧ (wSfReady.dev.safeSt ≠ 0) ∧ (wSfReady.dev.safeEnabled 1 = true) ∧ (wSfReady.dev.inputOk 1 = true) ∧ (wSfReady.dev.safeLevel (3 : Fin 8).val ≠ true)) ∧
    ((wSfReady.awake) ∧ (wSfReady.dev.inj.act = none) ∧ ((6 : Fin 8).val < 7) ∧ (3 = if (6 : Fin 8).val < 6 then (6 : Fin 8).val / 2 else 3) ∧ (wSfReady.dev.safeSt ≠ 0) ∧ (wSfReady.dev.safeEnabled 3 = true) ∧ (wSfReady.dev.inputOk 3 = true) ∧ (wSfReady.dev.safeLevel (6 : Fin 8).val ≠ false)) ∧
    ((wSfTripped.awake) ∧ (wSfTripped.dev.inj.act = none) ∧ ((5 : Fin 8).val < 7) ∧ (2 = if (5 : Fin 8).val < 6 then (5 : Fin 8).val / 2 else 3) ∧ (wSfTripped.dev.safeSt ≠ 0) ∧ (wSfTripped.dev.safeEnabled 2 = true) ∧ (wSfTripped.dev.inputOk 2 = true) ∧ (wSfTripped.dev.safeLevel (5 : Fin 8).val ≠ true)) ∧
    ((wSfRamp.awake) ∧ (wSfRamp.dev.inj.act = none) ∧ ((1 : Fin 8).val < 7) ∧ (0 = if (1 : Fin 8).val < 6 then (1 : Fin 8).val / 2 else 3) ∧ (wSfRamp.dev.safeSt ≠ 0) ∧ (wSfRamp.dev.safeEnabled 0 = true) ∧ (wSfRamp.dev.inputOk 0 = true) ∧ (wSfRamp.dev.safeLevel (1 : Fin 8).val ≠ true)) ∧
    ((wSfRamp.awake) ∧ (wSfRamp.dev.inj.act = none) ∧ ((5 : Fin 8).val < 7) ∧ (2 = if (5 : Fin 8).val < 6 then (5 : Fin 8).val / 2 else 3) ∧ (wSfRamp.dev.safeSt ≠ 0) ∧ (wSfRamp.dev.safeEnabled 2 = true) ∧ (wSfRamp.dev.inputOk 2 = true) ∧ (wSfRamp.dev.safeLevel (5 : Fin 8).val ≠ true)) ∧
    ((wSfRamp.awake) ∧ (wSfRamp.dev.safeSt = 3)) ∧
    ((wDisc.awake) ∧ ((wDisc.dev.fld Reg.SAFE_IN Fld.SAFE_IN_DISC).testBit (1 : Fin 3).val = true)) ∧
    ((wSealed.awake) ∧ (wSealed.dev.safeSt ≠ 0) ∧ (BitVec.toNat 14#8 ≠ wSealed.dev.fld Reg.SAFE_SEAL Fld.SAFE_SEAL_ADOPTED ∨ sealOk 14#8 = false) ∧ (wSealed.dev.safeSt ≠ 4 ∨ wSealed.dev.sealBroken = false)) ∧
    ((wSealed.awake) ∧ (wSealed.dev.safeSt ≠ 0) ∧ (BitVec.toNat 15#8 ≠ wSealed.dev.fld Reg.SAFE_SEAL Fld.SAFE_SEAL_ADOPTED ∨ sealOk 15#8 = false) ∧ (wSealed.dev.safeSt ≠ 4 ∨ wSealed.dev.sealBroken = false)) ∧
    ((wSealed.awake) ∧ (BitVec.toNat 7#8 = wSealed.dev.fld Reg.SAFE_SEAL Fld.SAFE_SEAL_ADOPTED ∧ sealOk 7#8 = true ∨ wSealed.dev.safeSt = 0 ∨ wSealed.dev.safeSt = 4 ∧ wSealed.dev.sealBroken = true)) ∧
    ((wSealLocked.awake) ∧ (BitVec.toNat 14#8 = wSealLocked.dev.fld Reg.SAFE_SEAL Fld.SAFE_SEAL_ADOPTED ∧ sealOk 14#8 = true ∨ wSealLocked.dev.safeSt = 0 ∨ wSealLocked.dev.safeSt = 4 ∧ wSealLocked.dev.sealBroken = true)) ∧
    ((wSealed.awake) ∧ (wSealed.dev.devState ≠ 5) ∧ (wSealed.dev.devState ≠ 6)) ∧
    ((wSealed.awake) ∧ (wSealed.dev.flag Reg.SAFE_OUT Fld.SAFE_OUT_GATE_EN = false)) := by
  refine ⟨?_, ?_, ?_, ?_, ?_, ?_, ?_, ?_, ?_, ?_, ?_, ?_, ?_, ?_, ?_, ?_, ?_, ?_⟩ <;> decide

/-- Witness of SafetyOutputsAndResets. -/
theorem wit_safety_outputs_and_resets :
    (((wSfStep 1).awake) ∧ ((wSfStep 1).dev.safe.step5 = 1)) ∧
    (((wSfStep 2).awake) ∧ ((wSfStep 2).dev.safe.step5 = 2)) ∧
    ((wSo.awake) ∧ (wSo.dev.safe.offPend = true) ∧ (wSo.dev.safeSt ≠ 2)) ∧
    ((wSo.awake) ∧ (wSo.dev.safeSt ≠ 0)) ∧
    (((wFbk 2).awake) ∧ ((wFbk 2).dev.safeSt ≠ 0)) ∧
    (((wFbk 2).awake) ∧ ((wFbk 2).dev.fbkMode = true)) ∧
    ((wFbkMirror.awake) ∧ (wFbkMirror.dev.fbkMode = false) ∧ (wFbkMirror.dev.safeSt ≠ 0)) ∧
    (((wFbk 1).awake) ∧ ((wFbk 1).dev.fbkMode = true) ∧ ((1 : Fin 4).val < 3) ∧ (((wFbk 1).dev.fld Reg.SAFE_OUT Fld.SAFE_OUT_SO).testBit (1 : Fin 4).val = true)) ∧
    (((wFbk 2).awake) ∧ ((wFbk 2).dev.fbkMode = true) ∧ ((1 : Fin 4).val < 3) ∧ (((wFbk 2).dev.fld Reg.SAFE_OUT Fld.SAFE_OUT_SO).testBit (1 : Fin 4).val = true)) ∧
    ((wFbkMirror.awake) ∧ ((1 : Fin 4).val < 3) ∧ (wFbkMirror.dev.safe.win.getLsbD (1 : Fin 4).val = true) ∧ (wFbkMirror.dev.fbkMode = false) ∧ (wFbkMirror.dev.soClosed.getLsbD (1 : Fin 4).val ≠ (wFbkMirror.dev.fld Reg.SAFE_OUT Fld.SAFE_OUT_SO).testBit (1 : Fin 4).val)) ∧
    ((wWeld.awake) ∧ ((1 : Fin 4).val < 3) ∧ (wWeld.dev.safe.win.getLsbD (1 : Fin 4).val = true) ∧ (wWeld.dev.fbkMode = false) ∧ (wWeld.dev.soClosed.getLsbD (1 : Fin 4).val ≠ (wWeld.dev.fld Reg.SAFE_OUT Fld.SAFE_OUT_SO).testBit (1 : Fin 4).val)) ∧
    ((wFollowed.awake) ∧ ((0 : Fin 4).val < 3) ∧ (wFollowed.dev.safe.win.getLsbD (0 : Fin 4).val = true) ∧ (wFollowed.dev.soClosed.getLsbD (0 : Fin 4).val = (wFollowed.dev.fld Reg.SAFE_OUT Fld.SAFE_OUT_SO).testBit (0 : Fin 4).val) ∧ (wFollowed.dev.safe.weld = false)) ∧
    ((wShunt.awake) ∧ (wShunt.dev.safe.shunt = true)) ∧
    ((wShuntOn.awake) ∧ ((wShuntOn.dev.fld Reg.SAFE_OUT Fld.SAFE_OUT_SO).testBit 3 = true)) ∧
    ((wSfTripped.awake) ∧ (100 ≤ 100) ∧ (100 ≤ 3000) ∧ (wSfTripped.dev.inputsOk = true) ∧ (wSfTripped.dev.fbkMode = true ∨ wSfTripped.dev.soClosed &&& 7#4 = 0#4) ∧ (wSfTripped.dev.fld Reg.SAFE_OUT Fld.SAFE_OUT_SOMON = 0) ∧ (wSfTripped.dev.fld Reg.SAFE_OUT Fld.SAFE_OUT_SO < 8) ∧ (wSfTripped.dev.safeSt = 1 ∨ wSfTripped.dev.safeSt = 4 ∧ wSfTripped.dev.fld Reg.SAFE_SEAL Fld.SAFE_SEAL_LIVE = wSfTripped.dev.fld Reg.SAFE_SEAL Fld.SAFE_SEAL_ADOPTED ∧ sealOk (BitVec.ofNat 8 (wSfTripped.dev.fld Reg.SAFE_SEAL Fld.SAFE_SEAL_LIVE)) = true)) ∧
    ((wSfLocked.awake) ∧ (100 ≤ 3000) ∧ (3000 ≤ 3000) ∧ (wSfLocked.dev.inputsOk = true) ∧ (wSfLocked.dev.fbkMode = true ∨ wSfLocked.dev.soClosed &&& 7#4 = 0#4) ∧ (wSfLocked.dev.fld Reg.SAFE_OUT Fld.SAFE_OUT_SOMON = 0) ∧ (wSfLocked.dev.fld Reg.SAFE_OUT Fld.SAFE_OUT_SO < 8) ∧ (wSfLocked.dev.safeSt = 1 ∨ wSfLocked.dev.safeSt = 4 ∧ wSfLocked.dev.fld Reg.SAFE_SEAL Fld.SAFE_SEAL_LIVE = wSfLocked.dev.fld Reg.SAFE_SEAL Fld.SAFE_SEAL_ADOPTED ∧ sealOk (BitVec.ofNat 8 (wSfLocked.dev.fld Reg.SAFE_SEAL Fld.SAFE_SEAL_LIVE)) = true)) ∧
    ((wSfTripped.awake) ∧ (wSfTripped.dev.safeSt = 1 ∨ wSfTripped.dev.safeSt = 4) ∧ (99 < 100 ∨ 3000 < 99 ∨ wSfTripped.dev.inputsOk = false ∨ wSfTripped.dev.fbkMode = false ∧ wSfTripped.dev.soClosed &&& 7#4 ≠ 0#4 ∨ wSfTripped.dev.fld Reg.SAFE_OUT Fld.SAFE_OUT_SOMON ≠ 0)) ∧
    ((wSfLocked.awake) ∧ (wSfLocked.dev.safeSt = 1 ∨ wSfLocked.dev.safeSt = 4) ∧ (3001 < 100 ∨ 3000 < 3001 ∨ wSfLocked.dev.inputsOk = false ∨ wSfLocked.dev.fbkMode = false ∧ wSfLocked.dev.soClosed &&& 7#4 ≠ 0#4 ∨ wSfLocked.dev.fld Reg.SAFE_OUT Fld.SAFE_OUT_SOMON ≠ 0)) ∧
    (((wAutoReset true).awake) ∧ ((wAutoReset true).dev.safeSt = 1) ∧ ((wAutoReset true).dev.seal 6 = true) ∧ ((wAutoReset true).dev.inputsOk = true) ∧ ((wAutoReset true).dev.safe.since &&& 9#4 = 0#4) ∧ ((wAutoReset true).dev.safe.fresh = true ∨ (wAutoReset true).dev.safe.since ≠ 0#4 ∧ ∀ (n : Nat), n < 4 → (wAutoReset true).dev.safe.since.getLsbD n = true → (wAutoReset true).dev.inputOk n = true)) ∧
    (((wAutoReset false).awake) ∧ ((wAutoReset false).dev.safeSt = 1) ∧ ((wAutoReset false).dev.seal 6 = true) ∧ ((wAutoReset false).dev.inputsOk = true) ∧ ((wAutoReset false).dev.safe.since &&& 9#4 = 0#4) ∧ ((wAutoReset false).dev.safe.fresh = true ∨ (wAutoReset false).dev.safe.since ≠ 0#4 ∧ ∀ (n : Nat), n < 4 → (wAutoReset false).dev.safe.since.getLsbD n = true → (wAutoReset false).dev.inputOk n = true)) := by
  refine ⟨?_, ?_, ?_, ?_, ?_, ?_, ?_, ?_, ?_, ?_, ?_, ?_, ?_, ?_, ?_, ?_, ?_, ?_, ?_, ?_⟩ <;> decide

/-- Witness of TheTimeCounterFollowsItsCommands. -/
theorem wit_the_time_counter_follows_its_commands :
    ((wTimeUnset.ready) ∧ (1072668083 ≤ BitVec.toNat (1073745260 : W)) ∧ (BitVec.toNat (1073745260 : W) ≤ 1074815565)) ∧
    ((wTimeUnset.ready) ∧ (1072668083 ≤ BitVec.toNat (1072668083 : W)) ∧ (BitVec.toNat (1072668083 : W) ≤ 1074815565)) ∧
    ((wTimeUnset.ready) ∧ (BitVec.toNat (1074815566 : W) < 1072668083 ∨ 1074815565 < BitVec.toNat (1074815566 : W))) ∧
    ((wTimeUnset.ready) ∧ (false = true ∨ wTimeUnset.dev.flag Reg.TIME_STAT Fld.TIME_STAT_SET = false ∨ wTimeUnset.dev.adjValue.natAbs ≤ 256 * BitVec.toNat (wTimeUnset.dev.rd Reg.JUMP_MAX))) ∧
    ((wTimeSet.ready) ∧ (true = true ∨ wTimeSet.dev.flag Reg.TIME_STAT Fld.TIME_STAT_SET = false ∨ wTimeSet.dev.adjValue.natAbs ≤ 256 * BitVec.toNat (wTimeSet.dev.rd Reg.JUMP_MAX))) ∧
    ((wTimeBegun.ready) ∧ (true = true ∨ wTimeBegun.dev.flag Reg.TIME_STAT Fld.TIME_STAT_SET = false ∨ wTimeBegun.dev.adjValue.natAbs ≤ 256 * BitVec.toNat (wTimeBegun.dev.rd Reg.JUMP_MAX))) ∧
    ((wTimeSet.ready) ∧ (wTimeSet.dev.flag Reg.TIME_STAT Fld.TIME_STAT_SET = true) ∧ (256 * BitVec.toNat (wTimeSet.dev.rd Reg.JUMP_MAX) < wTimeSet.dev.adjValue.natAbs)) ∧
    ((wTimeSet.ready) ∧ (wTimeSet.dev.flag Reg.TIME_STAT Fld.TIME_STAT_SLEW_BUSY = false) ∧ (wTimeSet.dev.adjValue ≠ (0 : Int)) ∧ (wTimeSet.dev.adjValue.natAbs ≤ 256000000)) ∧
    ((wSlewing.ready) ∧ (wSlewing.dev.flag Reg.TIME_STAT Fld.TIME_STAT_SLEW_BUSY = true ∨ 256000000 < wSlewing.dev.adjValue.natAbs)) ∧
    ((wSlewing.awake) ∧ (wSlewing.dev.flag Reg.TIME_STAT Fld.TIME_STAT_SLEW_BUSY = true) ∧ (wSlewing.dev.timeInv = false) ∧ (wint (wSlewing.dev.rd Reg.TIME_SLEW_REM) = (-5 : Int)) ∧ (2 ^ 20 ≤ wSlewing.dev.incr)) ∧
    (wTimeUnset.ready) ∧
    ((wWrap.awake) ∧ (wWrap.pending = []) ∧ (wWrap.dev.timeInv = false) ∧ (wWrap.dev.rd Reg.TIME_SLEW_REM = (0 : W))) ∧
    ((wHalt.awake) ∧ (wHalt.pending = []) ∧ (wHalt.dev.timeInv = true)) := by
  refine ⟨?_, ?_, ?_, ?_, ?_, ?_, ?_, ?_, ?_, ?_, ?_, ?_, ?_⟩ <;> decide

set_option maxRecDepth 20000 in
/-- Witness of EthernetFramesAndLaunches. -/
theorem wit_ethernet_frames_and_launches :
    ((wRx.awake) ∧ (wRx.dev.ethUp (1 : Port) = true) ∧ (64 ≤ ethGood.length) ∧ (ethGood.length ≤ 1522) ∧ (ethBody = List.take (ethGood.length - 4) ethGood) ∧ (bytesNat (List.drop (ethGood.length - 4) ethGood) = crc32 ethBody) ∧ (¬(beAt ethBody 12 2 = 33024 ∧ beAt ethBody 16 2 = 33024)) ∧ (¬(beAt ethBody (frameType ethBody) 2 = 34824 ∧ beAt ethBody (frameType ethBody + 2) 2 = 1)) ∧ (wRx.dev.ethAccepts (1 : Port) (beAt ethBody 0 6) = true) ∧ (wRx.dev.ptpAt (1 : Port) ethBody = none) ∧ (14 = 8 * (1 : Port).val + 4 + wRx.dev.ethClass (1 : Port) ethBody) ∧ (2 ≤ wRx.dev.qLog 14) ∧ (wRx.dev.qFill 14 ≠ wRx.dev.qLen 14) ∧ (ethBody.length ≤ wRx.dev.qBuf 14)) ∧
    ((wRx.awake) ∧ (wRx.dev.ethUp (1 : Port) = true) ∧ (ethBad.length < 64 ∨ 1522 < ethBad.length ∨ bytesNat (List.drop (ethBad.length - 4) ethBad) ≠ crc32 (List.take (ethBad.length - 4) ethBad))) ∧
    ((wRx.awake) ∧ (wRx.dev.ethUp (1 : Port) = true) ∧ (ethBody.length < 64 ∨ 1522 < ethBody.length ∨ bytesNat (List.drop (ethBody.length - 4) ethBody) ≠ crc32 (List.take (ethBody.length - 4) ethBody))) ∧
    ((wUntimed.awake) ∧ (wUntimed.dev.ethUp (1 : Port) = true) ∧ (8 * (1 : Port).val ≤ 9) ∧ (9 < 8 * (1 : Port).val + 4) ∧ (∀ (j : Nat), j < 9 → 8 * (1 : Port).val ≤ j → wUntimed.dev.ethHead (1 : Port) j = none) ∧ (wUntimed.dev.ethHead (1 : Port) 9 = some 0) ∧ (wUntimed.dev.ethTimed 9 0 = false) ∧ (wUntimed.dev.ethLenOk 9 0 = true) ∧ (wbit (wUntimed.dev.qWord 9 0 0) 27 = false) ∧ ((wUntimed.dev.eth.get (1 : Port)).slots = []) ∧ ((wUntimed.dev.eth.get (1 : Port)).busy ≤ wUntimed.dev.up)) ∧
    ((wTimed.awake) ∧ (wTimed.dev.ethOn (1 : Port) = true) ∧ (8 * (1 : Port).val ≤ 9) ∧ (9 < 8 * (1 : Port).val + 4) ∧ (∀ (j : Nat), j < 9 → 8 * (1 : Port).val ≤ j → wTimed.dev.ethHead (1 : Port) j = none) ∧ (wTimed.dev.ethHead (1 : Port) 9 = some 0) ∧ (wTimed.dev.ethTimed 9 0 = true) ∧ (wTimed.dev.ethLenOk 9 0 = true) ∧ (wTimed.dev.launchLost (wTimed.dev.qWord 9 0 1) = false) ∧ (1 < 16) ∧ (∀ (e : LaunchSlot), e ∈ (wTimed.dev.eth.get (1 : Port)).slots → e.slot ≠ 1) ∧ (∀ (j : Nat), j < 1 → ∃ e, e ∈ (wTimed.dev.eth.get (1 : Port)).slots ∧ e.slot = j)) ∧
    (((wSlotAt 1).awake) ∧ ((wSlotAt 1).dev.timeInv = false) ∧ ((wSlotAt 1).dev.ethUp (1 : Port) = true) ∧ (((wSlotAt 1).dev.eth.get (1 : Port)).slots = [slot3]) ∧ (slot3.slot = (3 : Fin 16).val) ∧ (wbit ((wSlotAt 1).dev.qWord slot3.queue slot3.ring 0) 27 = false) ∧ (BitVec.toNat (slot3.l - (wSlotAt 1).dev.stamp) < 2000) ∧ (((wSlotAt 1).dev.eth.get (1 : Port)).busy ≤ (wSlotAt 1).dev.up)) ∧
    (((wSlotAt 2).awake) ∧ (((wSlotAt 2).dev.eth.get (1 : Port)).slots = [slot3]) ∧ (slot3.slot = (3 : Fin 16).val) ∧ (slot3.queue = 8 * (1 : Port).val + (1 : Fin 4).val) ∧ ((wSlotAt 2).dev.launchPast slot3.l = true)) ∧
    ((wTimedLate.awake) ∧ (wTimedLate.dev.ethOn (1 : Port) = true) ∧ (8 * (1 : Port).val ≤ 9) ∧ (9 < 8 * (1 : Port).val + 4) ∧ (∀ (j : Nat), j < 9 → 8 * (1 : Port).val ≤ j → wTimedLate.dev.ethHead (1 : Port) j = none) ∧ (wTimedLate.dev.ethHead (1 : Port) 9 = some 0) ∧ (wTimedLate.dev.ethTimed 9 0 = true) ∧ (wTimedLate.dev.ethLenOk 9 0 = true) ∧ (wTimedLate.dev.launchLost (wTimedLate.dev.qWord 9 0 1) = true) ∧ (0 < 16) ∧ (∀ (e : LaunchSlot), e ∈ (wTimedLate.dev.eth.get (1 : Port)).slots → e.slot ≠ 0)) ∧
    ((wRx.awake) ∧ (wRx.dev.flag (Reg.ETH_STAT (1 : Port).val) Fld.ETH_STAT_LINK = true)) ∧
    ((wLinkDown.awake) ∧ (2#2 ≠ 3#2)) ∧
    ((wMasters.awake) ∧ (wMasters.dev.fmUsed (1 : Port).val (1 : Fin 4).val = true)) := by
  refine ⟨?_, ?_, ?_, ?_, ?_, ?_, ?_, ?_, ?_, ?_, ?_⟩ <;> decide

set_option maxRecDepth 20000 in
/-- Witness of FieldLinksCarryTheirFrames. -/
theorem wit_field_links_carry_their_frames :
    ((wCanRx.awake) ∧ (wCanRx.dev.canOn (1 : Fin 2) = true) ∧ (wbit (291 : W) 30 = false ∨ wCanRx.dev.flag (Reg.CAN_CFG (1 : Fin 2).val) Fld.CAN_CFG_FD = true) ∧ (wCanRx.dev.canAccepts (1 : Fin 2).val (291 : W) = true) ∧ (43 = 41 + 2 * (1 : Fin 2).val) ∧ (2 ≤ wCanRx.dev.qLog 43) ∧ (wCanRx.dev.qFill 43 ≠ wCanRx.dev.qLen 43) ∧ ([(1 : Byte), (2 : Byte), (3 : Byte)].length ≤ wCanRx.dev.qBuf 43) ∧ ([(1 : Byte), (2 : Byte), (3 : Byte)].length ≤ 64)) ∧
    ((wCanFilter.awake) ∧ (wCanFilter.dev.canAccepts (1 : Fin 2).val (292 : W) = false ∨ wbit (292 : W) 30 = true ∧ wCanFilter.dev.flag (Reg.CAN_CFG (1 : Fin 2).val) Fld.CAN_CFG_FD = false)) ∧
    ((wCanRx.awake) ∧ (wCanRx.dev.canAccepts (1 : Fin 2).val (1073742116 : W) = false ∨ wbit (1073742116 : W) 30 = true ∧ wCanRx.dev.flag (Reg.CAN_CFG (1 : Fin 2).val) Fld.CAN_CFG_FD = false)) ∧
    ((wCanRx.awake) ∧ (wCanRx.dev.canOn (1 : Fin 2) = true) ∧ (CanRx.error = CanRx.error ∧ 1 = 1 ∨ CanRx.error = CanRx.dominant ∧ 1 = 8)) ∧
    ((wCanErr.awake) ∧ (wCanErr.dev.canOn (1 : Fin 2) = true) ∧ (CanRx.dominant = CanRx.error ∧ 8 = 1 ∨ CanRx.dominant = CanRx.dominant ∧ 8 = 8)) ∧
    ((wCanTx.awake) ∧ (wCanTx.dev.canOn (1 : Fin 2) = true) ∧ (42 = 40 + 2 * (1 : Fin 2).val) ∧ (wCanTx.dev.qHas 42 = true) ∧ (wCanTx.dev.qLenOk 42 = true) ∧ (wCanTx.dev.canEntryOk (1 : Fin 2) = true)) ∧
    ((wCanBad.awake) ∧ (wCanBad.dev.canOn (1 : Fin 2) = true) ∧ (42 = 40 + 2 * (1 : Fin 2).val) ∧ (wCanBad.dev.qHas 42 = true) ∧ (wCanBad.dev.canEntryOk (1 : Fin 2) = false)) ∧
    ((wCanTx.awake) ∧ (wCanTx.dev.canEntryOk (1 : Fin 2) = true)) ∧
    ((wCanTx.awake) ∧ (wCanTx.dev.canOn (1 : Fin 2) = true) ∧ (wCanTx.dev.qHas (40 + 2 * (1 : Fin 2).val) = true) ∧ (wCanTx.dev.canEntryOk (1 : Fin 2) = true)) ∧
    ((wCanTxErr.awake) ∧ (wCanTxErr.dev.canOn (1 : Fin 2) = true) ∧ (wCanTxErr.dev.qHas (40 + 2 * (1 : Fin 2).val) = true) ∧ (wCanTxErr.dev.canEntryOk (1 : Fin 2) = true)) ∧
    ((wCanTx.awake) ∧ (wCanTx.dev.canOn (1 : Fin 2) = true)) ∧
    ((wBusOff.awake) ∧ (wBusOff.dev.flag (Reg.CAN_STAT (1 : Fin 2).val) Fld.CAN_STAT_BUSOFF = true) ∧ (wBusOff.dev.flag (Reg.CAN_CFG (1 : Fin 2).val) Fld.CAN_CFG_AUTO_REC = true)) ∧
    ((wBusOff.ready) ∧ (wBusOff.dev.flag (Reg.CAN_STAT (1 : Fin 2).val) Fld.CAN_STAT_BUSOFF = true)) ∧
    ((wUartTx.awake) ∧ (wUartTx.dev.flag (Reg.UART_CFG (1 : Fin 2).val) Fld.UART_CFG_EN = true) ∧ (wUartTx.dev.flag (Reg.UART_STAT (1 : Fin 2).val) Fld.UART_STAT_LG_BUSY = false) ∧ (46 = 44 + 2 * (1 : Fin 2).val) ∧ (wUartTx.dev.qHas 46 = true) ∧ (wUartTx.dev.qLenOk 46 = true)) ∧
    ((wUartRx.awake) ∧ (wUartRx.dev.flag (Reg.UART_CFG (1 : Fin 2).val) Fld.UART_CFG_EN = true) ∧ ([((65 : Byte), false, true), ((66 : Byte), false, false)] ≠ []) ∧ (47 = 45 + 2 * (1 : Fin 2).val) ∧ (2 ≤ wUartRx.dev.qLog 47) ∧ ([((65 : Byte), false, true), ((66 : Byte), false, false)] = List.map (fun c => (c.fst, decide (wUartRx.dev.fld (Reg.UART_CFG (1 : Fin 2).val) Fld.UART_CFG_PARITY ≠ 0) && c.snd.fst, c.snd.snd)) [((65 : Byte), false, true), ((66 : Byte), false, false)]) ∧ (128 = max 1 (wUartRx.dev.qBuf 47)) ∧ (1 = ([((65 : Byte), false, true), ((66 : Byte), false, false)].length + 128 - 1) / 128) ∧ (wUartRx.dev.qFill 47 + 1 ≤ wUartRx.dev.qLen 47) ∧ (1 ≤ wUartRx.dev.qBuf 47) ∧ (128 < 65536)) ∧
    ((wUartRx.awake) ∧ (wUartRx.dev.flag (Reg.UART_CFG (1 : Fin 2).val) Fld.UART_CFG_EN = true) ∧ (List.replicate 130 ((65 : Byte), true, false) ≠ []) ∧ (47 = 45 + 2 * (1 : Fin 2).val) ∧ (2 ≤ wUartRx.dev.qLog 47) ∧ (List.replicate 130 ((65 : Byte), false, false) = List.map (fun c => (c.fst, decide (wUartRx.dev.fld (Reg.UART_CFG (1 : Fin 2).val) Fld.UART_CFG_PARITY ≠ 0) && c.snd.fst, c.snd.snd)) (List.replicate 130 ((65 : Byte), true, false))) ∧ (128 = max 1 (wUartRx.dev.qBuf 47)) ∧ (2 = ((List.replicate 130 ((65 : Byte), true, false)).length + 128 - 1) / 128) ∧ (wUartRx.dev.qFill 47 + 2 ≤ wUartRx.dev.qLen 47) ∧ (1 ≤ wUartRx.dev.qBuf 47) ∧ (128 < 65536)) ∧
    ((wI2c.ready) ∧ (wbit (2147615560 : W) 31 = true) ∧ (wI2c.dev.flag (Reg.I2C_STAT (1 : Fin 2).val) Fld.I2C_STAT_BUSY = false) ∧ (bitsN (BitVec.toNat (2147615560 : W)) 11 8 ≤ 8) ∧ (bitsN (BitVec.toNat (2147615560 : W)) 19 16 ≤ 8)) ∧
    ((wI2cBusy.ready) ∧ (wbit (2147615560 : W) 31 = true) ∧ (wI2cBusy.dev.flag (Reg.I2C_STAT (1 : Fin 2).val) Fld.I2C_STAT_BUSY = true)) ∧
    ((wI2cBusy.awake) ∧ ((Tbl.get (fun _ => { : I2cPort }) wI2cBusy.dev.i2c (1 : Fin 2).val).cmd = some ((2147615048 : W), [(1 : Byte)])) ∧ (bitsN (BitVec.toNat (2147615048 : W)) 19 16 ≤ 8) ∧ (bitsN (BitVec.toNat (2147615048 : W)) 19 16 ≤ [(7 : Byte), (8 : Byte)].length)) ∧
    ((wDl.awake) ∧ (wDl.dev.flag (Reg.DL_CFG (5 : Fin 8).val) Fld.DL_CFG_EN = true) ∧ (dlGood.length = 16) ∧ (dlGood.getD 0 (0 : Byte) = (188 : Byte)) ∧ (crc16 (List.take 13 (List.drop 1 dlGood)) = BitVec.toNat (dlGood.getD 14 (0 : Byte)) * 256 + BitVec.toNat (dlGood.getD 15 (0 : Byte)))) ∧
    ((wDlBridge.awake) ∧ (wDlBridge.dev.flag (Reg.DL_CFG (5 : Fin 8).val) Fld.DL_CFG_EN = true) ∧ (dlGood.length = 16) ∧ (dlGood.getD 0 (0 : Byte) = (188 : Byte)) ∧ (crc16 (List.take 13 (List.drop 1 dlGood)) = BitVec.toNat (dlGood.getD 14 (0 : Byte)) * 256 + BitVec.toNat (dlGood.getD 15 (0 : Byte)))) ∧
    ((wDl.awake) ∧ (wDl.dev.flag (Reg.DL_CFG (5 : Fin 8).val) Fld.DL_CFG_EN = true) ∧ (dlBad.length = 16) ∧ (dlBad.getD 0 (0 : Byte) = (188 : Byte)) ∧ (crc16 (List.take 13 (List.drop 1 dlBad)) ≠ BitVec.toNat (dlBad.getD 14 (0 : Byte)) * 256 + BitVec.toNat (dlBad.getD 15 (0 : Byte)))) ∧
    ((wDl.awake) ∧ (wDl.dev.flag (Reg.DL_CFG (5 : Fin 8).val) Fld.DL_CFG_EN = true) ∧ ((wDl.dev.dl1 (5 : Fin 8).val).seq < 16) ∧ ((wDl.dev.dl1 (5 : Fin 8).val).down.length = 12)) ∧
    ((wDlValid.awake) ∧ (wDlValid.dev.flag (Reg.DL_CFG (5 : Fin 8).val) Fld.DL_CFG_EN = true) ∧ ((wDlValid.dev.dl1 (5 : Fin 8).val).lost = false)) ∧
    (wDlValid.ready) := by
  refine ⟨?_, ?_, ?_, ?_, ?_, ?_, ?_, ?_, ?_, ?_, ?_, ?_, ?_, ?_, ?_, ?_, ?_, ?_, ?_, ?_, ?_, ?_, ?_, ?_, ?_⟩ <;> decide

/-- Witness of TheForerunnersPortServesItsFirmware. -/
theorem wit_the_forerunners_port_serves_its_firmware :
    (wCpReady.portLive (1 : Port)) ∧
    (wCpRun.portLive (1 : Port)) ∧
    ((wCpDead.awake) ∧ (wCpDead.dev.portCompat (1 : Port).val = true) ∧ ((wCpDead.dev.cp (1 : Port)).live = false)) ∧
    ((wCpReady.awake) ∧ (wCpReady.dev.portCompat (1 : Port).val = true)) ∧
    ((wCpReady.awake) ∧ (wCpReady.dev.portCompat (2 : Port).val = false)) ∧
    ((wCpReady.portLive (1 : Port)) ∧ (12 = BitVec.toNat 12#7) ∧ (¬12 ∈ [1, 3, 4, 5, 6, 7, 9, 10, 11, 13, 115])) ∧
    ((wCpReady.portLive (1 : Port)) ∧ (127 = BitVec.toNat 127#7) ∧ (¬127 ∈ [1, 3, 4, 5, 6, 7, 9, 10, 11, 13, 115])) ∧
    ((wCpRun.portLive (1 : Port)) ∧ (3 = BitVec.toNat 3#7) ∧ (3 ∈ [3, 7, 9, 10] ∨ 3 = 1 ∧ (BitVec.toNat 4660#16).testBit 4 = false ∧ (BitVec.toNat 4660#16).testBit 0 = (wCpRun.dev.cp (1 : Port)).run ∧ (wCpRun.dev.sc (1 : Port)).calm)) ∧
    ((wCpOvr.portLive (1 : Port)) ∧ (9 = BitVec.toNat 9#7) ∧ (9 ∈ [3, 7, 9, 10] ∨ 9 = 1 ∧ (BitVec.toNat 32789#16).testBit 4 = false ∧ (BitVec.toNat 32789#16).testBit 0 = (wCpOvr.dev.cp (1 : Port)).run ∧ (wCpOvr.dev.sc (1 : Port)).calm)) ∧
    ((wCpRun.portLive (1 : Port)) ∧ (1 = BitVec.toNat 1#7) ∧ (1 ∈ [3, 7, 9, 10] ∨ 1 = 1 ∧ (BitVec.toNat 3#16).testBit 4 = false ∧ (BitVec.toNat 3#16).testBit 0 = (wCpRun.dev.cp (1 : Port)).run ∧ (wCpRun.dev.sc (1 : Port)).calm)) ∧
    ((wCpRun.portLive (1 : Port)) ∧ ((0 : Fin 4).val = (0 : Fin 3).val)) ∧
    ((wCpNow.portLive (1 : Port)) ∧ ((0 : Fin 4).val = (0 : Fin 3).val)) ∧
    ((wCpReady.portLive (1 : Port)) ∧ ((wCpReady.dev.cp (1 : Port)).run = false) ∧ ((wCpReady.dev.sc (1 : Port)).cpTrips = 0) ∧ ((wCpReady.dev.cp (1 : Port)).esdNow (wCpReady.dev.sc (1 : Port)) = false) ∧ ((wCpReady.dev.sc (1 : Port)).calm) ∧ (((wCpReady.dev.sc (1 : Port)).bridges.get (0 : Fin 4)).kind ≠ 0)) ∧
    ((wCpTrip.portLive (1 : Port)) ∧ ((wCpTrip.dev.cp (1 : Port)).run = false) ∧ ((wCpTrip.dev.sc (1 : Port)).cpTrips ≠ 0 ∨ (wCpTrip.dev.cp (1 : Port)).esdNow (wCpTrip.dev.sc (1 : Port)) = true)) ∧
    ((wCpRun.portLive (1 : Port)) ∧ ((wCpRun.dev.cp (1 : Port)).run = true) ∧ ((wCpRun.dev.sc (1 : Port)).calm) ∧ (((wCpRun.dev.sc (1 : Port)).bridges.get (0 : Fin 4)).kind ≠ 0)) ∧
    ((wCpRun.portLive (1 : Port)) ∧ (wCpRun.dev.secSt (1 : Port) ≠ 6)) ∧
    ((wCpStopped.portLive (1 : Port)) ∧ (wCpStopped.dev.secSt (1 : Port) = 6)) ∧
    (wCpTrip.portLive (1 : Port)) ∧
    (wCpErr.portLive (1 : Port)) ∧
    ((wCpWin.awake) ∧ (wCpWin.dev.portCompat (1 : Port).val = true) ∧ ((wCpWin.dev.cp (1 : Port)).win = true)) ∧
    ((wCpReady.awake) ∧ ((wCpReady.dev.cp (1 : Port)).win = false)) := by
  refine ⟨?_, ?_, ?_, ?_, ?_, ?_, ?_, ?_, ?_, ?_, ?_, ?_, ?_, ?_, ?_, ?_, ?_, ?_, ?_, ?_, ?_⟩ <;> decide

/-- Witness of TheAuxiliarySupplyRunsItsStatesAndPhases. -/
theorem wit_the_auxiliary_supply_runs_its_states_and_phases :
    ((wAuxOff.ready) ∧ (wAuxOff.dev.devState ≠ 2)) ∧
    ((wAuxRun.ready) ∧ (wAuxRun.dev.devState ≠ 2)) ∧
    (wAuxLatched.ready) ∧
    (wAuxRun.ready) ∧
    ((wAuxLatched.ready) ∧ (keyIs (1017446401 : W) 15525 = true) ∧ (wbit (1017446401 : W) 0 = true) ∧ (wAuxLatched.dev.auxState = 4)) ∧
    ((wAuxLatchedOff.ready) ∧ (keyIs (1017446401 : W) 15525 = true) ∧ (wbit (1017446401 : W) 0 = true) ∧ (wAuxLatchedOff.dev.auxState = 4)) ∧
    ((wAuxLatched.ready) ∧ (keyIs (1017380865 : W) 15525 = false)) ∧
    ((wAuxSoft.awake) ∧ (wAuxSoft.dev.auxState = 1) ∧ (wAuxSoft.dev.aux.ramp = wAuxSoft.dev.auxGoal) ∧ (wAuxSoft.dev.fld Reg.AUX_VREG Fld.AUX_VREG_VTGT ≤ 4 * wAuxSoft.dev.aux.code)) ∧
    (((wAuxLow 7).awake) ∧ ((wAuxLow 7).dev.auxState = 1) ∧ ((wAuxLow 7).dev.aux.ramp = (wAuxLow 7).dev.auxGoal) ∧ (4 * (wAuxLow 7).dev.aux.code < (wAuxLow 7).dev.fld Reg.AUX_VREG Fld.AUX_VREG_VTGT)) ∧
    (((wAuxLow 8).awake) ∧ ((wAuxLow 8).dev.auxState = 1) ∧ ((wAuxLow 8).dev.aux.ramp = (wAuxLow 8).dev.auxGoal) ∧ (4 * (wAuxLow 8).dev.aux.code < (wAuxLow 8).dev.fld Reg.AUX_VREG Fld.AUX_VREG_VTGT)) ∧
    (((wAuxLim 7).awake) ∧ ((wAuxLim 7).dev.auxState = 1 ∨ (wAuxLim 7).dev.auxState = 2) ∧ (64 ≤ (wAuxLim 7).dev.aux.limited + b2n (wAuxLim 7).dev.aux.lim)) ∧
    (((wAuxLim 8).awake) ∧ ((wAuxLim 8).dev.auxState = 1 ∨ (wAuxLim 8).dev.auxState = 2) ∧ (64 ≤ (wAuxLim 8).dev.aux.limited + b2n (wAuxLim 8).dev.aux.lim)) ∧
    ((wAuxHicc.awake) ∧ (wAuxHicc.dev.auxState = 3)) ∧
    ((wAuxRun.awake) ∧ (wAuxRun.dev.auxState = 2)) ∧
    (wAuxRun.awake) ∧
    ((wAuxSteep.awake) ∧ (wAuxSteep.dev.auxState = 2) ∧ (wAuxSteep.dev.flag Reg.AUX_STAT Fld.AUX_STAT_OV = false) ∧ (wAuxSteep.dev.fld Reg.AUX_PROT Fld.AUX_PROT_UTH ≠ 0) ∧ (wAuxSteep.dev.aux.burst = false) ∧ (2 ≤ wAuxSteep.dev.aux.lows)) ∧
    ((wAuxSoft.awake) ∧ (wAuxSoft.dev.auxState ≠ 2 ∨ wAuxSoft.dev.fld Reg.AUX_PROT Fld.AUX_PROT_UTH = 0 ∨ wAuxSoft.dev.aux.burst = true ∨ wAuxSoft.dev.aux.lows < 2)) ∧
    ((wAuxRun.awake) ∧ (wAuxRun.dev.auxState ≠ 2 ∨ wAuxRun.dev.fld Reg.AUX_PROT Fld.AUX_PROT_UTH = 0 ∨ wAuxRun.dev.aux.burst = true ∨ wAuxRun.dev.aux.lows < 2)) ∧
    ((wAuxUv.awake) ∧ (wAuxUv.dev.auxState = 2) ∧ (wAuxUv.dev.flag Reg.AUX_STAT Fld.AUX_STAT_UV = true)) ∧
    ((wAuxRun.awake) ∧ (wAuxRun.dev.locked 0 = true) ∧ (wAuxRun.dev.auxState = 1 ∨ wAuxRun.dev.auxState = 2) ∧ ((3 : Fin 4).val ≤ wAuxRun.dev.fld Reg.AUX_CFG Fld.AUX_CFG_PHASES) ∧ ((3 : Fin 4) ≠ (0 : Fin 4)) ∧ (wAuxRun.dev.aux.per = true)) ∧
    ((wAuxRun.awake) ∧ (wAuxRun.dev.locked 0 = true) ∧ (wAuxRun.dev.auxState = 1 ∨ wAuxRun.dev.auxState = 2) ∧ ((1 : Fin 4).val ≤ wAuxRun.dev.fld Reg.AUX_CFG Fld.AUX_CFG_PHASES) ∧ ((1 : Fin 4) ≠ (0 : Fin 4)) ∧ (wAuxRun.dev.aux.per = true)) ∧
    ((wAuxOne.awake) ∧ (wAuxOne.dev.locked 0 = true) ∧ (wAuxOne.dev.auxState = 2) ∧ (wAuxOne.dev.fld Reg.AUX_VREG Fld.AUX_VREG_TSS ≠ 0) ∧ (wAuxOne.dev.aux.ramp = wAuxOne.dev.auxGoal) ∧ ((307 : Int) * (65536 : Int) = ↑(wAuxOne.dev.fld Reg.AUX_CUR Fld.AUX_CUR_ILIM) * (65536 : Int)) ∧ (wAuxOne.dev.aux.limited + b2n wAuxOne.dev.aux.lim < 64) ∧ (BitVec.toNat 3400#12 ≤ wAuxOne.dev.fld Reg.AUX_PROT Fld.AUX_PROT_OV_TH) ∧ ((3413 : Int) - (3400 : Int) = ↑(wAuxOne.dev.fld Reg.AUX_VREG Fld.AUX_VREG_VTGT) - ↑(BitVec.toNat 3400#12)) ∧ ((256 : Int) * (13 : Int) = if wAuxOne.dev.aux.icmd < (307 : Int) * (65536 : Int) ∨ (3413 : Int) - (3400 : Int) < (0 : Int) then max (0 : Int) (min ((307 : Int) * (65536 : Int)) (wAuxOne.dev.aux.xi + ↑(wAuxOne.dev.fld Reg.AUX_LOOP Fld.AUX_LOOP_KI) * ((3413 : Int) - (3400 : Int)))) else wAuxOne.dev.aux.xi)) ∧
    ((wAuxRun.awake) ∧ (wAuxRun.dev.locked 0 = true) ∧ (wAuxRun.dev.auxState = 2) ∧ (wAuxRun.dev.fld Reg.AUX_VREG Fld.AUX_VREG_TSS ≠ 0) ∧ (wAuxRun.dev.aux.ramp = wAuxRun.dev.auxGoal) ∧ ((307 : Int) * (65536 : Int) = ↑(wAuxRun.dev.fld Reg.AUX_CUR Fld.AUX_CUR_ILIM) * (65536 : Int)) ∧ (wAuxRun.dev.aux.limited + b2n wAuxRun.dev.aux.lim < 64) ∧ (BitVec.toNat 3500#12 ≤ wAuxRun.dev.fld Reg.AUX_PROT Fld.AUX_PROT_OV_TH) ∧ ((3413 : Int) - (3500 : Int) = ↑(wAuxRun.dev.fld Reg.AUX_VREG Fld.AUX_VREG_VTGT) - ↑(BitVec.toNat 3500#12)) ∧ ((0 : Int) = if wAuxRun.dev.aux.icmd < (307 : Int) * (65536 : Int) ∨ (3413 : Int) - (3500 : Int) < (0 : Int) then max (0 : Int) (min ((307 : Int) * (65536 : Int)) (wAuxRun.dev.aux.xi + ↑(wAuxRun.dev.fld Reg.AUX_LOOP Fld.AUX_LOOP_KI) * ((3413 : Int) - (3500 : Int)))) else wAuxRun.dev.aux.xi)) ∧
    ((wAuxOpen.ready) ∧ (wAuxOpen.dev.auxState ≠ 0) ∧ (wAuxOpen.dev.rwpOpen Reg.AUX_CFG = true) ∧ ((808584167 : W) &&& (822022143 : W) ≠ wAuxOpen.dev.rd Reg.AUX_CFG &&& (822022143 : W))) := by
  refine ⟨?_, ?_, ?_, ?_, ?_, ?_, ?_, ?_, ?_, ?_, ?_, ?_, ?_, ?_, ?_, ?_, ?_, ?_, ?_, ?_, ?_, ?_, ?_, ?_⟩ <;> decide

set_option maxRecDepth 20000 in
/-- Witness of TheKeepDomainMeasuresCommitsAndFails. -/
theorem wit_the_keep_domain_measures_commits_and_fails :
    (true = (decide (3000 < 3100) && if wKeepMain.dev.flag Reg.KEEP_STAT Fld.KEEP_STAT_ON_VBAT = true then decide (1999 ≤ 2200) else decide (1999 < 2000))) ∧
    (false = (decide (3000 < 3100) && if wKeepMain.dev.flag Reg.KEEP_STAT Fld.KEEP_STAT_ON_VBAT = true then decide (2000 ≤ 2200) else decide (2000 < 2000))) ∧
    (true = (decide (3099 < 3100) && if wKeepBat.dev.flag Reg.KEEP_STAT Fld.KEEP_STAT_ON_VBAT = true then decide (2200 ≤ 2200) else decide (2200 < 2000))) ∧
    (false = (decide (3100 < 3100) && if wKeepBat.dev.flag Reg.KEEP_STAT Fld.KEEP_STAT_ON_VBAT = true then decide (2200 ≤ 2200) else decide (2200 < 2000))) ∧
    ((2400 < 65536) ∧ (2199 < 65536) ∧ (1 < 65536) ∧ (2 < 65536)) ∧
    ((3500 < 65536) ∧ (2200 < 65536) ∧ (1 < 65536) ∧ (2 < 65536)) ∧
    (((wBursts 1 [bMet, bLeaf, bGasp]).dev.keep.running = none) ∧ ((wBursts 1 [bMet, bLeaf, bGasp]).dev.keep.waiting = [bMet] ++ [bLeaf, bGasp]) ∧ (∀ (x : Burst), x ∈ [bMet] → bLeaf.rank < x.rank) ∧ (∀ (x : Burst), x ∈ [bGasp] → bLeaf.rank ≤ x.rank) ∧ (1 ≤ bLeaf.kind) ∧ (bLeaf.kind ≤ 5) ∧ (true = (wBursts 1 [bMet, bLeaf, bGasp]).dev.flag Reg.KEEP_STAT Fld.KEEP_STAT_MAIN_OK) ∧ (8160 = if bLeaf.kind = 5 then ((Dev.gaspBytes (wBursts 1 [bMet, bLeaf, bGasp]).nv (wBursts 1 [bMet, bLeaf, bGasp]).dev).length * charBits (wBursts 1 [bMet, bLeaf, bGasp]).dev.keep.pfUart + 2) * (wBursts 1 [bMet, bLeaf, bGasp]).dev.fld Reg.LG_EBIT Fld.LG_EBIT_EBIT else 8000 + 10 * (feObject bLeaf.kind).snd.snd) ∧ (8160 < 2 ^ 24) ∧ (true = true ∨ (wBursts 1 [bMet, bLeaf, bGasp]).dev.fld Reg.KEEP_CFG Fld.KEEP_CFG_CAP ≠ 0 ∧ ↑8160 * ↑((wBursts 1 [bMet, bLeaf, bGasp]).dev.fld Reg.KEEP_CFG Fld.KEEP_CFG_MARGIN) * (2000 : Int) ≤ ↑((wBursts 1 [bMet, bLeaf, bGasp]).dev.fld Reg.KEEP_CFG Fld.KEEP_CFG_CAP) * (↑0 * ↑0 - (3240000 : Int)) * (16 : Int))) ∧
    (((wBursts 0 [bGasp]).dev.keep.running = none) ∧ ((wBursts 0 [bGasp]).dev.keep.waiting = [] ++ [bGasp]) ∧ (∀ (x : Burst), x ∈ [] → bGasp.rank < x.rank) ∧ (∀ (x : Burst), x ∈ [] → bGasp.rank ≤ x.rank) ∧ (1 ≤ bGasp.kind) ∧ (bGasp.kind ≤ 5) ∧ (false = (wBursts 0 [bGasp]).dev.flag Reg.KEEP_STAT Fld.KEEP_STAT_MAIN_OK) ∧ (131104 = if bGasp.kind = 5 then ((Dev.gaspBytes (wBursts 0 [bGasp]).nv (wBursts 0 [bGasp]).dev).length * charBits (wBursts 0 [bGasp]).dev.keep.pfUart + 2) * (wBursts 0 [bGasp]).dev.fld Reg.LG_EBIT Fld.LG_EBIT_EBIT else 8000 + 10 * (feObject bGasp.kind).snd.snd) ∧ (131104 < 2 ^ 24) ∧ (false = true ∨ (wBursts 0 [bGasp]).dev.fld Reg.KEEP_CFG Fld.KEEP_CFG_CAP ≠ 0 ∧ ↑131104 * ↑((wBursts 0 [bGasp]).dev.fld Reg.KEEP_CFG Fld.KEEP_CFG_MARGIN) * (2000 : Int) ≤ ↑((wBursts 0 [bGasp]).dev.fld Reg.KEEP_CFG Fld.KEEP_CFG_CAP) * (↑4960 * ↑4960 - (3240000 : Int)) * (16 : Int))) ∧
    (((wBursts 0 [bGasp]).dev.keep.running = none) ∧ ((wBursts 0 [bGasp]).dev.keep.waiting = [] ++ [bGasp]) ∧ (∀ (x : Burst), x ∈ [] → bGasp.rank < x.rank) ∧ (∀ (x : Burst), x ∈ [] → bGasp.rank ≤ x.rank) ∧ (1 ≤ bGasp.kind) ∧ (bGasp.kind ≤ 5) ∧ ((wBursts 0 [bGasp]).dev.flag Reg.KEEP_STAT Fld.KEEP_STAT_MAIN_OK = false) ∧ (131104 = if bGasp.kind = 5 then ((Dev.gaspBytes (wBursts 0 [bGasp]).nv (wBursts 0 [bGasp]).dev).length * charBits (wBursts 0 [bGasp]).dev.keep.pfUart + 2) * (wBursts 0 [bGasp]).dev.fld Reg.LG_EBIT Fld.LG_EBIT_EBIT else 8000 + 10 * (feObject bGasp.kind).snd.snd) ∧ ((wBursts 0 [bGasp]).dev.fld Reg.KEEP_CFG Fld.KEEP_CFG_CAP = 0 ∨ ↑((wBursts 0 [bGasp]).dev.fld Reg.KEEP_CFG Fld.KEEP_CFG_CAP) * (↑2003 * ↑2003 - (3240000 : Int)) * (16 : Int) < ↑131104 * ↑((wBursts 0 [bGasp]).dev.fld Reg.KEEP_CFG Fld.KEEP_CFG_MARGIN) * (2000 : Int))) ∧
    (((wBursts 0 [{ kind := 1 : Burst }]).dev.keep.running = none) ∧ ((wBursts 0 [{ kind := 1 : Burst }]).dev.keep.waiting = [] ++ [{ kind := 1 : Burst }]) ∧ (∀ (x : Burst), x ∈ [] → { kind := 1 : Burst }.rank < x.rank) ∧ (∀ (x : Burst), x ∈ [] → { kind := 1 : Burst }.rank ≤ x.rank) ∧ (1 ≤ { kind := 1 : Burst }.kind) ∧ ({ kind := 1 : Burst }.kind ≤ 5) ∧ ((wBursts 0 [{ kind := 1 : Burst }]).dev.flag Reg.KEEP_STAT Fld.KEEP_STAT_MAIN_OK = false) ∧ (43960 = if { kind := 1 : Burst }.kind = 5 then ((Dev.gaspBytes (wBursts 0 [{ kind := 1 : Burst }]).nv (wBursts 0 [{ kind := 1 : Burst }]).dev).length * charBits (wBursts 0 [{ kind := 1 : Burst }]).dev.keep.pfUart + 2) * (wBursts 0 [{ kind := 1 : Burst }]).dev.fld Reg.LG_EBIT Fld.LG_EBIT_EBIT else 8000 + 10 * (feObject { kind := 1 : Burst }.kind).snd.snd) ∧ ((wBursts 0 [{ kind := 1 : Burst }]).dev.fld Reg.KEEP_CFG Fld.KEEP_CFG_CAP = 0 ∨ ↑((wBursts 0 [{ kind := 1 : Burst }]).dev.fld Reg.KEEP_CFG Fld.KEEP_CFG_CAP) * (↑1700 * ↑1700 - (3240000 : Int)) * (16 : Int) < ↑43960 * ↑((wBursts 0 [{ kind := 1 : Burst }]).dev.fld Reg.KEEP_CFG Fld.KEEP_CFG_MARGIN) * (2000 : Int))) ∧
    (((wBurst bLeaf).dev.keep.running = some bLeaf) ∧ (1 ≤ bLeaf.kind) ∧ (bLeaf.kind ≤ 4) ∧ ((wBurst bLeaf).nv.wf = true) ∧ (bLeaf.payload.length = (feObject bLeaf.kind).snd.snd - 8) ∧ (Option.all (fun e => decide (e.snd < 2 ^ 32 - 1)) (feNewest (wBurst bLeaf).nv bLeaf.kind) = true)) ∧
    ((wLeafTwice.dev.keep.running = some bLeaf) ∧ (1 ≤ bLeaf.kind) ∧ (bLeaf.kind ≤ 4) ∧ (wLeafTwice.nv.wf = true) ∧ (bLeaf.payload.length = (feObject bLeaf.kind).snd.snd - 8) ∧ (Option.all (fun e => decide (e.snd < 2 ^ 32 - 1)) (feNewest wLeafTwice.nv bLeaf.kind) = true)) ∧
    (((wBurst bGasp).dev.keep.running = some bGasp) ∧ (bGasp.kind = 5)) ∧
    ((wMetRun.awake) ∧ (wMetRun.dev.fld Reg.MET_STAT Fld.MET_STAT_RESTORE ≠ 3)) ∧
    (wKeepMain.ready) ∧
    (wAlarm.dev.rd Reg.RTC_SEC = wAlarm.dev.rd Reg.RTC_ALARM) ∧
    ((wRefresh.dev.flag Reg.KEEP_STAT Fld.KEEP_STAT_MAIN_OK = true) ∧ (2 = if (1 : Fin 3) = (0 : Fin 3) then 4 else if (1 : Fin 3) = (1 : Fin 3) then 2 else 3) ∧ (fePayload wRefresh.nv 2 = some bLeaf.payload) ∧ (((wRefresh.dev.keep.waiting ++ wRefresh.dev.keep.running.toList).all fun b => b.kind == 5 || decide (feObject b.kind ≠ feObject 2)) = true)) ∧
    (wKeepMain.dev.keep.running = none) := by
  refine ⟨?_, ?_, ?_, ?_, ?_, ?_, ?_, ?_, ?_, ?_, ?_, ?_, ?_, ?_, ?_, ?_, ?_, ?_⟩ <;> decide

/-- Witness of TamperIsRecordedOnEverySupply. -/
theorem wit_tamper_is_recorded_on_every_supply :
    (wbit (wTamp.dev.rd Reg.TAMP_CFG) (1 : Fin 2).val = true) ∧
    (wbit (wTampHeld.dev.rd Reg.TAMP_CFG) (1 : Fin 2).val = true) ∧
    (wbit (wTamp.dev.rd Reg.TAMP_CFG) (0 : Fin 2).val = false) ∧
    ((wTampDue.dev.held = true) ∧ (wTampDue.dev.holdEnded = true) ∧ (wTampDue.dev.keep.tamper = true)) := by
  refine ⟨?_, ?_, ?_, ?_⟩ <;> decide

end Sys2Proof.Tests
end

/-! SUPPORT. Commands to sections (R23): the write of SEC_CMD, what each command does to the section that it names, and the
refusals that CMD_STAT records. -/

namespace Sys2Proof.Machine

/-! ### The write of SEC_CMD -/

/-- SEC_CMD has no RWP field, so no lock stands before it: once the device has left BOOT, its write is the section command. -/
theorem hostWrite_secCmd (d : Dev) (nv : NonVol) (v : W) (h : d.devState ≠ 1) : hostWrite Reg.SEC_CMD v nv d = d.secCmd v := by
  have hplace : placeOf Reg.SEC_CMD = .dev := by decide
  have hrow : devRow Reg.SEC_CMD = some ⟨0x10, 1, 0x0, 1, 0x0, 0x0, 0x0, 0x0, 0x0, 0x0, 0xffff0fff, 0x0⟩ := by decide
  have hpool : ¬(0x68000 ≤ Reg.SEC_CMD ∧ Reg.SEC_CMD < 0x70000 ∧ Reg.SEC_CMD % 4 = 0) := by decide
  have hrpt : ¬(0xA8000 ≤ Reg.SEC_CMD ∧ Reg.SEC_CMD < 0xAC000 ∧ Reg.SEC_CMD % 4 = 0) := by decide
  have hblock : Reg.SEC_CMD / 0x10000 = 0 := by decide
  simp [hostWrite, hostWriteAt, h, Dev.busWrite, hplace, hrow, hpool, hrpt, RegRow.lockedHit, Dev.devWrite, hblock]

theorem runNv_secCmd (s : State) (v : W) (h : s.ready) :
    runNv s (hostWrite Reg.SEC_CMD v) = .next (s.onNv fun _ _ => s.dev.quiet.secCmd v) := by
  obtain ⟨hawake, hstate⟩ := h
  rw [runNv_next s _ hawake, hostWrite_secCmd s.dev.quiet _ _ hstate]
  rfl

theorem exec_registerWrite_secCmd (s : State) (v : W) (h : s.ready) :
    exec (.registerWrite (natW Reg.SEC_CMD) v) s = .next (s.onNv fun _ _ => s.dev.quiet.secCmd v) :=
  runNv_secCmd s v h

/-! ### The bits of one section -/

/-- A write that names no command for a section does nothing to it. -/
@[simp] theorem Dev.secCommand_none (d : Dev) (s : Sec) : d.secCommand s false false false = d := rfl

/-- Beside STOP the other command bits of a section do not act. -/
theorem Dev.secCommand_stop (d : Dev) (s : Sec) (enable start enable' start' : Bool) :
    d.secCommand s true enable start = d.secCommand s true enable' start' := rfl

theorem Dev.secCommand_claimed (d : Dev) (s : Sec) (stop enable start : Bool) (h : d.claimed s = true)
    (hany : (stop || enable || start) = true) :
    d.secCommand s stop enable start = d.put Reg.CMD_STAT Fld.CMD_STAT_CMD_REJ 1 := by
  have hnot : (!stop && !enable && !start) = false := by rw [← Bool.not_or, ← Bool.not_or, hany, Bool.not_true]
  simp [Dev.secCommand, hnot, h]

theorem Dev.secCommand_start_ignored (d : Dev) (s : Sec) (h : d.claimed s = false)
    (h0 : d.secSt s ≠ 0) (h2 : d.secSt s ≠ 2) (h6 : d.secSt s ≠ 6) : d.secCommand s false false true = d.cmdIgn := by
  simp [Dev.secCommand, h, h0, h2, h6]

theorem Dev.secCommand_enable_ignored (d : Dev) (s : Sec) (h : d.claimed s = false) (h3 : d.secSt s ≠ 3) :
    d.secCommand s false true false = d.cmdIgn := by
  simp [Dev.secCommand, h, h3]

theorem Dev.secCommand_stop_ignored (d : Dev) (s : Sec) (h : d.claimed s = false)
    (h1 : d.secSt s ≠ 1) (h3 : d.secSt s ≠ 3) (h4 : d.secSt s ≠ 4) (h7 : d.secSt s ≠ 7) :
    d.secCommand s true false false = d.cmdIgn := by
  simp [Dev.secCommand, h, h1, h3, h4, h7]

/-- A keyed write whose command bits all belong to one section is the command of that section. -/
theorem Dev.secCmd_of_one (d : Dev) (s : Sec) (v : W) (hkey : keyIs v 0xA5C3 = true)
    (hone : ∀ k : Sec, k ≠ s → wbit v (8 + k.val) = false ∧ wbit v (4 + k.val) = false ∧ wbit v k.val = false) :
    d.secCmd v = d.secCommand s (wbit v (8 + s.val)) (wbit v (4 + s.val)) (wbit v s.val) := by
  have hskip : ∀ k : Sec, k ≠ s → ∀ e : Dev,
      e.secCommand k (wbit v (8 + k.val)) (wbit v (4 + k.val)) (wbit v k.val) = e := by
    intro k hk e
    obtain ⟨hstop, henable, hstart⟩ := hone k hk
    rw [hstop, henable, hstart, Dev.secCommand_none]
  simp only [Dev.secCmd, hkey, Bool.not_true, Bool.false_eq_true, if_false, List.foldl_cons, List.foldl_nil]
  match s with
  | 0 => rw [hskip 1 (by decide), hskip 2 (by decide), hskip 3 (by decide)]
  | 1 => rw [hskip 0 (by decide), hskip 2 (by decide), hskip 3 (by decide)]
  | 2 => rw [hskip 0 (by decide), hskip 1 (by decide), hskip 3 (by decide)]
  | 3 => rw [hskip 0 (by decide), hskip 1 (by decide), hskip 2 (by decide)]

/-! ### The command words of START, ENABLE and STOP -/

theorem keyIs_secCmdWord : ∀ i : Fin 12, keyIs (natW (0xA5C30000 + 2 ^ i.val)) 0xA5C3 = true := by decide

theorem wbit_secCmdWord : ∀ i j : Fin 12, wbit (natW (0xA5C30000 + 2 ^ i.val)) j.val = decide (j = i) := by decide

/-- The word with bit s of command group g (0 START, 1 ENABLE, 2 STOP) is that one command of section s. -/
theorem Dev.secCmd_word (d : Dev) (s : Sec) (g : Fin 3) :
    d.secCmd (natW (0xA5C30000 + 2 ^ (4 * g.val + s.val))) =
      d.secCommand s (decide (g = 2)) (decide (g = 1)) (decide (g = 0)) := by
  have hbit : ∀ (k : Sec) (p : Fin 3), wbit (natW (0xA5C30000 + 2 ^ (4 * g.val + s.val))) (4 * p.val + k.val) =
      decide (g = p ∧ k = s) := by
    intro k p
    have h := wbit_secCmdWord ⟨4 * g.val + s.val, by omega⟩ ⟨4 * p.val + k.val, by omega⟩
    rw [h, decide_eq_decide, Fin.ext_iff, Fin.ext_iff, Fin.ext_iff]
    dsimp only
    omega
  have hstop (k : Sec) := hbit k 2
  have henable (k : Sec) := hbit k 1
  have hstart (k : Sec) := hbit k 0
  simp only [Fin.val_zero, Fin.val_one, Fin.val_two, Nat.mul_zero, Nat.mul_one, Nat.zero_add, Nat.reduceMul]
    at hstop henable hstart
  rw [Dev.secCmd_of_one d s _ (keyIs_secCmdWord ⟨4 * g.val + s.val, by omega⟩)
    (fun k hk => by simp [hstop, henable, hstart, hk])]
  simp [hstop, henable, hstart]

/-- A command word written: i is the place of the bit of section sc in command group g. -/
theorem runNv_secCmd_word (s : State) (sc : Sec) (g : Fin 3) {i : Nat} (hi : i = 4 * g.val + sc.val) (h : s.ready) :
    runNv s (hostWrite Reg.SEC_CMD (natW (0xA5C30000 + 2 ^ i))) =
      .next (s.onNv fun _ _ => s.dev.quiet.secCommand sc (decide (g = 2)) (decide (g = 1)) (decide (g = 0))) := by
  rw [runNv_secCmd s _ h, hi, Dev.secCmd_word]

theorem exec_secCmdStart (s : State) (sc : Sec) (h : s.ready) :
    exec (.secCmdStart sc) s = .next (s.onNv fun _ _ => s.dev.quiet.secCommand sc false false true) :=
  runNv_secCmd_word s sc 0 (Nat.zero_add _).symm h

theorem exec_secCmdEnable (s : State) (sc : Sec) (h : s.ready) :
    exec (.secCmdEnable sc) s = .next (s.onNv fun _ _ => s.dev.quiet.secCommand sc false true false) :=
  runNv_secCmd_word s sc 1 rfl h

theorem exec_secCmdStop (s : State) (sc : Sec) (h : s.ready) :
    exec (.secCmdStop sc) s = .next (s.onNv fun _ _ => s.dev.quiet.secCommand sc true false false) :=
  runNv_secCmd_word s sc 2 rfl h

/-! ### Refusals and ranks -/

/-- A command that only sets a bit of CMD_STAT: the bit reads 1, and nothing else of the state changes. -/
theorem exec_sets_cmdStat {s : State} {c : Instr} {f : Field} (hf : Field.ok f = true) (hw : Field.width f = 1)
    (h : exec c s = .next (s.onNv fun _ _ => s.dev.quiet.put Reg.CMD_STAT f 1)) :
    ∃ t, exec c s = .next t ∧ s.sameStore t ∧ t.dev.fld Reg.CMD_STAT f = 1 ∧
      t.dev = { s.dev.quiet with regs := t.dev.regs } ∧ s.dev.regsBut t.dev [Reg.CMD_STAT] := by
  refine ⟨_, h, ⟨rfl, rfl⟩, ?_, rfl, fun a ha => ?_⟩
  · exact (Dev.fld_put_same s.dev.quiet _ f hf 1).trans (congrArg (1 % 2 ^ ·) hw)
  · exact Dev.rd_put_other s.dev.quiet (by simpa using ha) f 1

/-- The START and ENABLE bits of a section, as R23 places them in SEC_CMD. -/
def startEnableBits (s : Sec) : W := natW (2 ^ s.val + 2 ^ (4 + s.val))

theorem wbit_startEnableBits (s : Sec) (i : Nat) (hi : i < 32) :
    wbit (startEnableBits s) i = decide (i = s.val ∨ i = 4 + s.val) := by
  have h : ∀ (s : Sec) (i : Fin 32), wbit (startEnableBits s) i.val = decide (i.val = s.val ∨ i.val = 4 + s.val) := by decide
  exact h s ⟨i, hi⟩

/-- Taking the START and ENABLE bits of section s out of a word leaves every other bit. -/
theorem wbit_without_startEnable (v : W) (s : Sec) {i : Nat} (hs : i ≠ s.val) (he : i ≠ 4 + s.val) :
    wbit (v &&& ~~~startEnableBits s) i = wbit v i := by
  by_cases hi : i < 32
  · have hout : wbit (startEnableBits s) i = false := by simp [wbit_startEnableBits s i hi, hs, he]
    rw [wbit] at hout
    rw [wbit, wbit, BitVec.getLsbD_and, BitVec.getLsbD_not, hout]
    simp [hi]
  · simp [wbit, BitVec.getLsbD_of_ge _ _ (Nat.not_lt.mp hi)]

/-- The key is the upper half of the word: bits above the command bits. -/
theorem keyIs_congr {v w : W} (h : ∀ i, 16 ≤ i → wbit v i = wbit w i) (key : Nat) : keyIs v key = keyIs w key := by
  have : bitsN v.toNat 31 16 = bitsN w.toNat 31 16 := by
    refine congrArg (· % 2 ^ 16) (Nat.eq_of_testBit_eq fun i => ?_)
    simpa only [Nat.testBit_shiftRight, wbit, BitVec.testBit_toNat] using h (16 + i) (by omega)
  rw [keyIs, keyIs, this]

/-- R23: with STOP set for a section, its START and ENABLE bits do not matter. -/
theorem Dev.secCmd_stop_ranks (d : Dev) (s : Sec) (v : W) (hstop : wbit v (8 + s.val) = true) :
    d.secCmd (v &&& ~~~startEnableBits s) = d.secCmd v := by
  have hkey : keyIs (v &&& ~~~startEnableBits s) 0xA5C3 = keyIs v 0xA5C3 :=
    keyIs_congr (fun i hi => wbit_without_startEnable v s (by omega) (by omega)) _
  have hstops : ∀ k : Sec, wbit (v &&& ~~~startEnableBits s) (8 + k.val) = wbit v (8 + k.val) :=
    fun k => wbit_without_startEnable v s (by omega) (by omega)
  have hsame : ∀ (e : Dev) (k : Sec),
      e.secCommand k (wbit (v &&& ~~~startEnableBits s) (8 + k.val)) (wbit (v &&& ~~~startEnableBits s) (4 + k.val))
        (wbit (v &&& ~~~startEnableBits s) k.val) =
      e.secCommand k (wbit v (8 + k.val)) (wbit v (4 + k.val)) (wbit v k.val) := by
    intro e k
    rw [hstops]
    by_cases hk : k = s
    · rw [hk, hstop]
      exact Dev.secCommand_stop _ _ _ _ _ _
    · have hne : k.val ≠ s.val := fun h => hk (Fin.ext h)
      rw [wbit_without_startEnable v s (i := 4 + k.val) (by omega) (by omega),
        wbit_without_startEnable v s (i := k.val) hne (by omega)]
  simp only [Dev.secCmd, hkey, hsame]

/-- Settles O15: SEC_CMD is the command of each section that it names, where STOP ranks first, and a refused command sets
its bit of CMD_STAT and nothing else. -/
theorem sectionCommandsAreRankedIgnoredAndRejected : Obligations.SectionCommandsAreRankedIgnoredAndRejected := by
  unfold Obligations.SectionCommandsAreRankedIgnoredAndRejected
  refine ⟨?ranked, ?ignored, ?rejected⟩
  case ranked =>
    intro s sc v hready _ hstop
    refine ⟨_, exec_registerWrite_secCmd s v hready, ?_⟩
    rw [exec_registerWrite_secCmd s _ hready, ← Dev.secCmd_stop_ranks s.dev.quiet sc v hstop]
    rfl
  case ignored =>
    rintro s sc c n hready hfree rfl (⟨rfl, h0, h2, h6⟩ | ⟨rfl, h3⟩ | ⟨rfl, h1, h3, h4, h7⟩)
    all_goals refine exec_sets_cmdStat (f := Fld.CMD_STAT_CMD_IGN) rfl rfl ?_
    · rw [exec_secCmdStart s sc hready, Dev.secCommand_start_ignored s.dev.quiet sc hfree h0 h2 h6]
      rfl
    · rw [exec_secCmdEnable s sc hready, Dev.secCommand_enable_ignored s.dev.quiet sc hfree h3]
      rfl
    · rw [exec_secCmdStop s sc hready, Dev.secCommand_stop_ignored s.dev.quiet sc hfree h1 h3 h4 h7]
      rfl
  case rejected =>
    rintro s sc c hready hclaimed (rfl | rfl | rfl)
    all_goals refine exec_sets_cmdStat (f := Fld.CMD_STAT_CMD_REJ) rfl rfl ?_
    · rw [exec_secCmdStart s sc hready, Dev.secCommand_claimed s.dev.quiet sc _ _ _ hclaimed rfl]
    · rw [exec_secCmdEnable s sc hready, Dev.secCommand_claimed s.dev.quiet sc _ _ _ hclaimed rfl]
    · rw [exec_secCmdStop s sc hready, Dev.secCommand_claimed s.dev.quiet sc _ _ _ hclaimed rfl]

end Sys2Proof.Machine

/-! SUPPORT. Writes into the proof bank (R327, R331): the record of a bus error, the words that an entry of the proof
directory protects, and what a write of a protected and of a free word does. -/

namespace Sys2Proof.Machine

/-! ### Words and registers -/

theorem Dev.regsBut_trans {a b c : Dev} {as bs cs : List Nat} (h : a.regsBut b as) (g : b.regsBut c bs)
    (has : as ⊆ cs) (hbs : bs ⊆ cs) : a.regsBut c cs := fun x hx =>
  (g x fun hb => hx (hbs hb)).trans (h x fun ha => hx (has ha))

@[simp] theorem natW_toNat (w : W) : natW w.toNat = w := (BitVec.ofNat_toNat 32 w).trans (BitVec.setWidth_eq w)

/-! ### A bus error (R22) -/

/-- Outside the registers a bus error only raises BUS_ERR. -/
theorem Dev.busErr_eq (d : Dev) (cause : Nat) (w : Bool) (a : Nat) :
    d.busErr cause w a = { d with regs := (d.busErr cause w a).regs, fc := d.fc.pulse 40 } := by
  unfold Dev.busErr
  split <;> rfl

theorem Dev.regsBut_busErr (d : Dev) (cause : Nat) (w : Bool) (a : Nat) :
    d.regsBut (d.busErr cause w a) [Reg.BUS_ERR_STAT, Reg.BUS_ERR_ADDR] := by
  intro x hx
  obtain ⟨hstat, haddr⟩ : x ≠ Reg.BUS_ERR_STAT ∧ x ≠ Reg.BUS_ERR_ADDR := by simpa using hx
  unfold Dev.busErr
  split <;> simp [Dev.putB, Dev.bump, Dev.rd_put_other _ hstat, Dev.rd_wr_other _ haddr]

section
variable (d : Dev) (cause : Nat) (w : Bool) (a : Nat) (h : d.flag Reg.BUS_ERR_STAT Fld.BUS_ERR_STAT_VALID = false)
include h

/-- The first bus error since VALID was cleared is recorded in BUS_ERR_STAT; n is its COUNT. -/
theorem Dev.rd_busErr_stat :
    ∃ n, (d.busErr cause w a).rd Reg.BUS_ERR_STAT =
      fput Fld.BUS_ERR_STAT_COUNT (fput Fld.BUS_ERR_STAT_WRITE (fput Fld.BUS_ERR_STAT_CAUSE
        (fput Fld.BUS_ERR_STAT_VALID (d.rd Reg.BUS_ERR_STAT) 1) cause) (b2n w)) n := by
  have hne : Reg.BUS_ERR_STAT ≠ Reg.BUS_ERR_ADDR := by decide
  simp only [Dev.busErr, h, Bool.false_eq_true, if_false, Dev.bump, Dev.putB, Dev.rd_pulse, Dev.rd_put_same,
    Dev.rd_wr_other _ hne]
  exact ⟨_, rfl⟩

theorem Dev.fld_busErr_cause : (d.busErr cause w a).fld Reg.BUS_ERR_STAT Fld.BUS_ERR_STAT_CAUSE = cause % 4 := by
  obtain ⟨n, hrd⟩ := Dev.rd_busErr_stat d cause w a h
  rw [Dev.fld, hrd, fget_fput_apart _ _ rfl rfl, fget_fput_apart _ _ rfl rfl, fget_fput_same _ rfl]
  rfl

theorem Dev.flag_busErr_write : (d.busErr cause w a).flag Reg.BUS_ERR_STAT Fld.BUS_ERR_STAT_WRITE = w := by
  obtain ⟨n, hrd⟩ := Dev.rd_busErr_stat d cause w a h
  rw [Dev.flag, hrd, fbit, fget_fput_apart _ _ rfl rfl, fget_fput_same _ rfl]
  cases w <;> rfl

theorem Dev.rd_busErr_addr : (d.busErr cause w a).rd Reg.BUS_ERR_ADDR = natW a := by
  have hne : Reg.BUS_ERR_ADDR ≠ Reg.BUS_ERR_STAT := by decide
  simp only [Dev.busErr, h, Bool.false_eq_true, if_false, Dev.rd_pulse, Dev.bump, Dev.rd_put_other _ hne, Dev.rd_wr_same]

end

/-! ### The words that R331 protects -/

/-- The word at offset o of the proof bank touches the directory entry e or the image that the entry places. -/
def NonVol.proofWord (nv : NonVol) (e o : Nat) : Prop :=
  (0x04 + 12 * e ≤ o ∧ o < 0x04 + 12 * e + 12) ∨ ((nv.proof e).1 < o + 4 ∧ o < (nv.proof e).1 + (nv.proof e).2.1)

/-- A held entry protects its words. -/
theorem Dev.proofRefused_of_held (d : Dev) (nv : NonVol) {e o : Nat} (he : e < 5) (hheld : d.proofHeld nv e = true)
    (hword : nv.proofWord e o) : d.proofRefused nv o = true := by
  rw [Dev.proofRefused, List.any_eq_true]
  refine ⟨e, List.mem_range.mpr he, ?_⟩
  simpa [hheld, NonVol.proofWord] using hword

/-- The entry of a section is held while the device verifies or copies its image and while a couching of it has not
reached takeover. -/
theorem Dev.proofHeld_section (d : Dev) (nv : NonVol) (sc : Sec) :
    d.proofHeld nv (sc.val + 1) =
      ((d.cryptoOn && d.crypto.head? == some sc.val && !d.claimed sc && nv.proofNew (sc.val + 1)) || d.couchEarly sc) := by
  have hsec : (sc.val + 1 - 1) % 4 = sc.val := Nat.mod_eq_of_lt sc.isLt
  simp only [Dev.proofHeld, Nat.succ_ne_zero, if_false, hsec, Fin.eta]

/-! ### The record of a refused word -/

/-- A refused word sets PB_REF, with the address of the word where PB_REF was 0 (R331). -/
def Dev.proofRefusal (d : Dev) (a : Nat) : Dev :=
  if d.flag Reg.BOOT_STAT Fld.BOOT_STAT_PB_REF then d
  else (d.put Reg.BOOT_STAT Fld.BOOT_STAT_PB_REF 1).wr Reg.PB_REF_ADDR (natW a)

theorem Dev.proofRefusal_eq (d : Dev) (a : Nat) : d.proofRefusal a = { d with regs := (d.proofRefusal a).regs } := by
  unfold Dev.proofRefusal
  split <;> rfl

theorem Dev.regsBut_proofRefusal (d : Dev) (a : Nat) : d.regsBut (d.proofRefusal a) [Reg.BOOT_STAT, Reg.PB_REF_ADDR] := by
  intro x hx
  obtain ⟨hstat, haddr⟩ : x ≠ Reg.BOOT_STAT ∧ x ≠ Reg.PB_REF_ADDR := by simpa using hx
  unfold Dev.proofRefusal
  split
  · rfl
  · rw [Dev.rd_wr_other _ haddr, Dev.rd_put_other _ hstat]

theorem Dev.flag_proofRefusal (d : Dev) (a : Nat) :
    (d.proofRefusal a).flag Reg.BOOT_STAT Fld.BOOT_STAT_PB_REF = true := by
  have hne : Reg.BOOT_STAT ≠ Reg.PB_REF_ADDR := by decide
  unfold Dev.proofRefusal
  split
  · assumption
  · rw [Dev.flag, Dev.rd_wr_other _ hne, Dev.rd_put_same, fbit, fget_fput_same _ rfl]
    rfl

theorem Dev.rd_proofRefusal_addr (d : Dev) (a : Nat) :
    (d.proofRefusal a).rd Reg.PB_REF_ADDR =
      if d.flag Reg.BOOT_STAT Fld.BOOT_STAT_PB_REF = true then d.rd Reg.PB_REF_ADDR else natW a := by
  unfold Dev.proofRefusal
  split
  · rfl
  · exact Dev.rd_wr_same _ _ _

/-! ### The write of a word of the proof bank -/

theorem hostWrite_mram (d : Dev) (nv : NonVol) (v : W) {a o : Nat} (hstate : d.devState ≠ 1) (hplace : placeOf a = .mram o)
    (halign : a % 4 = 0) : hostWrite a v nv d = (d.mramWrite (d.nvNow nv) a o v).1 := by
  simp [hostWrite, hostWriteAt, hstate, Dev.busWrite, hplace, halign]

/-- The proof bank is the part of the MRAM windows that takes writes. -/
theorem proofBank_writable {o : Nat} (ho : o < 0x380000) : ¬(proofBank + o < proofBank ∨ 0x700000 ≤ proofBank + o) := by
  simp only [proofBank]
  omega

theorem Dev.mramWrite_refused (d : Dev) (nv : NonVol) (a : Nat) (v : W) {o : Nat} (ho : o < 0x380000)
    (href : d.proofRefused nv o = true) :
    d.mramWrite nv a (proofBank + o) v = ((d.proofRefusal a).busErr 3 true a, true) := by
  rw [Dev.mramWrite, if_neg (proofBank_writable ho), Nat.add_sub_cancel_left, if_pos href]
  rfl

theorem Dev.mramWrite_stored (d : Dev) (nv : NonVol) (a : Nat) (v : W) {o : Nat} (ho : o < 0x380000)
    (href : d.proofRefused nv o = false) :
    d.mramWrite nv a (proofBank + o) v =
      ({ d with nvOut := d.nvOut ++ [.mram (proofBank + o) (wordBytes v)] }, false) := by
  simp only [Dev.mramWrite, if_neg (proofBank_writable ho), Nat.add_sub_cancel_left, href, Bool.false_eq_true, if_false]

section
variable {s : State} {a : W} {o : Nat} (hready : s.ready) (hplace : placeOf a.toNat = .mram (proofBank + o))
  (halign : a.toNat % 4 = 0) (ho : o < 0x380000)
include hready hplace halign ho

theorem exec_registerWrite_proof_refused (v : W) (href : s.dev.quiet.proofRefused s.nv o = true) :
    exec (.registerWrite a v) s =
      .next { s with dev := ((s.dev.quiet.proofRefusal a.toNat).busErr 3 true a.toNat) } := by
  obtain ⟨hawake, hstate⟩ := hready
  have hwrite : hostWrite a.toNat v s.nv s.dev.quiet = (s.dev.quiet.proofRefusal a.toNat).busErr 3 true a.toNat := by
    rw [hostWrite_mram s.dev.quiet s.nv v hstate hplace halign]
    exact congrArg Prod.fst (Dev.mramWrite_refused s.dev.quiet s.nv a.toNat v ho href)
  refine (runNv_next s _ hawake).trans ?_
  rw [hwrite, Dev.busErr_eq, Dev.proofRefusal_eq]
  rfl

theorem exec_registerWrite_proof_stored (v : W) (href : s.dev.quiet.proofRefused s.nv o = false) :
    exec (.registerWrite a v) s =
      .next { s with dev := s.dev.quiet, nv := s.nv.apply (.mram (proofBank + o) (wordBytes v)) } := by
  obtain ⟨hawake, hstate⟩ := hready
  have hwrite : hostWrite a.toNat v s.nv s.dev.quiet =
      { s.dev.quiet with nvOut := [.mram (proofBank + o) (wordBytes v)] } := by
    rw [hostWrite_mram s.dev.quiet s.nv v hstate hplace halign]
    exact congrArg Prod.fst (Dev.mramWrite_stored s.dev.quiet s.nv a.toNat v ho href)
  refine (runNv_next s _ hawake).trans ?_
  rw [hwrite]
  rfl

end

/-- The bytes of a word, least significant first. -/
theorem wordBytes_getElem (v : W) (i : Nat) (h : i < (wordBytes v).length) :
    (wordBytes v)[i] = v.extractLsb' (8 * i) 8 := by
  match i, h with
  | 0, _ => rfl
  | 1, _ => rfl
  | 2, _ => rfl
  | 3, _ => rfl

/-- Settles O23: a word of a held entry or of its image is refused with the record of R331; any other word of the proof
bank takes its four bytes. -/
theorem protectedProofBankWordsAreRefused : Obligations.ProtectedProofBankWordsAreRefused := by
  unfold Obligations.ProtectedProofBankWordsAreRefused
  refine ⟨?refused, ?stored⟩
  case refused =>
    rintro s a v o _ off size st sc hready hplace halign ho rfl hproof hheld hword hvalid
    have hhold : s.dev.quiet.proofHeld s.nv (sc.val + 1) = true := by
      rw [Dev.proofHeld_section]
      simp only [Bool.or_eq_true, Bool.and_eq_true, beq_iff_eq, Bool.not_eq_true', and_assoc]
      exact hheld
    have href : s.dev.quiet.proofRefused s.nv o = true :=
      Dev.proofRefused_of_held _ _ (by omega) hhold (by simpa only [NonVol.proofWord, hproof] using hword)
    have hregs := Dev.regsBut_busErr (s.dev.quiet.proofRefusal a.toNat) 3 true a.toNat
    have hvalid' : (s.dev.quiet.proofRefusal a.toNat).flag Reg.BUS_ERR_STAT Fld.BUS_ERR_STAT_VALID = false := by
      rw [Dev.flag, Dev.regsBut_proofRefusal s.dev.quiet a.toNat Reg.BUS_ERR_STAT (by decide)]
      exact hvalid
    refine ⟨_, exec_registerWrite_proof_refused hready hplace halign ho v href, ⟨rfl, rfl⟩, ?_⟩
    refine ⟨Dev.fld_busErr_cause _ _ _ _ hvalid', Dev.flag_busErr_write _ _ _ _ hvalid', ?addr, ?raised, ?pbRef, ?pbRefAddr,
      ?rest, ?regs, ?pairs⟩
    case addr => rw [Dev.rd_busErr_addr _ _ _ _ hvalid', natW_toNat]
    case raised =>
      rw [Dev.busErr_eq]
      exact Collector.raised_pulse _ _ _
    case pbRef =>
      rw [Dev.flag, hregs _ (by decide)]
      exact Dev.flag_proofRefusal _ _
    case pbRefAddr =>
      rw [hregs _ (by decide), Dev.rd_proofRefusal_addr, natW_toNat]
      rfl
    case rest => rw [Dev.busErr_eq, Dev.proofRefusal_eq]
    case regs =>
      exact Dev.regsBut_trans (Dev.regsBut_proofRefusal s.dev.quiet a.toNat) hregs (by decide) (by decide)
    case pairs =>
      rw [Dev.busErr_eq, Dev.proofRefusal_eq]
      exact Collector.pairsBut_pulse _ _ _
  case stored =>
    intro s a v o hready hplace halign ho href
    refine ⟨_, exec_registerWrite_proof_stored hready hplace halign ho v href, rfl, rfl, ?bytes, ?others, rfl, rfl, rfl⟩
    case bytes =>
      intro i hi
      exact (Memory.read_writeBytes_inside _ _ _ _ hi).trans (wordBytes_getElem v i hi)
    case others =>
      intro b hb
      exact Memory.read_writeBytes_outside _ _ _ _ hb

end Sys2Proof.Machine

/-! SUPPORT. Tamper events (R395): what one records in the registers of the keep domain, how it reaches KEEP_TAMPER, and
what the release of device reset makes of one that waits. -/

namespace Sys2Proof.Machine

/-! ### Bits and counters -/

theorem wbit_or_two_pow_same (w : W) {i : Nat} (hi : i < 32) : wbit (w ||| natW (2 ^ i)) i = true := by
  have hbit : (natW (2 ^ i)).getLsbD i = true := by
    rw [natW, BitVec.getLsbD_ofNat, Nat.testBit_two_pow_self, Bool.and_true, decide_eq_true hi]
  rw [wbit, BitVec.getLsbD_or, hbit, Bool.or_true]

theorem satInc_eq_min (m n : Nat) : satInc m n = min m (n + 1) := by
  unfold satInc
  split <;> omega

/-- A counter field goes up by one and stops at the largest value that it holds. -/
theorem Dev.fld_bump_same (d : Dev) (a : Nat) (f : Field) (h : Field.ok f = true) :
    (d.bump a f).fld a f = min (2 ^ Field.width f - 1) (d.fld a f + 1) := by
  have hpos : 0 < 2 ^ Field.width f := Nat.two_pow_pos _
  rw [Dev.bump, Dev.fld_put_same _ _ _ h, satInc_eq_min]
  exact Nat.mod_eq_of_lt (by omega)

/-! ### The record of a tamper event -/

/-- What a tamper event at loop n records, whatever supplies the device: TAMP_STAT, TAMP_TIME, the count and WAKE. -/
def Dev.tamperRecord (d : Dev) (n : Fin 2) : Dev :=
  (((d.wr Reg.TAMP_STAT (d.rd Reg.TAMP_STAT ||| natW (2 ^ n.val))).wr Reg.TAMP_TIME (d.rd Reg.RTC_SEC)).bump
    Reg.KEEP_EVCNT Fld.KEEP_EVCNT_TAMPER).put Reg.KEEP_STAT Fld.KEEP_STAT_WAKE 1

/-- How a tamper event reaches KEEP_TAMPER: at once where SYS runs; in a device held in reset the keep domain keeps it. -/
def Dev.tamperRaise (d : Dev) : Dev :=
  if d.held then { d with keep := { d.keep with tamper := true } } else d.pulse 36

/-- The two together are the model's tamper event of an enabled loop. -/
theorem tamper_enabled (d : Dev) (nv : NonVol) {n : Fin 2} (h : wbit (d.rd Reg.TAMP_CFG) n.val = true) :
    tamper n nv d = (d.tamperRecord n).tamperRaise :=
  if_pos h

theorem tamper_disabled (d : Dev) (nv : NonVol) {n : Fin 2} (h : wbit (d.rd Reg.TAMP_CFG) n.val = false) :
    tamper n nv d = d :=
  if_neg (ne_true_of_eq_false h)

/-! A tamper record changes registers alone. -/

theorem Dev.tamperRecord_eq (d : Dev) (n : Fin 2) : d.tamperRecord n = { d with regs := (d.tamperRecord n).regs } := rfl

@[simp] theorem Dev.tamperRecord_nvOut (d : Dev) (n : Fin 2) : (d.tamperRecord n).nvOut = d.nvOut := rfl

theorem Dev.regsBut_tamperRecord (d : Dev) (n : Fin 2) :
    d.regsBut (d.tamperRecord n) [Reg.TAMP_STAT, Reg.TAMP_TIME, Reg.KEEP_EVCNT, Reg.KEEP_STAT] := by
  intro a ha
  obtain ⟨hopen, htime, hcount, hwake⟩ :
      a ≠ Reg.TAMP_STAT ∧ a ≠ Reg.TAMP_TIME ∧ a ≠ Reg.KEEP_EVCNT ∧ a ≠ Reg.KEEP_STAT := by simpa using ha
  rw [Dev.tamperRecord, Dev.rd_put_other _ hwake, Dev.bump, Dev.rd_put_other _ hcount, Dev.rd_wr_other _ htime,
    Dev.rd_wr_other _ hopen]

theorem Dev.rd_tamperRecord_stat (d : Dev) (n : Fin 2) :
    (d.tamperRecord n).rd Reg.TAMP_STAT = d.rd Reg.TAMP_STAT ||| natW (2 ^ n.val) := by
  rw [Dev.tamperRecord, Dev.rd_put_other _ (by decide), Dev.bump, Dev.rd_put_other _ (by decide),
    Dev.rd_wr_other _ (by decide), Dev.rd_wr_same]

theorem Dev.rd_tamperRecord_time (d : Dev) (n : Fin 2) : (d.tamperRecord n).rd Reg.TAMP_TIME = d.rd Reg.RTC_SEC := by
  rw [Dev.tamperRecord, Dev.rd_put_other _ (by decide), Dev.bump, Dev.rd_put_other _ (by decide), Dev.rd_wr_same]

theorem Dev.fld_tamperRecord_count (d : Dev) (n : Fin 2) :
    (d.tamperRecord n).fld Reg.KEEP_EVCNT Fld.KEEP_EVCNT_TAMPER =
      min 255 (d.fld Reg.KEEP_EVCNT Fld.KEEP_EVCNT_TAMPER + 1) := by
  rw [Dev.tamperRecord, Dev.fld_put_other _ (by decide), Dev.fld_bump_same _ _ _ rfl]
  simp only [Dev.fld, Dev.rd_wr_other _ (show Reg.KEEP_EVCNT ≠ Reg.TAMP_TIME by decide),
    Dev.rd_wr_other _ (show Reg.KEEP_EVCNT ≠ Reg.TAMP_STAT by decide)]
  rfl

theorem Dev.flag_tamperRecord_wake (d : Dev) (n : Fin 2) :
    (d.tamperRecord n).flag Reg.KEEP_STAT Fld.KEEP_STAT_WAKE = true := by
  rw [Dev.flag, Dev.tamperRecord, Dev.rd_put_same, fbit, fget_fput_same _ rfl]
  rfl

/-! Its report leaves the registers alone, and changes only the waiting event or the pair of KEEP_TAMPER. -/

theorem Dev.tamperRaise_held (d : Dev) (h : d.held = true) :
    d.tamperRaise = { d with keep := { d.keep with tamper := true } } :=
  if_pos h

theorem Dev.tamperRaise_awake (d : Dev) (h : d.held = false) : d.tamperRaise = d.pulse 36 :=
  if_neg (ne_true_of_eq_false h)

theorem Dev.tamperRaise_eq (d : Dev) : d.tamperRaise = { d with fc := d.tamperRaise.fc, keep := d.tamperRaise.keep } := by
  unfold Dev.tamperRaise
  split <;> rfl

@[simp] theorem Dev.tamperRaise_regs (d : Dev) : d.tamperRaise.regs = d.regs := by rw [Dev.tamperRaise_eq]
@[simp] theorem Dev.tamperRaise_nvOut (d : Dev) : d.tamperRaise.nvOut = d.nvOut := by rw [Dev.tamperRaise_eq]
@[simp] theorem Dev.rd_tamperRaise (d : Dev) (a : Nat) : d.tamperRaise.rd a = d.rd a := by rw [Dev.rd, Dev.tamperRaise_regs]; rfl
@[simp] theorem Dev.fld_tamperRaise (d : Dev) (a : Nat) (f : Field) : d.tamperRaise.fld a f = d.fld a f := by
  rw [Dev.fld, Dev.rd_tamperRaise]; rfl
@[simp] theorem Dev.flag_tamperRaise (d : Dev) (a : Nat) (f : Field) : d.tamperRaise.flag a f = d.flag a f := by
  rw [Dev.flag, Dev.rd_tamperRaise]; rfl

theorem Dev.pairsBut_tamperRaise (d : Dev) : d.fc.pairsBut d.tamperRaise.fc [36] := by
  unfold Dev.tamperRaise
  split
  · exact fun _ _ => rfl
  · exact Collector.pairsBut_pulse _ _ _

/-! ### The answer of a tamper event -/

/-- A change that orders no write to non-volatile storage leaves that storage and the queue as they are. -/
theorem runKeep_of_eq (s : State) (f : NonVol → Dev → Dev) {d : Dev} (h : f s.nv s.dev.quiet = d) (hnv : d.nvOut = []) :
    runKeep s f = .next { s with dev := d } := by
  have hd : d.quiet = d := by rw [Dev.quiet, ← hnv]
  rw [runKeep_next, h, hd, hnv]
  rfl

theorem exec_tamper_enabled (s : State) {n : Fin 2} (h : wbit (s.dev.rd Reg.TAMP_CFG) n.val = true) :
    exec (.tamper n) s = .next { s with dev := (s.dev.quiet.tamperRecord n).tamperRaise } :=
  runKeep_of_eq s (tamper n) (tamper_enabled s.dev.quiet s.nv h) ((Dev.tamperRaise_nvOut _).trans (Dev.tamperRecord_nvOut _ _))

theorem exec_tamper_disabled (s : State) {n : Fin 2} (h : wbit (s.dev.rd Reg.TAMP_CFG) n.val = false) :
    exec (.tamper n) s = .next { s with dev := s.dev.quiet } :=
  runKeep_of_eq s (tamper n) (tamper_disabled s.dev.quiet s.nv h) rfl

/-! ### The release of device reset -/

@[simp] theorem Dev.quiet_held (d : Dev) : d.quiet.held = d.held := rfl
@[simp] theorem Dev.quiet_keep (d : Dev) : d.quiet.keep = d.keep := rfl

/-- The device at its release, before a waiting tamper event is raised. -/
def Dev.released (d : Dev) (straps : BitVec 4) : Dev :=
  (Dev.takeStraps { d with held := false, keep := { d.keep with hold := false, tamper := false }
                           nvOut := d.nvOut ++ [.boot] } straps).newChallenge

theorem Dev.released_held (d : Dev) (straps : BitVec 4) : (d.released straps).held = false := rfl

theorem Dev.released_tamper (d : Dev) (straps : BitVec 4) : (d.released straps).keep.tamper = false := rfl

theorem deviceResetRelease_tamper (d : Dev) (nv : NonVol) (straps : BitVec 4) (hheld : d.held = true)
    (hended : d.holdEnded = true) (htamper : d.keep.tamper = true) :
    deviceResetRelease straps nv d = (d.released straps).pulse 36 := by
  simp only [deviceResetRelease, hheld, hended, htamper, Bool.and_self, if_true, Dev.released]

/-- Settles O60: the record of a tamper event asks nothing of the supply; only its report splits on whether the device is
held in reset, and a report put off is made at the release. -/
theorem tamperIsRecordedOnEverySupply : Obligations.TamperIsRecordedOnEverySupply := by
  unfold Obligations.TamperIsRecordedOnEverySupply
  refine ⟨?enabled, ?disabled, ?release⟩
  case enabled =>
    intro s n henabled
    refine ⟨_, exec_tamper_enabled s henabled, ⟨rfl, rfl⟩, ?stat, ?time, ?wake, ?count, ?report, ?rest, ?regs,
      Dev.pairsBut_tamperRaise _⟩
    case stat =>
      rw [Dev.rd_tamperRaise, Dev.rd_tamperRecord_stat]
      exact wbit_or_two_pow_same _ (by omega)
    case time => rw [Dev.rd_tamperRaise, Dev.rd_tamperRecord_time, Dev.rd_quiet]
    case wake => rw [Dev.flag_tamperRaise, Dev.flag_tamperRecord_wake]
    case count => rw [Dev.fld_tamperRaise, Dev.fld_tamperRecord_count, Dev.fld_quiet]
    case report =>
      split
      case isTrue hheld =>
        dsimp only
        rw [Dev.tamperRaise_held (s.dev.quiet.tamperRecord n) hheld]
        exact ⟨rfl, rfl⟩
      case isFalse hawake =>
        dsimp only
        rw [Dev.tamperRaise_awake (s.dev.quiet.tamperRecord n) (eq_false_of_ne_true hawake)]
        exact ⟨Collector.raised_pulse _ _ _, rfl⟩
    case rest =>
      dsimp only
      rw [Dev.tamperRaise_eq, Dev.tamperRecord_eq]
    case regs => exact fun a ha => (Dev.rd_tamperRaise _ a).trans (s.dev.quiet.regsBut_tamperRecord n a ha)
  case disabled => exact fun s n hoff => ⟨_, exec_tamper_disabled s hoff, ⟨rfl, rfl⟩, rfl⟩
  case release =>
    intro s straps hheld hended htamper
    refine ⟨_, runKeep_next s (deviceResetRelease straps), rfl, ?_⟩
    dsimp only
    rw [deviceResetRelease_tamper s.dev.quiet s.nv straps hheld hended htamper]
    refine ⟨Collector.raised_pulse _ _ _, ?_, ?_⟩
    · rw [Dev.quiet_keep, Dev.pulse_keep, Dev.released_tamper]
    · rw [Dev.quiet_held, Dev.pulse_held, Dev.released_held]

end Sys2Proof.Machine
